-- ==== Sys2Proof/Word.lean ====
section
/-! DEFINITION. The word types of the KX127 block and the sparse table that its stores are held in: a list of
(number, entry) pairs whose numbers strictly rise, with the proof of that carried once. -/

namespace Sys2Proof

/-- A host byte (R5). -/
abbrev Byte := BitVec 8

/-- A 12-bit ply, the native unit (R45). -/
abbrev Ply := BitVec 12

/-- A control register: 24 bits, two plies (R15). -/
abbrev Reg24 := BitVec 24

/-- A 48-bit general or floating register (R309). -/
abbrev W48 := BitVec 48

/-- A device physical address: a 40-bit ply address (R6). -/
abbrev Addr := BitVec 40

/-- The 72 data bits of a word (R4). -/
abbrev Word72 := BitVec 72

/-- An owner code (R24). -/
abbrev OwnerCode := BitVec 4

/-- The keys of a list of pairs rise strictly. -/
def keysRise {α : Type} : List (Nat × α) → Bool
  | [] => true
  | [_] => true
  | a :: b :: t => decide (a.1 < b.1) && keysRise (b :: t)

/-- A sparse table: entries by number, the numbers strictly rising. -/
structure Tab (α : Type) where
  entries : List (Nat × α)
  rising : keysRise entries = true
deriving DecidableEq, Repr

namespace Tab

/-- The table that lists nothing. -/
def empty {α : Type} : Tab α := ⟨[], rfl⟩

/-- The entry listed at `k` in a rising list. -/
def look {α : Type} : List (Nat × α) → Nat → Option α
  | [], _ => none
  | (j, v) :: t, k => if k = j then some v else look t k

/-- A rising list with `v` listed at `k`. -/
def place {α : Type} : List (Nat × α) → Nat → α → List (Nat × α)
  | [], k, v => [(k, v)]
  | (j, w) :: t, k, v =>
    if k < j then (k, v) :: (j, w) :: t
    else if k = j then (k, v) :: t
    else (j, w) :: place t k v

/-- A rising list with `k` no longer listed. -/
def strike {α : Type} : List (Nat × α) → Nat → List (Nat × α)
  | [], _ => []
  | (j, w) :: t, k => if k = j then t else (j, w) :: strike t k

theorem keysRise_tail {α : Type} {a : Nat × α} {t : List (Nat × α)} (h : keysRise (a :: t) = true) :
    keysRise t = true := by
  cases t with
  | nil => rfl
  | cons b t => simp only [keysRise, Bool.and_eq_true] at h; exact h.2

theorem keysRise_cons {α : Type} {a : Nat × α} {t : List (Nat × α)} :
    keysRise (a :: t) = true ↔ (∀ b ∈ t, a.1 < b.1) ∧ keysRise t = true := by
  induction t generalizing a with
  | nil => simp [keysRise]
  | cons b t ih =>
    simp only [keysRise, Bool.and_eq_true, decide_eq_true_eq, List.mem_cons, forall_eq_or_imp]
    constructor
    · rintro ⟨hab, hb⟩
      exact ⟨⟨hab, fun c hc => lt_trans hab ((ih.mp hb).1 c hc)⟩, hb⟩
    · rintro ⟨⟨hab, _⟩, hb⟩
      exact ⟨hab, hb⟩

theorem mem_place {α : Type} {t : List (Nat × α)} {k : Nat} {v : α} {b : Nat × α} (h : b ∈ place t k v) :
    b = (k, v) ∨ b ∈ t := by
  induction t with
  | nil => simp [place] at h; exact .inl h
  | cons a t ih =>
    simp only [place] at h
    split at h
    · simp only [List.mem_cons] at h ⊢; tauto
    · split at h
      · simp only [List.mem_cons] at h ⊢; tauto
      · simp only [List.mem_cons] at h ⊢
        rcases h with h | h
        · tauto
        · rcases ih h with h | h <;> tauto

theorem mem_strike {α : Type} {t : List (Nat × α)} {k : Nat} {b : Nat × α} (h : b ∈ strike t k) : b ∈ t := by
  induction t with
  | nil => exact h
  | cons a t ih =>
    simp only [strike] at h
    split at h
    · exact List.mem_cons_of_mem _ h
    · simp only [List.mem_cons] at h ⊢
      rcases h with h | h
      · exact .inl h
      · exact .inr (ih h)

theorem keysRise_place {α : Type} {t : List (Nat × α)} (k : Nat) (v : α) (h : keysRise t = true) :
    keysRise (place t k v) = true := by
  induction t with
  | nil => rfl
  | cons a t ih =>
    have ht := keysRise_cons.mp h
    simp only [place]
    split
    · rename_i hk
      refine keysRise_cons.mpr ⟨?_, h⟩
      intro b hb
      simp only [List.mem_cons] at hb
      rcases hb with rfl | hb
      · exact hk
      · exact lt_trans hk (ht.1 b hb)
    · split
      · rename_i hk
        exact keysRise_cons.mpr ⟨fun b hb => hk ▸ ht.1 b hb, ht.2⟩
      · refine keysRise_cons.mpr ⟨?_, ih ht.2⟩
        intro b hb
        rcases mem_place hb with rfl | hb
        · change a.1 < k; omega
        · exact ht.1 b hb

theorem keysRise_strike {α : Type} {t : List (Nat × α)} (k : Nat) (h : keysRise t = true) :
    keysRise (strike t k) = true := by
  induction t with
  | nil => rfl
  | cons a t ih =>
    have ht := keysRise_cons.mp h
    simp only [strike]
    split
    · exact ht.2
    · exact keysRise_cons.mpr ⟨fun b hb => ht.1 b (mem_strike hb), ih ht.2⟩

theorem keysRise_filter {α : Type} {t : List (Nat × α)} (p : Nat × α → Bool) (h : keysRise t = true) :
    keysRise (t.filter p) = true := by
  induction t with
  | nil => rfl
  | cons a t ih =>
    have ht := keysRise_cons.mp h
    simp only [List.filter_cons]
    split
    · exact keysRise_cons.mpr ⟨fun b hb => ht.1 b (List.mem_of_mem_filter hb), ih ht.2⟩
    · exact ih ht.2

/-- The entry listed at `k`. -/
def find {α : Type} (t : Tab α) (k : Nat) : Option α := look t.entries k

/-- The table with `v` listed at `k`. -/
def insert {α : Type} (t : Tab α) (k : Nat) (v : α) : Tab α :=
  ⟨place t.entries k v, keysRise_place k v t.rising⟩

/-- The table with nothing listed at `k`. -/
def erase {α : Type} (t : Tab α) (k : Nat) : Tab α := ⟨strike t.entries k, keysRise_strike k t.rising⟩

/-- The table with the entries that `p` keeps. -/
def keep {α : Type} (t : Tab α) (p : Nat → Bool) : Tab α :=
  ⟨t.entries.filter (fun e => p e.1), keysRise_filter _ t.rising⟩

/-- The table with the entries that `p` keeps, by number and content. -/
def keepWhere {α : Type} (t : Tab α) (p : Nat × α → Bool) : Tab α := ⟨t.entries.filter p, keysRise_filter _ t.rising⟩

/-- What `k` reads as, where an unlisted number reads as `d`. -/
def get {α : Type} (t : Tab α) (k : Nat) (d : α) : α := (t.find k).getD d

/-- `v` written at `k` in the canonical form: nothing is listed that equals what an unlisted number reads as. -/
def put {α : Type} [DecidableEq α] (t : Tab α) (k : Nat) (v d : α) : Tab α :=
  if v = d then t.erase k else t.insert k v

end Tab
end Sys2Proof
end

