-- ==== Sys2Proof/Syntax.lean ====
section
/-! DEFINITION. The commands of the block: `Instr`, one constructor per row of spec/opcode_table.json in the table's
order, and the types of their operands. -/

namespace Sys2Proof

/-- An instruction-executing core: 0 to 3 the scalar cores, 4 the lifeline core (R601). -/
abbrev Core := Fin 5

/-- A five-bit register field: a general or a floating register (R309, R316). -/
abbrev Reg := Fin 32

/-- A mask register M0 to M7 (R297). -/
abbrev MReg := Fin 8

/-- The fields of a stream or short-vector instruction that its mnemonic leaves open (R266). -/
structure StreamFields where
  dst : BitVec 5
  sa : BitVec 5
  sb : BitVec 5
  sc : BitVec 5
  ch : Bool
  ot : BitVec 4
  msk : BitVec 2
  sat : Bool
  mreg : BitVec 5
deriving DecidableEq, Repr

/-- An event of a PCI Express port: the port, and the level of its PE_PERST_N after it (R632). -/
structure PortEvent where
  port : Fin 2
  perstN : Bool := true
deriving DecidableEq, Repr

/-- An exception as entry writes it into a frame: the cause of R420, the frame fields FADDR and DETAIL, the reason. -/
structure Exc where
  cause : BitVec 8
  faddr : Addr := 0
  detail : BitVec 32 := 0
  reason : BitVec 8 := 0
deriving DecidableEq, Repr

/-- What an exception entry that no instruction of the table brings about is for: an exception, or a fetched word that spells no instruction
(R317). -/
inductive Raised where
  | exc (e : Exc)
  | word (w : W48)
deriving DecidableEq, Repr

/-- An upset of a first-level cache line, which no command of the table brings about and an LDQ may meet (R149): one of its 576 data
bits is inverted in the instruction cache (`fetch`) or the data cache of the core. -/
structure LineUpset where
  fetch : Bool
  set : Fin 256
  way : Fin 4
  bit : Fin 576
deriving DecidableEq, Repr

/-- Who writes a control register: the running context of a scalar core, the lifeline core, a host function through
BAR0, the Aftar probe, or boot firmware (R16, R522, R598). -/
inductive Writer where
  | scalar (c : Fin 4)
  | lifeline
  | host (f : Fin 4)
  | aftar
  | boot
deriving DecidableEq, Repr

/-- A crossbar master (Blocks table and R31 of 01): a pump, a core, host DMA for a function, the sample-port DMA for a
ring, Aftar, the scrubber. -/
inductive Master where
  | pump (i : Fin 16)
  | core (c : Core)
  | hostDma (f : Fin 4)
  | smpDma (d : Fin 32)
  | aftar
  | scrubber
deriving DecidableEq, Repr

/-- The place of a host read (R519): an offset in the host window, in the registers, or in the MSI-X table with its pending bits. -/
inductive HostPlace where
  | window (off : Nat)
  | registers (off : Nat)
  | msix (off : Nat)
deriving DecidableEq, Repr

/-- A capability that no function has (R518). -/
inductive AbsentCapability where
  | intx
  | msi
  | pme
  | l0s
  | sriov
  | ats
  | pri
  | pasid
deriving DecidableEq, Repr

/-- An item of a function's configuration space (R518, R519, R520, R528). -/
inductive ConfigItem where
  | vendorId
  | deviceId
  | revisionId
  | classCode
  | subsystemVendorId
  | subsystemId
  | maxPayload
  | msixVectors
  | msixEnable
  | functionMask
  | memorySpace
  | powerState
  | aspmL1
  | resetCapable
  | errorStatus
  | errorNonFatal
  | bar (n : Fin 6)
  | absent (c : AbsentCapability)
deriving DecidableEq, Repr

/-- A client of the object dictionary (R536, R537): a client node-ID on CAN, with the bus of its request, CANB when true, or the mailbox of a
function, of which R537 asks whether safety-world supervisor code drives it. -/
inductive Client where
  | node (n : BitVec 7) (bus : Bool)
  | mailbox (f : Fin 4) (safetySup : Bool)
deriving DecidableEq, Repr

/-- A resource of chapter 13 whose OWNER a register holds (R477). -/
inductive Owned where
  | line (n : Fin 256)
  | timer (n : Fin 16)
  | rxLane (n : Fin 16)
  | txLane (n : Fin 16)
deriving DecidableEq, Repr

/-- An NMT command of CiA 1301 that changes the NMT state without a reset (R536). -/
inductive NmtCommand where
  | start
  | stop
  | preOperational
deriving DecidableEq, Repr

/-- The commands. A scalar or lifeline instruction names its core first, then the fields of its encoding. -/
inductive Instr where
  /-- ADD (R318): Scalar integer add of Ga and Gb into Gd, wrapping modulo 2^48. -/
  | add (c : Core) (d a b : Reg)
  /-- SUB (R318): Scalar integer subtract of Gb from Ga into Gd. -/
  | sub (c : Core) (d a b : Reg)
  /-- AND (R318): Bitwise AND of Ga and Gb into Gd. -/
  | and (c : Core) (d a b : Reg)
  /-- OR (R318): Bitwise OR of Ga and Gb into Gd. -/
  | or (c : Core) (d a b : Reg)
  /-- XOR (R318): Bitwise XOR of Ga and Gb into Gd. -/
  | xor (c : Core) (d a b : Reg)
  /-- ANDN (R318): Ga AND NOT Gb into Gd. -/
  | andn (c : Core) (d a b : Reg)
  /-- SHL (R319): Shift Ga left by Gb, giving 0 for counts of 48 or more. -/
  | shl (c : Core) (d a b : Reg)
  /-- SHR (R319): Shift Ga right by Gb with zero fill. -/
  | shr (c : Core) (d a b : Reg)
  /-- SAR (R319): Shift Ga right by Gb with sign fill. -/
  | sar (c : Core) (d a b : Reg)
  /-- MIN (R318): Signed minimum of Ga and Gb into Gd. -/
  | min (c : Core) (d a b : Reg)
  /-- MINU (R318): Unsigned minimum of Ga and Gb into Gd. -/
  | minu (c : Core) (d a b : Reg)
  /-- MAX (R318): Signed maximum of Ga and Gb into Gd. -/
  | max (c : Core) (d a b : Reg)
  /-- MAXU (R318): Unsigned maximum of Ga and Gb into Gd. -/
  | maxu (c : Core) (d a b : Reg)
  /-- SEL (R318): Gd takes Gb if Ga is non-zero, else Gc. -/
  | sel (c : Core) (d a b e : Reg)
  /-- CLZ (R318): Gd takes the count of leading zero bits of Ga. -/
  | clz (c : Core) (d a : Reg)
  /-- POPC (R318): Gd takes the count of set bits of Ga. -/
  | popc (c : Core) (d a : Reg)
  /-- CMPEQ (R318): Gd is 1 if Ga equals Gb, else 0. -/
  | cmpeq (c : Core) (d a b : Reg)
  /-- CMPNE (R318): Gd is 1 if Ga differs from Gb, else 0. -/
  | cmpne (c : Core) (d a b : Reg)
  /-- CMPLT (R318): Gd is 1 if Ga is less than Gb, signed. -/
  | cmplt (c : Core) (d a b : Reg)
  /-- CMPLTU (R318): Gd is 1 if Ga is less than Gb, unsigned. -/
  | cmpltu (c : Core) (d a b : Reg)
  /-- CMPLE (R318): Gd is 1 if Ga is at most Gb, signed. -/
  | cmple (c : Core) (d a b : Reg)
  /-- CMPLEU (R318): Gd is 1 if Ga is at most Gb, unsigned. -/
  | cmpleu (c : Core) (d a b : Reg)
  /-- ADDC (R320): Add with carry-in Gc[0], modulo 2^48. -/
  | addc (c : Core) (d a b e : Reg)
  /-- ADDCO (R320): Carry-out of Ga + Gb + Gc[0] into Gd. -/
  | addco (c : Core) (d a b e : Reg)
  /-- SUBB (R320): Subtract with borrow-in Gc[0], modulo 2^48. -/
  | subb (c : Core) (d a b e : Reg)
  /-- SUBBO (R320): Borrow-out of Ga − Gb − Gc[0] into Gd. -/
  | subbo (c : Core) (d a b e : Reg)
  /-- MUL (R320): Low 48 bits of Ga × Gb into Gd. -/
  | mul (c : Core) (d a b : Reg)
  /-- MULW (R320): 96-bit signed product into the pair Gd. -/
  | mulw (c : Core) (d a b : Reg)
  /-- MULWU (R320): 96-bit unsigned product into the pair Gd. -/
  | mulwu (c : Core) (d a b : Reg)
  /-- DIV (R320): Signed quotient of Ga / Gb, with the special cases of R280 and DZ on zero divisor. -/
  | div (c : Core) (d a b : Reg)
  /-- DIVU (R320): Unsigned quotient of Ga / Gb. -/
  | divu (c : Core) (d a b : Reg)
  /-- REM (R320): Signed remainder of Ga / Gb. -/
  | rem (c : Core) (d a b : Reg)
  /-- REMU (R320): Unsigned remainder of Ga / Gb. -/
  | remu (c : Core) (d a b : Reg)
  /-- ADDI (R321): Gd takes Ga plus IMM20. -/
  | addi (c : Core) (d a : Reg) (imm : BitVec 20)
  /-- ANDI (R321): Gd takes Ga AND sign-extended IMM20. -/
  | andi (c : Core) (d a : Reg) (imm : BitVec 20)
  /-- ORI (R321): Gd takes Ga OR sign-extended IMM20; also the canonical no-operation. -/
  | ori (c : Core) (d a : Reg) (imm : BitVec 20)
  /-- XORI (R321): Gd takes Ga XOR sign-extended IMM20. -/
  | xori (c : Core) (d a : Reg) (imm : BitVec 20)
  /-- SHLI (R321): Shift Ga left by IMM20[5:0]. -/
  | shli (c : Core) (d a : Reg) (imm : BitVec 20)
  /-- SHRI (R321): Shift Ga right by IMM20[5:0], zero fill. -/
  | shri (c : Core) (d a : Reg) (imm : BitVec 20)
  /-- SARI (R321): Shift Ga right by IMM20[5:0], sign fill. -/
  | sari (c : Core) (d a : Reg) (imm : BitVec 20)
  /-- CMPEQI (R321): Gd is 1 if Ga equals IMM20. -/
  | cmpeqi (c : Core) (d a : Reg) (imm : BitVec 20)
  /-- CMPLTI (R321): Gd is 1 if Ga is less than IMM20, signed. -/
  | cmplti (c : Core) (d a : Reg) (imm : BitVec 20)
  /-- CMPLTUI (R321): Gd is 1 if Ga is less than sign-extended IMM20, unsigned. -/
  | cmpltui (c : Core) (d a : Reg) (imm : BitVec 20)
  /-- LI (R321): Gd takes sign-extended IMM30. -/
  | li (c : Core) (d : Reg) (imm : BitVec 30)
  /-- LIH (R321): Gd[47:30] takes IMM30[17:0], keeping Gd[29:0]. -/
  | lih (c : Core) (d : Reg) (imm : BitVec 30)
  /-- LDP (R323): Load one ply, zero-extended, into Gd. -/
  | ldp (c : Core) (d a : Reg) (imm : BitVec 20)
  /-- LDPS (R323): Load one ply, sign-extended, into Gd. -/
  | ldps (c : Core) (d a : Reg) (imm : BitVec 20)
  /-- LDD (R323): Load two plies, zero-extended, at an even offset. -/
  | ldd (c : Core) (d a : Reg) (imm : BitVec 20)
  /-- LDDS (R323): Load two plies, sign-extended, at an even offset. -/
  | ldds (c : Core) (d a : Reg) (imm : BitVec 20)
  /-- LDQ (R323): Load four plies into Gd at an even offset. -/
  | ldq (c : Core) (d a : Reg) (imm : BitVec 20) (upset : Option LineUpset)
  /-- LDWP (R323): Load a whole word into a register pair, word-aligned. -/
  | ldwp (c : Core) (d a : Reg) (imm : BitVec 20)
  /-- LDF24 (R323): Load an F24 value into Fd, NaN-boxed. -/
  | ldf24 (c : Core) (d a : Reg) (imm : BitVec 20)
  /-- LDF48 (R323): Load an F48 value into Fd. -/
  | ldf48 (c : Core) (d a : Reg) (imm : BitVec 20)
  /-- STP (R323): Store Gb[11:0] to one ply. -/
  | stp (c : Core) (a b : Reg) (imm : BitVec 20)
  /-- STD (R323): Store Gb[23:0] to two plies at an even offset. -/
  | std (c : Core) (a b : Reg) (imm : BitVec 20)
  /-- STQ (R323): Store Gb to four plies at an even offset. -/
  | stq (c : Core) (a b : Reg) (imm : BitVec 20)
  /-- STWP (R323): Store a register pair as a whole word, word-aligned. -/
  | stwp (c : Core) (a b : Reg) (imm : BitVec 20)
  /-- STF24 (R323): Store Fb[23:0] to two plies. -/
  | stf24 (c : Core) (a b : Reg) (imm : BitVec 20)
  /-- STF48 (R323): Store Fb to four plies. -/
  | stf48 (c : Core) (a b : Reg) (imm : BitVec 20)
  /-- LDL (R335): Load four plies and set the core's reservation on the word. -/
  | ldl (c : Core) (d a : Reg) (imm : BitVec 20)
  /-- STC (R335): Store only if the reservation is set, write success to Gd and clear the reservation. -/
  | stc (c : Core) (d a b : Reg) (imm : BitVec 20)
  /-- PUSH (R324): Decrease DSP by 4 and store Ga there. -/
  | push (c : Core) (a : Reg)
  /-- POP (R324): Load Gd from DSP and increase DSP by 4. -/
  | pop (c : Core) (d : Reg)
  /-- GETSP (R324): Read the selected stack pointer into Gd. -/
  | getsp (c : Core) (d : Reg) (p : BitVec 2)
  /-- SETSP (R324): Write the selected stack pointer from Ga, with SSP restricted to safety supervisor. -/
  | setsp (c : Core) (a : Reg) (p : BitVec 2)
  /-- BZ (R326): Branch if Ga is zero. -/
  | bz (c : Core) (a : Reg) (imm : BitVec 30)
  /-- BNZ (R326): Branch if Ga is non-zero. -/
  | bnz (c : Core) (a : Reg) (imm : BitVec 30)
  /-- JMP (R326): Unconditional PC-relative branch. -/
  | jmp (c : Core) (imm : BitVec 30)
  /-- JR (R326): Branch to the address in Ga. -/
  | jr (c : Core) (a : Reg)
  /-- CALL (R325): Write the return word to the return and shadow stacks and branch to a PC-relative target. -/
  | call (c : Core) (imm : BitVec 30)
  /-- CALLR (R325): Call the address in Ga, writing both return stacks. -/
  | callr (c : Core) (a : Reg)
  /-- RET (R325): Compare return and shadow stack words and return, or raise CONTROL_FLOW. -/
  | ret (c : Core)
  /-- LOOP (R391): Open a hardware loop level on the lifeline core with count from Ga. -/
  | loop (c : Core) (a : Reg) (k : BitVec 7)
  /-- ENDLOOP (R390): Discard the innermost open loop level. -/
  | endloop (c : Core)
  /-- LCRD (R390): Read the remaining count of a loop level into Gd. -/
  | lcrd (c : Core) (d : Reg) (j : BitVec 2)
  /-- FADD (R329): Floating add on F registers, F24 or F48. -/
  | fadd (c : Core) (d a b : Reg) (p : Bool) (rms : BitVec 3)
  /-- FSUB (R329): Floating subtract on F registers. -/
  | fsub (c : Core) (d a b : Reg) (p : Bool) (rms : BitVec 3)
  /-- FMUL (R329): Floating multiply on F registers. -/
  | fmul (c : Core) (d a b : Reg) (p : Bool) (rms : BitVec 3)
  /-- FDIV (R329): Floating divide on F registers, correctly rounded. -/
  | fdiv (c : Core) (d a b : Reg) (p : Bool) (rms : BitVec 3)
  /-- FSQRT (R329): Floating square root on F registers. -/
  | fsqrt (c : Core) (d a : Reg) (p : Bool) (rms : BitVec 3)
  /-- FMIN (R292): Floating minimum of Fa and Fb. -/
  | fmin (c : Core) (d a b : Reg) (p : Bool) (rms : BitVec 3)
  /-- FMAX (R292): Floating maximum of Fa and Fb. -/
  | fmax (c : Core) (d a b : Reg) (p : Bool) (rms : BitVec 3)
  /-- FNEG (R291): Invert the sign of Fa, raising no flag. -/
  | fneg (c : Core) (d a : Reg) (p : Bool) (rms : BitVec 3)
  /-- FABS (R291): Clear the sign of Fa, raising no flag. -/
  | fabs (c : Core) (d a : Reg) (p : Bool) (rms : BitVec 3)
  /-- FMV (R327): Move Fa to Fd. -/
  | fmv (c : Core) (d a : Reg) (p : Bool) (rms : BitVec 3)
  /-- FMA (R329): Fused Fa × Fb + Fc. -/
  | fma (c : Core) (d a b e : Reg) (p : Bool) (rms : BitVec 3)
  /-- FMS (R329): Fused Fa × Fb − Fc. -/
  | fms (c : Core) (d a b e : Reg) (p : Bool) (rms : BitVec 3)
  /-- FNMA (R329): Fused Fc − Fa × Fb. -/
  | fnma (c : Core) (d a b e : Reg) (p : Bool) (rms : BitVec 3)
  /-- FNMS (R329): Fused −(Fa × Fb) − Fc. -/
  | fnms (c : Core) (d a b e : Reg) (p : Bool) (rms : BitVec 3)
  /-- FCMP (R293): Floating compare of Fa and Fb under a predicate into Gd. -/
  | fcmp (c : Core) (d a b : Reg) (pred : BitVec 3) (p : Bool) (rms : BitVec 3)
  /-- GTOF (R328): Copy Ga bits into Fd unboxed. -/
  | gtof (c : Core) (d a : Reg) (p : Bool) (rms : BitVec 3)
  /-- FTOG (R328): Copy Fa bits into Gd. -/
  | ftog (c : Core) (d a : Reg) (p : Bool) (rms : BitVec 3)
  /-- CVTIF (R328): Convert a 48-bit integer in Ga to F24 or F48. -/
  | cvtif (c : Core) (d a : Reg) (p : Bool) (rms : BitVec 3) (u : Bool)
  /-- CVTFI (R285): Convert Fa to a 48-bit integer with clamping and NV. -/
  | cvtfi (c : Core) (d a : Reg) (p : Bool) (rms : BitVec 3) (u : Bool)
  /-- CVTFF (R328): Convert between F24 and F48. -/
  | cvtff (c : Core) (d a : Reg) (p : Bool) (rms : BitVec 3)
  /-- CVTFH (R328): Convert Fa to binary32 or binary64 in G registers. -/
  | cvtfh (c : Core) (d a : Reg) (p : Bool) (rms : BitVec 3) (h : Bool)
  /-- CVTHF (R328): Convert binary32 or binary64 in G registers to F24 or F48. -/
  | cvthf (c : Core) (d a : Reg) (p : Bool) (rms : BitVec 3) (h : Bool)
  /-- DADD (R331): Packed-decimal add with full operand check. -/
  | dadd (c : Core) (d a b : Reg)
  /-- DSUB (R331): Packed-decimal subtract with full operand check. -/
  | dsub (c : Core) (d a b : Reg)
  /-- DTOB (R330): Convert K48 to a signed 48-bit integer. -/
  | dtob (c : Core) (d a : Reg)
  /-- BTOD (R330): Convert a signed 48-bit integer to K48, with overflow check. -/
  | btod (c : Core) (d a : Reg)
  /-- MOVR (R332): Block-repeat copy of Gc elements, interruptible after each element. -/
  | movr (c : Core) (a b e : Reg) (sz : BitVec 2) (down : Bool) (stop : Option Nat)
  /-- FILLR (R332): Block-repeat fill of Gc elements with Gb. -/
  | fillr (c : Core) (a b e : Reg) (sz : BitVec 2) (down : Bool) (stop : Option Nat)
  /-- CMPR (R332): Block-repeat compare of two element ranges. -/
  | cmpr (c : Core) (d a b e : Reg) (sz : BitVec 2) (down : Bool) (stop : Option Nat)
  /-- SCANR (R332): Block-repeat scan for an element equal or not equal to Gb. -/
  | scanr (c : Core) (d a b e : Reg) (sz : BitVec 2) (down ne : Bool) (stop : Option Nat)
  /-- FENCE (R356): Wait until every earlier store is visible and every earlier load has its value. -/
  | fence (c : Core)
  /-- ISYNC (R338): Discard fetched instructions and restart fetch. -/
  | isync (c : Core)
  /-- GETSTW (R338): Read STW into Gd. -/
  | getstw (c : Core) (d : Reg)
  /-- SETFPS (R313): Write FLAGS, SATS, RM, FTZ and DAZ from Ga. -/
  | setfps (c : Core) (a : Reg)
  /-- SETMODE (R314): Write LVL and IE from Ga at supervisor level, holding interrupts for two instructions. -/
  | setmode (c : Core) (a : Reg)
  /-- SVC (R420): System call raising the SVC exception at supervisor level of the same world. -/
  | svc (c : Core) (imm : BitVec 12)
  /-- XCALL (R433): Call a registered gate of the other world of the same partition. -/
  | xcall (c : Core) (a : Reg)
  /-- XRET (R435): Return from XCALL from the save state. -/
  | xret (c : Core)
  /-- ERET (R426): Return from an exception frame, reloading the lazy area when LZ is 1. -/
  | eret (c : Core)
  /-- WAIT (R444): Yield the bank until the subscribed event line fires, or wait for an interrupt on the lifeline core. -/
  | wait (c : Core)
  /-- MFBW (R448): Read a register of the bank selected by BANKWIN. -/
  | mfbw (c : Core) (d a : Reg)
  /-- MTBW (R449): Write a register of the bank selected by BANKWIN. -/
  | mtbw (c : Core) (a b : Reg)
  /-- BRK (R602): Debug break: halt when claimed by the probe, else raise BREAK. -/
  | brk (c : Core)
  /-- EXTENSION_INSTRUCTION (R339): Stream instruction of opcode 0xE0 to 0xEF run from customer microcode. -/
  | extensionInstruction (c : Core) (op : BitVec 4) (fn : BitVec 7) (f : StreamFields)
  /-- VADD (R276): Stream add, joining or closing a splice by its chain bit. -/
  | vadd (c : Core) (f : StreamFields)
  /-- VSUB (R276): Stream subtract. -/
  | vsub (c : Core) (f : StreamFields)
  /-- VMIN (R276): Stream minimum. -/
  | vmin (c : Core) (f : StreamFields)
  /-- VMAX (R276): Stream maximum. -/
  | vmax (c : Core) (f : StreamFields)
  /-- VABS (R276): Stream absolute value. -/
  | vabs (c : Core) (f : StreamFields)
  /-- VNEG (R276): Stream negation. -/
  | vneg (c : Core) (f : StreamFields)
  /-- VAND (R276): Stream bitwise AND. -/
  | vand (c : Core) (f : StreamFields)
  /-- VOR (R276): Stream bitwise OR. -/
  | vor (c : Core) (f : StreamFields)
  /-- VXOR (R276): Stream bitwise XOR. -/
  | vxor (c : Core) (f : StreamFields)
  /-- VANDN (R276): Stream A AND NOT B. -/
  | vandn (c : Core) (f : StreamFields)
  /-- VSHL (R294): Stream shift left. -/
  | vshl (c : Core) (f : StreamFields)
  /-- VSHR (R294): Stream shift right, zero fill. -/
  | vshr (c : Core) (f : StreamFields)
  /-- VSAR (R294): Stream shift right, sign fill. -/
  | vsar (c : Core) (f : StreamFields)
  /-- VCMP (R276): Stream compare under a predicate giving a B1 result. -/
  | vcmp (c : Core) (pred : BitVec 3) (f : StreamFields)
  /-- VSEL (R276): Stream select between A and B by a B1 selector. -/
  | vsel (c : Core) (f : StreamFields)
  /-- VMUL (R277): Stream multiply. -/
  | vmul (c : Core) (f : StreamFields)
  /-- VMULH (R277): Stream upper half of the exact product. -/
  | vmulh (c : Core) (f : StreamFields)
  /-- VMULW (R277): Stream widening exact product. -/
  | vmulw (c : Core) (f : StreamFields)
  /-- VFMA (R278): Stream fused A × B + C. -/
  | vfma (c : Core) (f : StreamFields)
  /-- VFMS (R278): Stream fused A × B − C. -/
  | vfms (c : Core) (f : StreamFields)
  /-- VFNMA (R278): Stream fused C − A × B. -/
  | vfnma (c : Core) (f : StreamFields)
  /-- VFNMS (R278): Stream fused −(A × B) − C. -/
  | vfnms (c : Core) (f : StreamFields)
  /-- VDIV (R279): Stream divide. -/
  | vdiv (c : Core) (f : StreamFields)
  /-- VREM (R279): Stream integer remainder. -/
  | vrem (c : Core) (f : StreamFields)
  /-- VSQRT (R279): Stream square root. -/
  | vsqrt (c : Core) (f : StreamFields)
  /-- VRSUM (R282): Stream reduction sum in the fixed order of R249. -/
  | vrsum (c : Core) (aw : BitVec 3) (f : StreamFields)
  /-- VRMIN (R282): Stream reduction minimum. -/
  | vrmin (c : Core) (aw : BitVec 3) (f : StreamFields)
  /-- VRMAX (R282): Stream reduction maximum. -/
  | vrmax (c : Core) (aw : BitVec 3) (f : StreamFields)
  /-- VDOT (R282): Stream dot product with fused accumulation steps. -/
  | vdot (c : Core) (aw : BitVec 3) (f : StreamFields)
  /-- VRCNT (R281): Stream count of set mask bits into unsigned Q48. -/
  | vrcnt (c : Core) (aw : BitVec 3) (f : StreamFields)
  /-- VCVT (R284): Stream conversion rounded under the captured mode. -/
  | vcvt (c : Core) (tt : BitVec 4) (f : StreamFields)
  /-- VCVTZ (R284): Stream conversion rounded toward zero. -/
  | vcvtz (c : Core) (tt : BitVec 4) (f : StreamFields)
  /-- VMOV (R283): Stream move. -/
  | vmov (c : Core) (tt : BitVec 4) (f : StreamFields)
  /-- VCMPR (R286): Stream compress of selected elements. -/
  | vcmpr (c : Core) (tt : BitVec 4) (f : StreamFields)
  /-- VEXPZ (R286): Stream expand with unselected elements zero. -/
  | vexpz (c : Core) (tt : BitVec 4) (f : StreamFields)
  /-- VEXPM (R286): Stream expand with unselected elements not written. -/
  | vexpm (c : Core) (tt : BitVec 4) (f : StreamFields)
  /-- VPERM (R286): Stream permute within 64-element groups. -/
  | vperm (c : Core) (tt : BitVec 4) (f : StreamFields)
  /-- VGATH (R288): Stream gather from a target descriptor by index. -/
  | vgath (c : Core) (f : StreamFields)
  /-- VSCAT (R288): Stream scatter to a target descriptor by index. -/
  | vscat (c : Core) (f : StreamFields)
  /-- SADD (R298): Short-vector add on S registers. -/
  | sadd (c : Core) (f : StreamFields)
  /-- SSUB (R298): Short-vector subtract. -/
  | ssub (c : Core) (f : StreamFields)
  /-- SMIN (R298): Short-vector minimum. -/
  | smin (c : Core) (f : StreamFields)
  /-- SMAX (R298): Short-vector maximum. -/
  | smax (c : Core) (f : StreamFields)
  /-- SABS (R298): Short-vector absolute value. -/
  | sabs (c : Core) (f : StreamFields)
  /-- SNEG (R298): Short-vector negation. -/
  | sneg (c : Core) (f : StreamFields)
  /-- SAND (R298): Short-vector bitwise AND. -/
  | sand (c : Core) (f : StreamFields)
  /-- SOR (R298): Short-vector bitwise OR. -/
  | sor (c : Core) (f : StreamFields)
  /-- SXOR (R298): Short-vector bitwise XOR. -/
  | sxor (c : Core) (f : StreamFields)
  /-- SANDN (R298): Short-vector AND NOT. -/
  | sandn (c : Core) (f : StreamFields)
  /-- SSHL (R298): Short-vector shift left. -/
  | sshl (c : Core) (f : StreamFields)
  /-- SSHR (R298): Short-vector shift right, zero fill. -/
  | sshr (c : Core) (f : StreamFields)
  /-- SSAR (R298): Short-vector shift right, sign fill. -/
  | ssar (c : Core) (f : StreamFields)
  /-- SCMP (R299): Short-vector compare into an M register. -/
  | scmp (c : Core) (pred : BitVec 3) (f : StreamFields)
  /-- SSEL (R299): Short-vector select by an M register. -/
  | ssel (c : Core) (f : StreamFields)
  /-- SMUL (R298): Short-vector multiply. -/
  | smul (c : Core) (f : StreamFields)
  /-- SMULH (R298): Short-vector upper half of the product. -/
  | smulh (c : Core) (f : StreamFields)
  /-- SMULWL (R299): Short-vector widening product of the low lanes. -/
  | smulwl (c : Core) (f : StreamFields)
  /-- SMULWH (R299): Short-vector widening product of the high lanes. -/
  | smulwh (c : Core) (f : StreamFields)
  /-- SFMA (R298): Short-vector fused A × B + C. -/
  | sfma (c : Core) (f : StreamFields)
  /-- SFMS (R298): Short-vector fused A × B − C. -/
  | sfms (c : Core) (f : StreamFields)
  /-- SFNMA (R298): Short-vector fused C − A × B. -/
  | sfnma (c : Core) (f : StreamFields)
  /-- SFNMS (R298): Short-vector fused −(A × B) − C. -/
  | sfnms (c : Core) (f : StreamFields)
  /-- SDIV (R299): Short-vector divide over all lanes. -/
  | sdiv (c : Core) (f : StreamFields)
  /-- SREM (R299): Short-vector integer remainder. -/
  | srem (c : Core) (f : StreamFields)
  /-- SSQRT (R299): Short-vector square root. -/
  | ssqrt (c : Core) (f : StreamFields)
  /-- SRSUM (R299): Short-vector reduction sum into lane 0. -/
  | srsum (c : Core) (aw : BitVec 3) (f : StreamFields)
  /-- SRMIN (R299): Short-vector reduction minimum into lane 0. -/
  | srmin (c : Core) (aw : BitVec 3) (f : StreamFields)
  /-- SRMAX (R299): Short-vector reduction maximum into lane 0. -/
  | srmax (c : Core) (aw : BitVec 3) (f : StreamFields)
  /-- SDOT (R300): Short-vector dot product accumulating r lanes per destination lane. -/
  | sdot (c : Core) (aw : BitVec 3) (f : StreamFields)
  /-- SCVT (R298): Short-vector conversion under the mode. -/
  | scvt (c : Core) (tt : BitVec 4) (f : StreamFields)
  /-- SCVTZ (R298): Short-vector conversion toward zero. -/
  | scvtz (c : Core) (tt : BitVec 4) (f : StreamFields)
  /-- SMOV (R298): Short-vector move. -/
  | smov (c : Core) (tt : BitVec 4) (f : StreamFields)
  /-- SCMPR (R299): Short-vector compress by an M selector. -/
  | scmpr (c : Core) (tt : BitVec 4) (f : StreamFields)
  /-- SEXPZ (R299): Short-vector expand with zeros. -/
  | sexpz (c : Core) (tt : BitVec 4) (f : StreamFields)
  /-- SEXPM (R299): Short-vector expand keeping unselected lanes. -/
  | sexpm (c : Core) (tt : BitVec 4) (f : StreamFields)
  /-- SPERM (R299): Short-vector permute of lanes. -/
  | sperm (c : Core) (tt : BitVec 4) (f : StreamFields)
  /-- SLD (R301): Load 16 plies into an S register. -/
  | sld (c : Core) (f : StreamFields)
  /-- SST (R301): Store 16 plies from an S register, masked lanes only in merge mode. -/
  | sst (c : Core) (f : StreamFields)
  /-- MAND (R302): Mask register AND. -/
  | mand (c : Core) (d a b : MReg)
  /-- MOR (R302): Mask register OR. -/
  | mor (c : Core) (d a b : MReg)
  /-- MXOR (R302): Mask register XOR. -/
  | mxor (c : Core) (d a b : MReg)
  /-- MANDN (R302): Mask register AND NOT. -/
  | mandn (c : Core) (d a b : MReg)
  /-- MNOT (R302): Mask register NOT. -/
  | mnot (c : Core) (d a : MReg)
  /-- MPOP (R302): Count set bits of a mask register into Gd. -/
  | mpop (c : Core) (d : Reg) (a : MReg)
  /-- MTOG (R302): Copy a mask register into Gd. -/
  | mtog (c : Core) (d : Reg) (a : MReg)
  /-- MFROMG (R302): Load a mask register from Ga[15:0]. -/
  | mfromg (c : Core) (d : MReg) (a : Reg)
  /-- MTAIL (R302): Set the low min(Ga, 16) bits of a mask register. -/
  | mtail (c : Core) (d : MReg) (a : Reg)
  /-- VDLD (R305): Load a vector descriptor from two words. -/
  | vdld (c : Core) (v : BitVec 5) (a : Reg) (imm : BitVec 20)
  /-- VDST (R305): Store a vector descriptor to two words. -/
  | vdst (c : Core) (v : BitVec 5) (a : Reg) (imm : BitVec 20)
  /-- VDSET (R306): Write one field of a vector descriptor. -/
  | vdset (c : Core) (v : BitVec 5) (a : Reg) (sel : BitVec 2)
  /-- VDGET (R306): Read one field of a vector descriptor. -/
  | vdget (c : Core) (d : Reg) (v : BitVec 5) (sel : BitVec 2)
  /-- VDADD (R305): Add Ga to the BASE of a vector descriptor. -/
  | vdadd (c : Core) (v : BitVec 5) (a : Reg)
  /-- VFENCE (R244): Wait for every issued splice to be final and return the ORed status and count. -/
  | vfence (c : Core) (d : Reg)
  /-- VFRD (R305): Read half of the vector fault record. -/
  | vfrd (c : Core) (d : Reg) (h : Bool)
  /-- VFRCLR (R305): Clear the vector fault record. -/
  | vfrclr (c : Core)
  /-- EXCEPTION_ENTRY (R424): Write a 16-word frame and enter the handler at supervisor level of the running world. -/
  | exceptionEntry (c : Core) (e : Raised)
  /-- INTERRUPT_ENTRY (R398): Lifeline core takes a pending IRQ, writing the frame, saving loop state and opening belay or checkpoint as set. -/
  | interruptEntry
  /-- BELAY_LIMIT (R400): A lifeline belay window reaches BELAY cycles, sets IE and counts BOCNT. -/
  | belayLimit
  /-- CAPSTAN_BELAY_LIMIT (R437): A scalar belay window reaches LIMIT cycles, sets IE and counts BOCNT. -/
  | capstanBelayLimit (c : Fin 4)
  /-- CAPSTAN_SWITCH (R447): Capstan switches in the highest-priority READY task, filling or spilling banks as needed. -/
  | capstanSwitch (c : Fin 4)
  /-- LOCKSTEP_MISMATCH (R403): A lifeline comparison mismatch stops both cores and starts roll-back. -/
  | lockstepMismatch
  /-- ROLLBACK_COMPLETE (R403): After self-test and restore the lifeline returns to ENABLED at the checkpoint PC. -/
  | rollbackComplete (ok : Bool)
  /-- LL_ENABLE (R407): Accepted write of EN = 1 starts enabling: picks the lifeline pump, hands over cistern 15, arms reservations. -/
  | llEnable (w : Writer) (v : BitVec 24)
  /-- LL_ENABLE_COMPLETE (R407): Self-test, image load and cistern 15 are ready; first checkpoint taken and STATE reads ENABLED. -/
  | llEnableComplete (ok : Bool)
  /-- LL_DISABLE (R408): Accepted write of EN = 0 stops the core, sends safe codes and starts disabling. -/
  | llDisable (w : Writer) (v : BitVec 24)
  /-- LL_DISABLE_COMPLETE (R408): Cistern 15 handed back, local store zeroed, reservations lapsed; STATE reads DISABLED. -/
  | llDisableComplete
  /-- SPLICE_ACCEPT (R227): The dispatcher chooses a waiting or saved splice and an idle pump accepts or resumes it. -/
  | spliceAccept
  /-- SPLICE_COMPLETE (R230): A splice's last writes are accepted and its status becomes final, freeing range registers. -/
  | spliceComplete (i : Fin 16)
  /-- PREEMPT_CHECK (R228): Every 256 pump clocks the dispatcher may preempt one splice for shares. -/
  | preemptCheck
  /-- PREEMPTION_COMPLETE (R246): The preempted splice reaches a group boundary, writes its record and the pump is idle. -/
  | preemptionComplete (i : Fin 16)
  /-- PUMP_FAULT (R254): A pump's group check fails; the group writes nothing and the pump is marked failed. -/
  | pumpFault (i : Fin 16)
  /-- SPL_KILL (R257): Write of an owner code ends all its splices with ABORTED. -/
  | splKill (w : Writer) (v : BitVec 24)
  /-- SPL_KILL_COMPLETE (R257): Killed splices have stopped and been removed; BUSY clears and DONE sets. -/
  | splKillComplete
  /-- MEMORY_READ (R140): A target reads a coded word and decodes it as clean, CE, ACE, poisoned or UE. -/
  | memoryRead (m : Master) (a : BitVec 40)
  /-- MEMORY_WRITE (R55): A target writes a word whole or merges a partial write by read-modify-write. -/
  | memoryWrite (m : Master) (a : BitVec 40) (mask : BitVec 6) (data : BitVec 72)
  /-- TAG_WAIT_RELEASE (R97): A request waiting for a free tag is accepted by its channel. -/
  | tagWaitRelease (n : Fin 128)
  /-- READ_DATA_RETURN (R98): A deep-store read returns its word with its tag to the master. -/
  | readDataReturn (n : Fin 128) (k : Nat) (lat : BitVec 12)
  /-- REFRESH (R84): A deep-store channel spends slots on refresh. -/
  | refresh (n : Fin 128)
  /-- SCRUB_STEP (R155): The scrubber reads one word in an idle slot and corrects or poisons it. -/
  | scrubStep (u : Fin 158)
  /-- LAP_OVERDUE (R161): A lap runs past its limit, setting OVERDUE and logging LAP_OVERDUE. -/
  | lapOverdue (u : Fin 158)
  /-- LOG_INTERVAL_END (R166): A 1 s logging interval ends and the CE log count restarts. -/
  | logIntervalEnd
  /-- LOG_FLUSH (R572): Every 10 s error-log entries and retirements are written to flash. -/
  | logFlush
  /-- CONTROL_STORE_REPAIR (R473): A control-store word found uncorrectable is rewritten from the authenticated copy. -/
  | controlStoreRepair (scalar : Bool) (k : Nat)
  /-- SET_OWNER (R124): Frame-table command that holds the frame's traffic and writes a new owner and rights. -/
  | setOwner (w : Writer) (k : Fin 5)
  /-- SET_RIGHTS (R124): Frame-table command that writes new rights keeping the owner. -/
  | setRights (w : Writer) (k : Fin 5)
  /-- PIN (R122): Frame-table command that sets PINNED. -/
  | pin (w : Writer) (k : Fin 5)
  /-- UNPIN (R122): Frame-table command that clears PINNED. -/
  | unpin (w : Writer) (k : Fin 5)
  /-- RETIRE (R122): Frame-table command that retires an unowned frame or sets retire pending. -/
  | retire (w : Writer) (k : Fin 5)
  /-- READ (R122): Frame-table command that copies an entry into FT_ENTRY0 to FT_ENTRY2. -/
  | read (w : Writer) (k : Fin 5)
  /-- FRAME_MOVE_COMPLETE (R124): Old transactions drained and optional zeroing done; the new entry is written and held transactions are checked. -/
  | frameMoveComplete (k : Fin 5)
  /-- DS_CH_CFG (R105): Write of RES changes a channel's lifeline slot reservation at the next window boundary. -/
  | dsChCfg (w : Writer) (n : Fin 128) (v : BitVec 24)
  /-- RESERVATION_ACTIVE (R105): Every reserved tag of the new setting is free and RES_ACT reads 1. -/
  | reservationActive (n : Fin 128)
  /-- ECC_INJ_CTL (R167): Write arms or disarms one error injection. -/
  | eccInjCtl (w : Writer) (v : BitVec 24)
  /-- CIS_OWNER (R179): Accepted write starts a cistern handover, holding new accesses. -/
  | cisOwner (w : Writer) (n : Fin 16) (v : BitVec 24)
  /-- HANDOVER_COMPLETE (R179): The handover drains and optionally zeroes; OWNER takes the new value and held accesses are checked. -/
  | handoverComplete (n : Fin 16)
  /-- CIS_PWR (R184): Write requests a cistern power state, starting or queuing a transition. -/
  | cisPwr (w : Writer) (n : Fin 16) (v : BitVec 24)
  /-- POWER_TRANSITION_COMPLETE (R182): A cistern power transition completes and any queued request starts. -/
  | powerTransitionComplete (n : Fin 16)
  /-- XB_CFG (R191): Accepted write of REMAP starts the window-zero remap. -/
  | xbCfg (w : Writer) (v : BitVec 24)
  /-- REMAP_COMPLETE (R191): Caches are invalidated, the new mapping is in force and held accesses are served. -/
  | remapComplete
  /-- EVENT_FIRE (R481): An asserted event line fires in the event tick and delivers to its consumers and link. -/
  | eventFire (m : Fin 256)
  /-- GUARD_RELEASE (R483): A line's guard interval ends and its held assertion fires. -/
  | guardRelease (m : Fin 256)
  /-- EVR_PULSE (R485): Write asserts a line with the writer's owner code. -/
  | evrPulse (w : Writer) (v : BitVec 24)
  /-- OWNER_CHANGE (R477): Write of OWNER of a line, timer channel or lane judged by the table of R178 and resetting its settings. -/
  | ownerChange (w : Writer) (r : Owned) (v : BitVec 24)
  /-- COUNTING_TICK (R487): A timer channel's prescaled counting tick advances its counter. -/
  | countingTick (n : Fin 16)
  /-- PERIOD_WRITE (R492): Write of PERIOD, to the shadow or immediately with PERIOD_SHORT handling. -/
  | periodWrite (w : Writer) (n : Fin 16) (v : BitVec 24)
  /-- COMPARE_WRITE (R491): Write of a compare value, to the shadow or immediately. -/
  | compareWrite (w : Writer) (n : Fin 16) (k : Fin 4) (v : BitVec 24)
  /-- CAPTURE_EDGE (R495): A filtered, prescaled CAP edge copies the counter into TMR_CAPV. -/
  | captureEdge (n : Fin 16)
  /-- FRAME_RECEIVE (R500): A 20-bit frame on an input lane is retimed and accepted or rejected. -/
  | frameReceive (n : Fin 16) (bits : BitVec 20)
  /-- RECEIVE_TIMEOUT (R502): An input lane's timeout expires, setting TIMEOUT and asserting TOEVT. -/
  | receiveTimeout (n : Fin 16)
  /-- SMP_RXTOUT (R502): Write of the receive timeout restarts it. -/
  | smpRxtout (w : Writer) (n : Fin 16) (v : BitVec 24)
  /-- SMP_TX (R504): Write places a frame in the transmit register, replacing a waiting one with TXOVR. -/
  | smpTx (w : Writer) (n : Fin 16) (v : BitVec 24)
  /-- SERIALISER_LOAD (R504): A transmit frame enters the idle serialiser and is sent with parity. -/
  | serialiserLoad (n : Fin 16)
  /-- SAFE_FRAME_REPEAT (R506): The REPEAT interval expires and the lane sends its safe frame again. -/
  | safeFrameRepeat (n : Fin 16)
  /-- WATCHDOG_KICK (R510): Write of KEY restarts the watchdog or expires it on a wrong key. -/
  | watchdogKick (w : Writer) (x : Fin 5) (v : BitVec 24)
  /-- WATCHDOG_EXPIRE (R510): A watchdog's interval passes without a kick; FIRED sets and its lanes go safe. -/
  | watchdogExpire (x : Fin 5)
  /-- CAP_TSK (R442): Write of a task slot makes it WAITING or INVALID. -/
  | capTsk (w : Writer) (c : Fin 4) (t : Fin 64) (j : Fin 3) (v : BitVec 24)
  /-- BAR0_WRITE (R522): A single-DW host write acts on a control register with application supervisor rights. -/
  | bar0Write (f : Fin 4) (i : Nat) (dw : Nat) (be : BitVec 4) (v : BitVec 32)
  /-- BAR2_WRITE (R524): A host write TLP to the window is applied word by word with owner checks. -/
  | bar2Write (f : Fin 4) (off : Nat) (bytes : List Byte) (ep : Bool)
  /-- BAR2_READ (R525): A host read TLP of the window completes with data, poison mark or Completer Abort; a read of another BAR (R519,
  R522) has the same form. -/
  | bar2Read (f : Fin 4) (off : HostPlace) (len : Nat)
  /-- LINK_TRAINED (R516): A PCI Express port trains and its link comes up. -/
  | linkTrained (p : PortEvent) (gen : BitVec 3) (width : BitVec 4)
  /-- LINK_DOWN (R521): Hot reset, link-down or PE_PERST_N low resets the function's link state. -/
  | linkDown (p : PortEvent)
  /-- FUNCTION_LEVEL_RESET (R521): Function-level reset returns a function's configuration and mailbox to reset. -/
  | functionLevelReset (f : Fin 4)
  /-- MSIX_UNMASK (R528): Unmasking a vector with its pending bit set sends its message. -/
  | msixUnmask (f : Fin 4) (v : Fin 64)
  /-- MAILBOX_READ (R545): Mailbox read command returns bytes of an object value, snapshotting at offset 0. -/
  | mailboxRead (w : Writer) (f : Fin 4) (v : BitVec 24)
  /-- MAILBOX_WRITE (R545): Mailbox write command stages bytes or offers the value to the object. -/
  | mailboxWrite (w : Writer) (f : Fin 4) (v : BitVec 24)
  /-- USDO_REQUEST (R536): A USDO transfer request from a client reads or writes an object. -/
  | usdoRequest (n : BitVec 7) (bus : Bool) (idx : BitVec 16) (sub : BitVec 8) (value : Option (List Byte)) (segmented : Bool)
  /-- USDO_SESSION_TIMEOUT (R536): A segmented session idle for 1 s is aborted. -/
  | usdoSessionTimeout (n : BitVec 7)
  /-- MODE_REQUEST (R551): A write of 0x2001 changes a partition's request and the combined request. -/
  | modeRequest (k : Client) (p : Fin 4) (v : Byte)
  /-- WAKE_LATENCY_BUDGET (R558): A write of 0x2100 changes the selected READY depth. -/
  | wakeLatencyBudget (k : Client) (p : Fin 4) (v : BitVec 32)
  /-- PARTITION_LAYOUT (R29): A write of 0x2010 or 0x2011 is checked and stored for the next start. -/
  | partitionLayout (k : Client) (bindings : Bool) (sub : BitVec 8) (value : List Byte)
  /-- NMT_STATE_CHANGE (R536): An NMT command moves the node between NMT states. -/
  | nmtStateChange (cmd : NmtCommand)
  /-- NMT_RESET_COMMUNICATION (R538): NMT reset communication, or reset node, applies new node-ID and timing and aborts USDO sessions. -/
  | nmtResetCommunication (node : Bool)
  /-- SYNC (R542): A consumed SYNC frame asserts HST_SYNCEVT's line. -/
  | sync (bus : Bool)
  /-- HEARTBEAT (R536): The heartbeat producer interval expires and a heartbeat is sent. -/
  | heartbeat
  /-- TPDO (R536): A TPDO is transmitted with mapped object values. -/
  | tpdo (n : Fin 8)
  /-- BUS_OFF (R535): A CAN bus enters bus-off; the other bus continues. -/
  | busOff (bus : Bool)
  /-- BUS_OFF_RECOVERY (R535): A bus-off controller recovers under ISO 11898-1. -/
  | busOffRecovery (bus : Bool)
  /-- SWITCH_STATE_GLOBAL (R538): LSS service switching every slave's state. -/
  | switchStateGlobal (config : Bool)
  /-- SWITCH_STATE_SELECTIVE (R538): LSS service switching the addressed slave to configuration. -/
  | switchStateSelective (id : BitVec 128)
  /-- CONFIGURE_NODE_ID (R538): LSS service setting the pending node-ID. -/
  | configureNodeId (n : Byte)
  /-- CONFIGURE_BIT_TIMING (R538): LSS service setting the pending bit timing. -/
  | configureBitTiming (nominal data : BitVec 16)
  /-- STORE_CONFIGURATION (R538): LSS service writing node-ID and bit timing to flash. -/
  | storeConfiguration
  /-- INQUIRE_IDENTITY (R538): LSS service returning an identity field. -/
  | inquireIdentity (field : Fin 4)
  /-- INQUIRE_NODE_ID (R538): LSS service returning the node-ID. -/
  | inquireNodeId
  /-- IDENTIFY_REMOTE_SLAVE (R538): LSS service answering when the identity lies in the given range. -/
  | identifyRemoteSlave (vendor product revLow revHigh serLow serHigh : BitVec 32)
  /-- FASTSCAN (R538): LSS fastscan step isolating one unconfigured unit. -/
  | fastscan (idn : BitVec 32) (bitChecked : Byte) (lssSub lssNext : Byte)
  /-- IMAGE_DOWNLOAD (R588): A USDO download of 0x1F50:01 writes an image to the inactive slot after header checks. -/
  | imageDownload (k : Client) (bytes : List Byte)
  /-- CLEAR (R584): Erase the inactive slot. -/
  | clear (w : Writer)
  /-- PROGRAM (R589): Write a staged chunk of image into the inactive slot. -/
  | program (w : Writer)
  /-- ACTIVATE (R587): Verify the inactive slot and write a pointer record naming it. -/
  | activate (w : Writer)
  /-- COMMIT (R583): Raise the security-version fuse counters to the running image's MINSV. -/
  | commit (w : Writer)
  /-- KEYPROG (R591): Blow the customer-key fuses once in the module's life. -/
  | keyprog (w : Writer)
  /-- FIRMWARE_COMMAND_COMPLETE (R594): A flash command finishes, setting DONE or FAIL. -/
  | firmwareCommandComplete (flashOk : Bool)
  /-- DRAIN_COMPLETE (R555): No splice is running, so the cores stop at the point of no return. -/
  | drainComplete
  /-- DRAIN_LIMIT (R555): DRAIN µs pass and running splices are preempted before the cores stop. -/
  | drainLimit
  /-- DEPTH_REACHED (R555): The domains reach the target READY depth and PHASE reads settled. -/
  | depthReached
  /-- STANDBY_SWITCH_OFF (R555): The main domains switch off 1 ms after the point of no return. -/
  | standbySwitchOff
  /-- WAKE_COMPLETE (R556): The device returns to RUN and the cores issue their first instructions. -/
  | wakeComplete
  /-- VIN_AUX_VALID (R554): VIN_AUX becomes valid and the device enters STANDBY. -/
  | vinAuxValid (level : BitVec 12)
  /-- VIN_AUX_LOSS (R566): VIN_AUX falls below 2.9 V and the device is OFF. -/
  | vinAuxLoss
  /-- VIN_MAIN_VALID (R566): VIN_MAIN is in range for 10 ms and a start follows. -/
  | vinMainValid (level : BitVec 12) (recoveryN split : Bool)
  /-- VIN_MAIN_LOSS (R566): VIN_MAIN falls below its threshold; lanes go safe and the device is in STANDBY. -/
  | vinMainLoss
  /-- SUPPLY_OUT_OF_RANGE (R566): A supply leaves its operating range, setting health bit 10. -/
  | supplyOutOfRange (main : Bool) (level : BitVec 12)
  /-- LID_OUT_OF_RANGE (R566): The lid temperature leaves its operating range, setting health bit 11. -/
  | lidOutOfRange (t : BitVec 12)
  /-- THERMAL_SHUTDOWN (R566): The lid is above its shutdown limit for 1 ms and the device shuts down. -/
  | thermalShutdown
  /-- THERMAL_RETURN (R566): The lid is within limits for 1 s and a start follows. -/
  | thermalReturn (t : BitVec 12)
  /-- RESET_N_LOW (R563): RESET_N low for 1 µs puts the device in STANDBY. -/
  | resetNLow
  /-- RESET_N_HIGH (R563): RESET_N returns high and a start follows. -/
  | resetNHigh
  /-- BOOT_COMPLETE (R560): BRING-UP finishes verification, loading and zeroing and the device reaches READY depth 1. -/
  | bootComplete (trained : BitVec 128)
  /-- RECOVERY_EXIT (R590): A slot verifies, RECOVERY_N is high and the request is not RECOVERY, so a start begins. -/
  | recoveryExit (recoveryN : Bool)
  /-- CLOCK_MONITOR_CHECK (R626): The 1 µs clock monitor check detects a stopped crystal or unlocked PLL. -/
  | clockMonitorCheck (stopped unlocked : Bool)
  /-- CLOCK_RECOVERY (R626): Every clock has been good for 10 ms and a start follows. -/
  | clockRecovery
  /-- WORD_READ (R597): Aftar access reading a word as master 23. -/
  | wordRead (a : BitVec 40) (inc : Bool)
  /-- WORD_WRITE (R597): Aftar access writing a word as master 23. -/
  | wordWrite (a : BitVec 40) (data : BitVec 72) (inc : Bool)
  /-- REGISTER_READ (R613): Aftar register read that clears no RC field. -/
  | registerRead (i : Nat) (inc : Bool)
  /-- REGISTER_WRITE (R597): Aftar register write as supervisor code of OWNER. -/
  | registerWrite (i : Nat) (v : BitVec 24) (inc : Bool)
  /-- CONSUMING_REGISTER_READ (R613): Aftar register read that clears RC fields. -/
  | consumingRegisterRead (i : Nat) (inc : Bool)
  /-- AFTAR_ACCESS_COMPLETE (R597): An Aftar access finishes after its target waits and its status is captured. -/
  | aftarAccessComplete
  /-- TRST_N_LOW (R596): TRST_N low resets the TAP controller and clears ATT. -/
  | trstNLow
  /-- HALT (R603): Debug command requesting a core halt. -/
  | halt (n : BitVec 3)
  /-- HALT_TAKEN (R603): The core reaches an allowed boundary and halts, pausing its watchdog. -/
  | haltTaken (c : Core)
  /-- RESUME (R601): A halted core continues from its saved PC. -/
  | resume (n : BitVec 3)
  /-- STEP (R604): A halted core executes one step and halts. -/
  | step (n : BitVec 3)
  /-- REGRD (R601): Read a register of a halted core into DBG_D0 to DBG_D2. -/
  | regrd (n : BitVec 3) (bank : BitVec 5) (r : BitVec 7) (slice : BitVec 2)
  /-- REGWR (R601): Write a register of a halted core from DBG_D0 to DBG_D2. -/
  | regwr (n : BitVec 3) (bank : BitVec 5) (r : BitVec 7) (slice : BitVec 2)
  /-- RELEASE (R606): Release a locked scalar core, leaving it halted. -/
  | release (n : BitVec 3)
  /-- DBG_FREEZE (R608): Write freezes or releases pumps, scrubber, timers, event lines, lanes and DMA. -/
  | dbgFreeze (w : Writer) (v : BitVec 24)
  /-- STIMULUS (R611): Write to DBG_STIM emits a stimulus trace packet. -/
  | stimulus (w : Writer) (world : Bool) (k : Fin 32) (v : BitVec 24)
  /-- SYNC_PACKET (R610): Every 65,536 ticks a sync trace packet is sent. -/
  | syncPacket
  /-- CONTROL_REGISTER_WRITE (R21): A write to a register without behaviour of its own, accepted or rejected with a reject code. -/
  | controlRegisterWrite (w : Writer) (i : Nat) (v : BitVec 24)
  /-- FRAME_COMMAND_COMPLETE (R128): A PIN, UNPIN, RETIRE or READ command of a frame-table set completes within 1.5 µs, applying its effect, clearing BUSY and setting DONE. -/
  | frameCommandComplete (k : Fin 5)
  /-- SUPPLY_BACK_IN_RANGE (R540): VIN_MAIN or VIN_AUX returns into its operating range without having caused a shutdown, clearing health bit 10 and possibly sending the all-clear EMCY. -/
  | supplyBackInRange (main : Bool) (level : BitVec 12)
  /-- LID_BACK_IN_RANGE (R540): The lid temperature returns into its operating range without a shutdown, clearing health bit 11 and possibly sending the all-clear EMCY. -/
  | lidBackInRange (t : BitVec 12)
  /-- CONFIGURATION_REQUEST (R520): A PCI Express configuration write changes the function's power state, Memory Space Enable or MSI-X Enable. -/
  | configurationRequest (f : Fin 4) (item : ConfigItem) (write : Bool) (v : BitVec 32)
  /-- MSIX_TABLE_WRITE (R528): A host write to the BAR4 MSI-X table masks a vector or changes its message address and data. -/
  | msixTableWrite (f : Fin 4) (v : Fin 64) (mask : Bool) (addr : BitVec 64) (data : BitVec 32)
  /-- HEARTBEAT_RECEIVED (R536): A heartbeat frame from a node monitored in 0x1016 is received and restarts its consumer time. -/
  | heartbeatReceived (n : BitVec 7)
  /-- HEARTBEAT_CONSUMER_TIMEOUT (R536): A heartbeat consumer entry of 0x1016 expires because its monitored node has fallen silent. -/
  | heartbeatConsumerTimeout (n : BitVec 7)
  /-- ERROR_PASSIVE (R547): CANA or CANB passes between error active and error passive as bus errors move its error counters, which STA and STB of HST_CAN show. -/
  | errorPassive (bus passive : Bool)
  /-- TRACE_PACKET_SENT (R610): A trace packet leaves the trace FIFO on TRACE_D, freeing space so that a pending overflow packet is sent. -/
  | tracePacketSent
deriving DecidableEq, Repr

end Sys2Proof
end

