-- ==== Sys2Proof/Config.lean ====
section
/-! DEFINITION. What the spec leaves to the device: fused identity, contents it does not publish, outcomes of the code it
leaves open, cryptography, and the free values. Every constant here is opaque: nothing in Lean can evaluate it. -/

namespace Sys2Proof.Config

/-- The free value drawn at count `n`, of width `w`: the spec gives no value and none is chosen (log 1). -/
opaque freeBits (w : Nat) (n : Nat) : BitVec w

/-- A free choice between two at count `n` (log 1). -/
opaque freeBool (n : Nat) : Bool

/-- A free number at count `n` (log 1). -/
opaque freeNat (n : Nat) : Nat

/-- The free number of splice `id` at `place`, an element or an address, and `k` where the place has several: the same however often the
splice is preempted (R250; log 17). -/
opaque spliceNat (id place k : Nat) : Nat

/-- Instruction `q` of splice `id` reaches the poisoned vendor microword at `key` in the group that begins at `lo`: the path of vendor
microcode is not published (R457, R474), and it is the same however often the splice is preempted (R250; log 140). -/
opaque vendorReach (id q lo key : Nat) : Bool

/-- What a poisoned result of element `i` of instruction `q` of splice `id` contributes to FP_FLAGS and, bit 5, to SAT (R147, R250; log
17). -/
opaque poisonNote (id i q : Nat) : BitVec 6

/-- The elements of the group that begins at `lo` that splice `id` writes although a lower one has failed (R252; log 1). -/
opaque lateElements (id lo : Nat) : BitVec 64

/-- The ordering code: true for KX127-X, false for KX127-S (R2). -/
opaque variantX : Bool

/-- The fused serial number, 0x1018:04 (R538, R547). -/
opaque serial : BitVec 32

/-- Ply `x` of the boot ROM seen through window zero (R189); its content is not published (R467). -/
opaque bootRom (x : Nat) : Ply

/-- Word `k` of the mask ROM part of the vector control store (R455); not published. -/
opaque maskRom (k : Nat) : Word72

/-- The dispatch entry of the ROM defaults for opcode `e` of 0xC0 to 0xC7 (R463); not published. -/
opaque romDispatch (e : Nat) : W48

/-- The page modes of pages 0 to 7 that the mask ROM holds (R459); not published. -/
opaque romPages : BitVec 8

/-- Word `k` of the ROM content of the scalar microcode store (R467); not published. -/
opaque scalarRom (k : Nat) : Word72

/-- Where a control-store word lies in the authenticated copy of a component that supplies it, as a word number taken modulo the words of
that copy (R473); the layout of the payloads is not published (R467; logs 22 and 68). -/
opaque copyOf (scalar : Bool) (k : Nat) : Nat

/-- How a read ends whose error pattern R140 to R142 do not decide (R649): the stored bits in error, the fold
difference, whether the word was written as poisoned. Taken within the bounds of R649 by `Machine.decodeWord`. -/
opaque eccOpen (err : BitVec 88) (fold : BitVec 16) (poison : Bool) : BitVec 3

/-- The one or two stored bits that the syndrome of such a pattern locates when it ends as a CE (R141, R649): their places, equal for
one bit. `Machine.locatedBits` keeps them within R649. -/
opaque eccLocated (err : BitVec 88) (fold : BitVec 16) (poison : Bool) : Fin 88 × Fin 88

/-- The syndrome of an error pattern: implementation-defined (R649). -/
opaque eccSyndrome (err : BitVec 88) (fold : BitVec 16) (poison : Bool) : BitVec 16

/-- The ECDSA P-384 check of R575 over `message` with the 96 bytes `sig`: under the vendor key, or under the integrator
key whose hash the customer-key fuses `fuses` hold. -/
opaque signatureHolds (integrator : Bool) (fuses message sig : List Byte) : Bool

/-- R469 on the parts of a component block: the plaintext when the signature over header, nonce, ciphertext and tag, and the tag, hold. -/
opaque opens (integrator : Bool) (fuses header nonce cipher tag sig : List Byte) : Option (List Byte)

/-- The control-store words that the payload of a vector patch writes; its layout is not published (R467). -/
opaque vectorPatchWords (payload : List Byte) : List (Nat × Word72)

/-- The scalar-microcode words that the payload of a scalar patch writes; not published (R467). -/
opaque scalarPatchWords (payload : List Byte) : List (Nat × Word72)

/-- The control-store words that the payload of a customer image writes; its layout is not given (R465). -/
opaque customerWords (payload : List Byte) : List (Nat × Word72)

/-- Byte `k` of slot A, or B when `b`, where the model leaves it open: as delivered at epoch 0, else after a failed erase. -/
opaque openSlot (b : Bool) (epoch k : Nat) : Byte

/-- What a byte of erased flash reads as. -/
opaque erasedByte : Byte


end Sys2Proof.Config
end

