-- ==== Sys2Proof/Machine/Bits.lean ====
section
/-! DEFINITION. Bit fields, sign extension, counting and byte order: the helpers that the meanings share. -/

namespace Sys2Proof.Machine

/-- Field [lo + len − 1 : lo] of `v` (R10). -/
def bits {w : Nat} (v : BitVec w) (lo len : Nat) : BitVec len := v.extractLsb' lo len

/-- `v` with field [lo + len − 1 : lo] replaced by `x` (R10). -/
def setBits {w len : Nat} (v : BitVec w) (lo : Nat) (x : BitVec len) : BitVec w :=
  (v &&& ~~~((BitVec.allOnes len).setWidth w <<< lo)) ||| (x.setWidth w <<< lo)

/-- Bit `i` of `v`. -/
def bit {w : Nat} (v : BitVec w) (i : Nat) : Bool := v.getLsbD i

/-- A Boolean as a bit of a wider value. -/
def ofBool (w : Nat) (b : Bool) : BitVec w := if b then 1 else 0

/-- `v` with bit `i` set to `b`. -/
def setBit {w : Nat} (v : BitVec w) (i : Nat) (b : Bool) : BitVec w := setBits v i (ofBool 1 b)

/-- The number of set bits (POPC of R318). -/
def popCount {w : Nat} (v : BitVec w) : Nat := (List.range w).countP (fun i => v.getLsbD i)

/-- The number of leading zero bits among the `n` low bits of `v` (CLZ of R318). -/
def leadingZeros {w : Nat} (v : BitVec w) : Nat → Nat
  | 0 => 0
  | n + 1 => if v.getLsbD n then 0 else leadingZeros v n + 1

/-- A count that saturates at `top`. -/
def satAdd (top n k : Nat) : Nat := if n + k ≤ top then n + k else top

/-- Field `[lo + len − 1 : lo]` of a register counted up by `k`, saturating at all ones. -/
def bumpField {w : Nat} (v : BitVec w) (lo len k : Nat) : BitVec w :=
  setBits v lo (BitVec.ofNat len (satAdd (2 ^ len - 1) (bits v lo len).toNat k))

/-- The little-endian value of a list of bytes. -/
def leNat : List Byte → Nat
  | [] => 0
  | b :: t => b.toNat + 256 * leNat t

/-- `n` bytes of a number, little-endian. -/
def leBytes : Nat → Nat → List Byte
  | 0, _ => []
  | k + 1, n => BitVec.ofNat 8 n :: leBytes k (n / 256)

/-- Ply `p` of a word (R4). -/
def wordPly (v : Word72) (p : Nat) : Ply := bits v (12 * p) 12

/-- `v` with the plies that `mask` names taken from `x` (R55). -/
def mergePlies (v x : Word72) (mask : BitVec 6) : Word72 :=
  (List.range 6).foldl (fun a p => if bit mask p then setBits a (12 * p) (wordPly x p) else a) v

/-- Host byte `k` of a word (R5). -/
def wordByte (v : Word72) (k : Nat) : Byte := bits v (8 * k) 8

/-- Drop the first element that equals `x`. -/
def dropOne {α : Type} [DecidableEq α] (x : α) : List α → List α
  | [] => []
  | y :: t => if x = y then t else y :: dropOne x t

/-- Element `i` of a list replaced by `f` of it. -/
def mapAt {α : Type} (f : α → α) : Nat → List α → List α
  | _, [] => []
  | 0, a :: t => f a :: t
  | n + 1, a :: t => a :: mapAt f n t

end Sys2Proof.Machine
end

