-- ==== Sys2Proof/Machine/RegMap.lean ====
section
/-! DEFINITION. The control-register map: every register by name, its index (R35 and the index tables of the chapters),
which of its bits each access code of R16 covers, and its reset value. -/

namespace Sys2Proof.Machine

/-- The control registers by their names in the spec. -/
inductive Rg where
  | dsChCfg (n : Nat) | dsChStat (n : Nat) | dsLatmax (n : Nat) | dsCmd
  | ftFrame (k : Nat) | ftArg (k : Nat) | ftOp (k : Nat) | ftCmd (k : Nat) | ftEntry (k j : Nat)
  | ftCacheStat | ftMiss
  | eccCe (u : Nat) | eccUe (u : Nat) | eccAce (u : Nat) | eccCfg | eccStat | eccLogHead | eccLogLost
  | eccInjAlo | eccInjAhi | eccInjCtl | eccCmd | scrLaptime (u : Nat) | scrLapnum (u : Nat) | scrCfg | scrCmd
  | cisOwner (n : Nat) | cisPwr (n : Nat) | cisStat (n : Nat) | cisCmd (n : Nat)
  | xbCfg | xbCmd | xbPri (m j : Nat) | xbSlice (m j : Nat)
  | pmpShare | pmpSplit (p : Nat) | pmpQuantum | pmpCmd | pmpStat (i : Nat)
  | splStat (i : Nat) | splEleml (i : Nat) | splElemh (i : Nat) | splKill | splCmd
  | llCtl | llCfg | llStat | llRb | llCycle | llLost | llFvec | llCmd | llIrq (k : Nat)
  | capVbase (c w : Nat) | capGate (p w : Nat) | capGcnt (p w : Nat) | capBelay (p w : Nat) | capBceil (p w : Nat)
  | capStat (c : Nat) | capBocnt (c : Nat) | capCmd | capTsk (c t j : Nat)
  | evrLine (n : Nat) | evrStat (n : Nat) | evrPulse | evrCmd
  | tmrCtl (n : Nat) | tmrOwn (n : Nat) | tmrPer (n : Nat) | tmrCnt (n : Nat) | tmrCmp (n k : Nat)
  | tmrEva (n : Nat) | tmrEvb (n : Nat) | tmrEve (n : Nat) | tmrStat (n : Nat) | tmrCapcfg (n : Nat)
  | tmrCapv (n : Nat) | tmrCmd
  | wdCfg (x : Nat) | wdEvt (x : Nat) | wdKick (x : Nat) | wdStat (x : Nat)
  | rxCfg (n : Nat) | rxTout (n : Nat) | rx (n : Nat) | rxStat (n : Nat) | tag (n t : Nat)
  | txCfg (n : Nat) | txSafe (n : Nat) | tx (n : Nat) | txStat (n : Nat) | grp (g : Nat)
  | dbl (d : Nat) | dbh (d : Nat) | dlen (d : Nat) | didx (d : Nat) | smpCmd
  | hstId0 | hstId1 | hstSerl | hstSerh | hstLink | hstCan | hstSyncevt | hstCmd
  | hstFn (f : Nat) | odIdx (f : Nat) | odOff (f : Nat) | odCmd (f : Nat) | odDat (f j : Nat) | odStat (f : Nat)
  | odAbl (f : Nat) | odAbh (f : Nat) | msiv (f v : Nat)
  | modStat | modCfg | modWake (p : Nat) | modTemp | modVolt | modCmd
  | fwSrcl | fwSrch | fwOff | fwLen | fwCmd | fwStat | fwCmdStatus
  | dbgCtl | dbgStat | dbgCmd | dbgD (j : Nat) | dbgFreeze | dbgPermit | dbgTrcfg | dbgTrbl | dbgTrbh | dbgTrlen
  | dbgTrlost | dbgCmdStatus | dbgStim (w k : Nat)
deriving DecidableEq, Repr

/-- The control-register index of a register (R130, R169, R204, R259, R416, R451, R512, R546, R569, R593, R615). -/
def Rg.index : Rg → Nat
  | .dsChCfg n => 0x2000 + n | .dsChStat n => 0x2080 + n | .dsLatmax n => 0x2100 + n | .dsCmd => 0x2180
  | .ftFrame k => 0x2400 + 8 * k | .ftArg k => 0x2401 + 8 * k | .ftOp k => 0x2402 + 8 * k
  | .ftCmd k => 0x2403 + 8 * k | .ftEntry k j => 0x2404 + 8 * k + j | .ftCacheStat => 0x2428 | .ftMiss => 0x2429
  | .eccCe u => 0x2600 + u | .eccUe u => 0x2700 + u | .eccAce u => 0x2800 + u | .eccCfg => 0x2900
  | .eccStat => 0x2901 | .eccLogHead => 0x2902 | .eccLogLost => 0x2903 | .eccInjAlo => 0x2904
  | .eccInjAhi => 0x2905 | .eccInjCtl => 0x2906 | .eccCmd => 0x2907
  | .scrLaptime u => 0x2A00 + u | .scrLapnum u => 0x2B00 + u | .scrCfg => 0x2C00 | .scrCmd => 0x2C01
  | .cisOwner n => 0x3000 + 4 * n | .cisPwr n => 0x3001 + 4 * n | .cisStat n => 0x3002 + 4 * n
  | .cisCmd n => 0x3003 + 4 * n | .xbCfg => 0x3100 | .xbCmd => 0x3101
  | .xbPri m j => 0x3200 + 4 * m + j | .xbSlice m j => 0x3280 + 2 * m + j
  | .pmpShare => 0x3400 | .pmpSplit p => 0x3401 + p | .pmpQuantum => 0x3405 | .pmpCmd => 0x3406
  | .pmpStat i => 0x3410 + i | .splStat i => 0x3500 + 4 * i | .splEleml i => 0x3501 + 4 * i
  | .splElemh i => 0x3502 + 4 * i | .splKill => 0x3540 | .splCmd => 0x3541
  | .llCtl => 0x3800 | .llCfg => 0x3801 | .llStat => 0x3802 | .llRb => 0x3803 | .llCycle => 0x3804
  | .llLost => 0x3805 | .llFvec => 0x3806 | .llCmd => 0x3807 | .llIrq k => 0x3810 + k
  | .capVbase c w => 0x3C00 + 2 * c + w | .capGate p w => 0x3C08 + 2 * p + w | .capGcnt p w => 0x3C10 + 2 * p + w
  | .capBelay p w => 0x3C18 + 2 * p + w | .capBceil p w => 0x3C20 + 2 * p + w | .capStat c => 0x3C28 + c
  | .capBocnt c => 0x3C2C + c | .capCmd => 0x3C30 | .capTsk c t j => 0x3D00 + 256 * c + 4 * t + j
  | .evrLine n => 0x4400 + n | .evrStat n => 0x4500 + n | .evrPulse => 0x4600 | .evrCmd => 0x4601
  | .tmrCtl n => 0x4800 + 16 * n | .tmrOwn n => 0x4801 + 16 * n | .tmrPer n => 0x4802 + 16 * n
  | .tmrCnt n => 0x4803 + 16 * n | .tmrCmp n k => 0x4804 + 16 * n + k | .tmrEva n => 0x4808 + 16 * n
  | .tmrEvb n => 0x4809 + 16 * n | .tmrEve n => 0x480A + 16 * n | .tmrStat n => 0x480B + 16 * n
  | .tmrCapcfg n => 0x480C + 16 * n | .tmrCapv n => 0x480D + 16 * n | .tmrCmd => 0x4900
  | .wdCfg x => 0x4910 + 4 * x | .wdEvt x => 0x4911 + 4 * x | .wdKick x => 0x4912 + 4 * x
  | .wdStat x => 0x4913 + 4 * x
  | .rxCfg n => 0x4C00 + 4 * n | .rxTout n => 0x4C01 + 4 * n | .rx n => 0x4C02 + 4 * n
  | .rxStat n => 0x4C03 + 4 * n | .tag n t => 0x4D00 + 16 * n + t
  | .txCfg n => 0x4E00 + 4 * n | .txSafe n => 0x4E01 + 4 * n | .tx n => 0x4E02 + 4 * n
  | .txStat n => 0x4E03 + 4 * n | .grp g => 0x4F00 + g
  | .dbl d => 0x4F10 + 4 * d | .dbh d => 0x4F11 + 4 * d | .dlen d => 0x4F12 + 4 * d | .didx d => 0x4F13 + 4 * d
  | .smpCmd => 0x4F90
  | .hstId0 => 0x5000 | .hstId1 => 0x5001 | .hstSerl => 0x5002 | .hstSerh => 0x5003 | .hstLink => 0x5004
  | .hstCan => 0x5005 | .hstSyncevt => 0x5006 | .hstCmd => 0x5007
  | .hstFn f => 0x5010 + 16 * f | .odIdx f => 0x5011 + 16 * f | .odOff f => 0x5012 + 16 * f
  | .odCmd f => 0x5013 + 16 * f | .odDat f j => 0x5014 + 16 * f + j | .odStat f => 0x5017 + 16 * f
  | .odAbl f => 0x5018 + 16 * f | .odAbh f => 0x5019 + 16 * f | .msiv f v => 0x5100 + 64 * f + v
  | .modStat => 0x5400 | .modCfg => 0x5401 | .modWake p => 0x5402 + p | .modTemp => 0x5406 | .modVolt => 0x5407
  | .modCmd => 0x5408
  | .fwSrcl => 0x5800 | .fwSrch => 0x5801 | .fwOff => 0x5802 | .fwLen => 0x5803 | .fwCmd => 0x5804
  | .fwStat => 0x5805 | .fwCmdStatus => 0x5806
  | .dbgCtl => 0x5C00 | .dbgStat => 0x5C01 | .dbgCmd => 0x5C02 | .dbgD j => 0x5C03 + j | .dbgFreeze => 0x5C06
  | .dbgPermit => 0x5C07 | .dbgTrcfg => 0x5C08 | .dbgTrbl => 0x5C09 | .dbgTrbh => 0x5C0A | .dbgTrlen => 0x5C0B
  | .dbgTrlost => 0x5C0C | .dbgCmdStatus => 0x5C0D | .dbgStim w k => 0x5C40 + 32 * w + k

/-- The register at an index in the deep-store, frame-table and integrity blocks (R130, R169). -/
def rgStore (i : Nat) : Option Rg :=
  if i < 0x2080 then some (.dsChCfg (i - 0x2000))
  else if i < 0x2100 then some (.dsChStat (i - 0x2080))
  else if i < 0x2180 then some (.dsLatmax (i - 0x2100))
  else if i = 0x2180 then some .dsCmd
  else if 0x2400 ≤ i ∧ i < 0x2428 then
    let k := (i - 0x2400) / 8
    match (i - 0x2400) % 8 with
    | 0 => some (.ftFrame k) | 1 => some (.ftArg k) | 2 => some (.ftOp k) | 3 => some (.ftCmd k)
    | 7 => none
    | j + 4 => some (.ftEntry k j)
  else if i = 0x2428 then some .ftCacheStat
  else if i = 0x2429 then some .ftMiss
  else if 0x2600 ≤ i ∧ i < 0x269E then some (.eccCe (i - 0x2600))
  else if 0x2700 ≤ i ∧ i < 0x279E then some (.eccUe (i - 0x2700))
  else if 0x2800 ≤ i ∧ i < 0x289E then some (.eccAce (i - 0x2800))
  else if i = 0x2900 then some .eccCfg else if i = 0x2901 then some .eccStat
  else if i = 0x2902 then some .eccLogHead else if i = 0x2903 then some .eccLogLost
  else if i = 0x2904 then some .eccInjAlo else if i = 0x2905 then some .eccInjAhi
  else if i = 0x2906 then some .eccInjCtl else if i = 0x2907 then some .eccCmd
  else if 0x2A00 ≤ i ∧ i < 0x2A9E then some (.scrLaptime (i - 0x2A00))
  else if 0x2B00 ≤ i ∧ i < 0x2B9E then some (.scrLapnum (i - 0x2B00))
  else if i = 0x2C00 then some .scrCfg else if i = 0x2C01 then some .scrCmd
  else none

/-- The register at an index in the cistern, crossbar, pump, lifeline and Capstan blocks
(R204, R259, R416, R451). -/
def rgCore (i : Nat) : Option Rg :=
  if i < 0x3040 then
    let n := (i - 0x3000) / 4
    match (i - 0x3000) % 4 with
    | 0 => some (.cisOwner n) | 1 => some (.cisPwr n) | 2 => some (.cisStat n) | _ => some (.cisCmd n)
  else if i = 0x3100 then some .xbCfg else if i = 0x3101 then some .xbCmd
  else if 0x3200 ≤ i ∧ i < 0x3264 then
    if (i - 0x3200) % 4 = 3 then none else some (.xbPri ((i - 0x3200) / 4) ((i - 0x3200) % 4))
  else if 0x3280 ≤ i ∧ i < 0x32B2 then some (.xbSlice ((i - 0x3280) / 2) ((i - 0x3280) % 2))
  else if i = 0x3400 then some .pmpShare
  else if 0x3401 ≤ i ∧ i < 0x3405 then some (.pmpSplit (i - 0x3401))
  else if i = 0x3405 then some .pmpQuantum else if i = 0x3406 then some .pmpCmd
  else if 0x3410 ≤ i ∧ i < 0x3420 then some (.pmpStat (i - 0x3410))
  else if 0x3500 ≤ i ∧ i < 0x3540 then
    let n := (i - 0x3500) / 4
    match (i - 0x3500) % 4 with
    | 0 => some (.splStat n) | 1 => some (.splEleml n) | 2 => some (.splElemh n) | _ => none
  else if i = 0x3540 then some .splKill else if i = 0x3541 then some .splCmd
  else if 0x3800 ≤ i ∧ i < 0x3818 then
    match i - 0x3800 with
    | 0 => some .llCtl | 1 => some .llCfg | 2 => some .llStat | 3 => some .llRb | 4 => some .llCycle
    | 5 => some .llLost | 6 => some .llFvec | 7 => some .llCmd
    | j => if 16 ≤ j then some (.llIrq (j - 16)) else none
  else if 0x3C00 ≤ i ∧ i < 0x3C28 then
    let a := (i % 8) / 2
    match (i - 0x3C00) / 8 with
    | 0 => some (.capVbase a (i % 2)) | 1 => some (.capGate a (i % 2)) | 2 => some (.capGcnt a (i % 2))
    | 3 => some (.capBelay a (i % 2)) | _ => some (.capBceil a (i % 2))
  else if 0x3C28 ≤ i ∧ i < 0x3C2C then some (.capStat (i - 0x3C28))
  else if 0x3C2C ≤ i ∧ i < 0x3C30 then some (.capBocnt (i - 0x3C2C))
  else if i = 0x3C30 then some .capCmd
  else if 0x3D00 ≤ i ∧ i < 0x4100 then some (.capTsk ((i - 0x3D00) / 256) ((i % 256) / 4) (i % 4))
  else none

/-- The register at an index in the event, timer and sample-port blocks (R512). -/
def rgEvent (i : Nat) : Option Rg :=
  if 0x4400 ≤ i ∧ i < 0x4500 then some (.evrLine (i - 0x4400))
  else if 0x4500 ≤ i ∧ i < 0x4600 then some (.evrStat (i - 0x4500))
  else if i = 0x4600 then some .evrPulse else if i = 0x4601 then some .evrCmd
  else if 0x4800 ≤ i ∧ i < 0x4900 then
    let n := (i - 0x4800) / 16
    match i % 16 with
    | 0 => some (.tmrCtl n) | 1 => some (.tmrOwn n) | 2 => some (.tmrPer n) | 3 => some (.tmrCnt n)
    | 8 => some (.tmrEva n) | 9 => some (.tmrEvb n) | 10 => some (.tmrEve n) | 11 => some (.tmrStat n)
    | 12 => some (.tmrCapcfg n) | 13 => some (.tmrCapv n) | 14 => none | 15 => none
    | j => some (.tmrCmp n (j - 4))
  else if i = 0x4900 then some .tmrCmd
  else if 0x4910 ≤ i ∧ i < 0x4924 then
    let x := (i - 0x4910) / 4
    match i % 4 with
    | 0 => some (.wdCfg x) | 1 => some (.wdEvt x) | 2 => some (.wdKick x) | _ => some (.wdStat x)
  else if 0x4C00 ≤ i ∧ i < 0x4C40 then
    let n := (i - 0x4C00) / 4
    match i % 4 with
    | 0 => some (.rxCfg n) | 1 => some (.rxTout n) | 2 => some (.rx n) | _ => some (.rxStat n)
  else if 0x4D00 ≤ i ∧ i < 0x4E00 then some (.tag ((i - 0x4D00) / 16) (i % 16))
  else if 0x4E00 ≤ i ∧ i < 0x4E40 then
    let n := (i - 0x4E00) / 4
    match i % 4 with
    | 0 => some (.txCfg n) | 1 => some (.txSafe n) | 2 => some (.tx n) | _ => some (.txStat n)
  else if 0x4F00 ≤ i ∧ i < 0x4F08 then some (.grp (i - 0x4F00))
  else if 0x4F10 ≤ i ∧ i < 0x4F90 then
    let d := (i - 0x4F10) / 4
    match i % 4 with
    | 0 => some (.dbl d) | 1 => some (.dbh d) | 2 => some (.dlen d) | _ => some (.didx d)
  else if i = 0x4F90 then some .smpCmd
  else none

/-- The register at an index in the host, mode, firmware and debug blocks (R546, R569, R593, R615). -/
def rgHost (i : Nat) : Option Rg :=
  if i < 0x5008 then
    match i - 0x5000 with
    | 0 => some .hstId0 | 1 => some .hstId1 | 2 => some .hstSerl | 3 => some .hstSerh | 4 => some .hstLink
    | 5 => some .hstCan | 6 => some .hstSyncevt | _ => some .hstCmd
  else if 0x5010 ≤ i ∧ i < 0x5050 then
    let f := (i - 0x5010) / 16
    match i % 16 with
    | 0 => some (.hstFn f) | 1 => some (.odIdx f) | 2 => some (.odOff f) | 3 => some (.odCmd f)
    | 7 => some (.odStat f) | 8 => some (.odAbl f) | 9 => some (.odAbh f)
    | j => if 4 ≤ j ∧ j < 7 then some (.odDat f (j - 4)) else none
  else if 0x5100 ≤ i ∧ i < 0x5200 then some (.msiv ((i - 0x5100) / 64) (i % 64))
  else if i = 0x5400 then some .modStat else if i = 0x5401 then some .modCfg
  else if 0x5402 ≤ i ∧ i < 0x5406 then some (.modWake (i - 0x5402))
  else if i = 0x5406 then some .modTemp else if i = 0x5407 then some .modVolt
  else if i = 0x5408 then some .modCmd
  else if 0x5800 ≤ i ∧ i < 0x5807 then
    match i - 0x5800 with
    | 0 => some .fwSrcl | 1 => some .fwSrch | 2 => some .fwOff | 3 => some .fwLen | 4 => some .fwCmd
    | 5 => some .fwStat | _ => some .fwCmdStatus
  else if 0x5C00 ≤ i ∧ i < 0x5C0E then
    match i - 0x5C00 with
    | 0 => some .dbgCtl | 1 => some .dbgStat | 2 => some .dbgCmd | 6 => some .dbgFreeze | 7 => some .dbgPermit
    | 8 => some .dbgTrcfg | 9 => some .dbgTrbl | 10 => some .dbgTrbh | 11 => some .dbgTrlen | 12 => some .dbgTrlost
    | 13 => some .dbgCmdStatus | j => some (.dbgD (j - 3))
  else if 0x5C40 ≤ i ∧ i < 0x5C80 then some (.dbgStim ((i - 0x5C40) / 32) (i % 32))
  else none

/-- The register at a control-register index, where a block defines one there. -/
def Rg.ofIndex (i : Nat) : Option Rg :=
  if i < 0x2000 then none
  else if i < 0x3000 then rgStore i
  else if i < 0x4400 then rgCore i
  else if i < 0x5000 then rgEvent i
  else rgHost i

/-- The bits of a register by access code of R16. `rw` holds RW and RWP fields; RO fields are the rest. -/
structure RegBits where
  rw : Reg24 := 0
  rws : Reg24 := 0
  w1c : Reg24 := 0
  rc : Reg24 := 0
  /-- The register holds a WO field, which a write triggers and no read shows. -/
  wo : Bool := false
deriving DecidableEq, Repr

/-- REJ and CODE of a CMD_STATUS register without BUSY and DONE. -/
def RegBits.status : RegBits := { w1c := 1 }

/-- REJ, DONE and CODE of a CMD_STATUS register with them. -/
def RegBits.statusBusy : RegBits := { w1c := 6 }

/-- The access codes of each register's fields (the register tables of the chapters). -/
def Rg.bits : Rg → RegBits
  | .dsChCfg _ => { rw := 3 } | .dsChStat _ => {} | .dsLatmax _ => { rc := 0xFFFFFF } | .dsCmd => .status
  | .ftFrame _ => { rw := 0x1FFFFF } | .ftArg _ => { rw := 0x1FFFF } | .ftOp _ => { wo := true }
  | .ftCmd _ => .statusBusy | .ftEntry _ _ => {} | .ftCacheStat => {} | .ftMiss => { rc := 0xFFFFFF }
  | .eccCe _ => {} | .eccUe _ => {} | .eccAce _ => {} | .eccCfg => { rw := 0x1FFF } | .eccStat => {}
  | .eccLogHead => {} | .eccLogLost => { rc := 0xFFFFFF } | .eccInjAlo => { rw := 0xFFFFFF }
  | .eccInjAhi => { rw := 0xFFFF } | .eccInjCtl => { rw := 0x1FFFF } | .eccCmd => .status
  | .scrLaptime _ => {} | .scrLapnum _ => {} | .scrCfg => { rw := 0xFFFFFF } | .scrCmd => .status
  | .cisOwner _ => { rw := 0x1F } | .cisPwr _ => { rw := 3 } | .cisStat _ => { w1c := 0x100 } | .cisCmd _ => .status
  | .xbCfg => { rw := 1 } | .xbCmd => .status
  | .xbPri _ j => if j = 2 then { rws := 0x7FFF } else { rw := 0xFFFFFF }
  | .xbSlice _ j => if j = 0 then { rws := 0xFFFFFF } else { rws := 0x3FFFF }
  | .pmpShare => { rws := 0xFFFF } | .pmpSplit _ => { rw := 0xFF } | .pmpQuantum => { rws := 0xFFF }
  | .pmpCmd => .status | .pmpStat _ => {} | .splStat _ => {} | .splEleml _ => {} | .splElemh _ => {}
  | .splKill => { wo := true } | .splCmd => .statusBusy
  | .llCtl => { rw := 1 } | .llCfg => { rws := 0xF, rw := 0x7FF0 } | .llStat => {} | .llRb => {} | .llCycle => {}
  | .llLost => { rc := 0xFFFFFF } | .llFvec => { rw := 0x1FFF } | .llCmd => .status | .llIrq _ => { rw := 0xFFFFFF }
  | .capVbase _ _ => { rw := 0xFFFFFF } | .capGate _ _ => { rw := 0xFFFFFF } | .capGcnt _ _ => { rw := 0x1FF }
  | .capBelay _ _ => { rw := 0x1FFF } | .capBceil _ _ => { rw := 0x1FFF } | .capStat _ => {} | .capBocnt _ => {}
  | .capCmd => .status
  | .capTsk _ _ j =>
    if j = 0 then { rw := 0xFFFFFF } else if j = 1 then { rw := 0x3FFFF } else if j = 2 then { rw := 0x7FFF }
    else { rc := 0x3FC00 }
  | .evrLine _ => { rw := 0xFFFFFF } | .evrStat _ => { rc := 0xFFFFFF } | .evrPulse => { wo := true }
  | .evrCmd => .status
  | .tmrCtl _ => { rw := 0x3FFF } | .tmrOwn _ => { rw := 0xF } | .tmrPer _ => { rw := 0xFFFFFF }
  | .tmrCnt _ => { rw := 0xFFFFFF } | .tmrCmp _ _ => { rw := 0xFFFFFF } | .tmrEva _ => { rw := 0xFFFFFF }
  | .tmrEvb _ => { rw := 0xFFFFFF } | .tmrEve _ => { rw := 0x1FFFF } | .tmrStat _ => { w1c := 0xD }
  | .tmrCapcfg _ => { rw := 0x3FFF } | .tmrCapv _ => {} | .tmrCmd => .status
  | .wdCfg _ => { rws := 0x10000, rw := 0xFFFF } | .wdEvt _ => { rw := 0x1FF } | .wdKick _ => { wo := true }
  | .wdStat _ => { w1c := 0x10000 }
  | .rxCfg _ => { rw := 0x7FFFFF } | .rxTout _ => { rw := 0xFFFF } | .rx _ => {}
  | .rxStat _ => { rc := 0xFFFF, w1c := 0x10000 } | .tag _ _ => { rw := 0x7FF }
  | .txCfg _ => { rw := 0x7FFFFF } | .txSafe _ => { rw := 0xFFFF } | .tx _ => { rw := 0xFFFF }
  | .txStat _ => { rc := 0xFF } | .grp _ => { rws := 0xFF }
  | .dbl _ => { rw := 0xFFFFFF } | .dbh _ => { rw := 0xFFFF } | .dlen _ => { rw := 0x1FFFFF, w1c := 0x200000 }
  | .didx _ => { rw := 0xFFFFF } | .smpCmd => .status
  | .hstId0 => {} | .hstId1 => {} | .hstSerl => {} | .hstSerh => {} | .hstLink => {} | .hstCan => {}
  | .hstSyncevt => { rw := 0x1FF } | .hstCmd => .status | .hstFn _ => {}
  | .odIdx _ => { rw := 0xFFFFFF } | .odOff _ => { rw := 0x1FF } | .odCmd _ => { wo := true }
  | .odDat _ _ => { rw := 0xFFFFFF } | .odStat _ => { w1c := 6 } | .odAbl _ => {} | .odAbh _ => {}
  | .msiv _ _ => { rw := 0x1FF, rc := 0xFF0000 }
  | .modStat => {} | .modCfg => { rws := 0xFFF } | .modWake _ => { rw := 0x1FF } | .modTemp => {} | .modVolt => {}
  | .modCmd => .status
  | .fwSrcl => { rw := 0xFFFFFF } | .fwSrch => { rw := 0xFFFF } | .fwOff => { rw := 0xFFFFFF }
  | .fwLen => { rw := 0xFFFFF } | .fwCmd => { wo := true } | .fwStat => { w1c := 6 } | .fwCmdStatus => .status
  | .dbgCtl => { rw := 0x3FFF } | .dbgStat => {} | .dbgCmd => { wo := true } | .dbgD _ => { rw := 0xFFFFFF }
  | .dbgFreeze => { rw := 0x1FFFFF } | .dbgPermit => { rws := 0x1F } | .dbgTrcfg => { rw := 3 }
  | .dbgTrbl => { rw := 0xFFFFFF } | .dbgTrbh => { rw := 0xFFFF } | .dbgTrlen => { rw := 0xFFFFF }
  | .dbgTrlost => { rc := 0xFFFFFF } | .dbgCmdStatus => .statusBusy | .dbgStim _ _ => { wo := true }

/-- The minimum slice count of the path from master `m` to target `t` (R200, R201). -/
def minSlice (m t : Nat) : Nat :=
  if 16 ≤ t then 1
  else if m < 16 then
    let d := (m / 4 - t / 4) + (t / 4 - m / 4) + (m % 4 - t % 4) + (t % 4 - m % 4)
    if d = 0 then 0 else if d ≤ 2 then 1 else 2
  else if m < 20 then 1
  else if m = 20 then (if t = 15 then 0 else 2)
  else 2

/-- The reset priority of a master for every target (R207). -/
def resetPriority (m : Nat) : Nat :=
  if m < 16 then 3 else if m < 20 then 4
  else match m with
    | 20 => 7 | 21 => 2 | 22 => 6 | 23 => 1 | _ => 0

/-- `n` equal or varying fields of width `w`, field `i` holding `f i`. -/
def packFields (w n : Nat) (f : Nat → Nat) : Reg24 :=
  (List.range n).foldl (fun a i => a ||| BitVec.ofNat 24 (f i * 2 ^ (w * i))) 0

/-- The Reset column of each register (R15), where a field of the layout in force reads as its value of the default
layout of R530 and R532; the start writes the layout in force. -/
def Rg.reset : Rg → Reg24
  | .dsChCfg n => if n = 127 then 0 else 2
  | .ftArg _ => 0xF
  | .eccCfg => 0x1040
  | .scrCfg => 0x0A12CA
  | .cisOwner _ => 0xF
  | .cisPwr _ => 2
  | .cisStat _ => 0x2A
  | .xbPri m j => packFields 3 (if j = 2 then 5 else 8) (fun _ => resetPriority m)
  | .xbSlice m j => if j = 0 then packFields 2 12 (fun t => minSlice m t)
      else packFields 2 9 (fun t => if (m = 15 ∨ m = 20) ∧ t = 3 then 0 else minSlice m (t + 12))
  | .pmpSplit _ => 0x11
  | .pmpQuantum => 40
  | .pmpStat _ => 0x7F0
  | .llStat => 0x1E80
  | .capStat _ => 1
  | .evrLine _ => 0x2000
  | .tmrPer _ => 0xFFFFFF
  | .wdCfg _ => 0xFFFF
  | .grp _ => 0x10
  | .hstId0 => if Config.variantX then 0x7F02 else 0x7F01
  | .hstId1 => 3
  | .hstSerl => Config.serial.setWidth 24
  | .hstSerh => (Config.serial >>> 24).setWidth 24
  | .hstCan => 0xFF
  | .hstFn f => if f = 0 then 0x19 else 0x18
  | .modStat => 0x40001
  | .modCfg => 100
  | .dbgCtl => 0x42
  | .dbgPermit => 0x1F
  | _ => 0

end Sys2Proof.Machine
end

