-- ==== Sys2Proof/Machine/State.lean ====
section
/-! DEFINITION. The state of the KX127 block as plain data, and the state at reset. Control registers have ONE home, the
table `regs` by register index (R35); what the spec gives the machine beside them stands in the fields below. -/

namespace Sys2Proof.Machine

/-- No command of this block stops the machine with a fault: an access that the device refuses, a rejected write and an
exception are states it goes on from. -/
inductive Fault where
deriving DecidableEq, Repr

/-- Why the model gives a command no meaning. -/
inductive Refusal where
  /-- Raised by an arm of `exec` whose meaning is not written; safe. -/
  | notModelled (mnemonic : String)
deriving DecidableEq, Repr

/-- One stored coded word (R46): the data last written, whether it was written as poisoned (R142), the stored bits that
differ from the code word (R140), and the difference of the fold it was written with from its own (R141). -/
structure StoredWord where
  data : Word72 := 0
  poison : Bool := false
  err : BitVec 88 := 0
  fold : BitVec 16 := 0
deriving DecidableEq, Repr

/-- A word of zeros with valid check bits (R120, R182): what an unlisted address of RAM reads as. -/
def StoredWord.clean : StoredWord := {}

/-- One frame-table entry (R111), with the mark of R119 for a discarded one. -/
structure FEntry where
  owner : OwnerCode
  rights : BitVec 12
  ecc : BitVec 2 := 0
  retired : Bool := false
  pinned : Bool := false
  moving : Bool := false
  ceCount : BitVec 12 := 0
  lap : BitVec 12 := 0
  discarded : Bool := false
deriving DecidableEq, Repr

/-- A message that left the device, kept as the model's record of outputs (log 2). -/
inductive Msg where
  /-- An EMCY with its error code and the value of 0x1001 (R541). -/
  | emcy (code : BitVec 16) (register : Byte)
  /-- An MSI-X message of vector `v` of function `f` (R528). -/
  | msix (f v : Nat) (addr : BitVec 64) (data : BitVec 32)
  /-- A 20-bit frame that entered the serialiser of output lane `n` (R497, R504). -/
  | frame (n : Nat) (bits : BitVec 20)
  /-- A PCI Express completion of function `f`: its status, the EP mark, the bytes (R520, R525). -/
  | completion (f : Nat) (status : BitVec 3) (ep : Bool) (bytes : List Byte)
  /-- A word delivered to a crossbar master, with its poison mark, and with its tag where a channel returns it (R98, R140, R146). -/
  | word (master : BitVec 8) (addr : Nat) (data : Word72) (poison : Bool) (tag : Option Nat := none)
  /-- An access of a crossbar master refused under R32. -/
  | refusal (master : BitVec 8) (addr : Nat)
  /-- A USDO answer to a client on the bus of its request (R535), CANB when true: the abort code, 0 for success, and the bytes
  read (R536, R544). -/
  | usdo (client : BitVec 7) (bus : Bool) (abort : BitVec 32) (bytes : List Byte)
  /-- An LSS answer: command specifier and value (R538). -/
  | lss (spec : Byte) (value : BitVec 32)
  /-- A heartbeat with the NMT state (R536). -/
  | heartbeat (state : Byte)
  /-- TPDO `n` with its mapped bytes (R536). -/
  | tpdo (n : Nat) (bytes : List Byte)
  /-- A trace packet (R610). -/
  | trace (bytes : List Byte)
deriving DecidableEq, Repr

/-- Supplies, pins and clocks as the always-on domain sees them (R554, R566, R626). -/
structure Power where
  /-- VIN_AUX is valid: the device is not OFF. -/
  aux : Bool := true
  /-- VIN_MAIN is valid. -/
  main : Bool := false
  /-- VIN_AUX outside its range (R566). -/
  auxOut : Bool := false
  /-- VIN_MAIN outside its range (R566). -/
  mainOut : Bool := true
  /-- The lid outside its limits (R566). -/
  lidOut : Bool := false
  /-- Thermal shutdown in force (R566). -/
  hot : Bool := false
  /-- Level of RESET_N (R563). -/
  resetN : Bool := true
  /-- Level of RECOVERY_N as last shown: with VIN_MAIN becoming valid, or at the exit from RECOVERY (R590). -/
  recoveryN : Bool := true
  /-- Level of PE_SPLIT when VIN_MAIN last became valid; HST_LINK shows it from the next start on (R516). -/
  split : Bool := false
  /-- Levels of PE_PERST_N[0] and PE_PERST_N[1] (R632). -/
  perst0 : Bool := true
  perst1 : Bool := true
  /-- Every clock good (R626). -/
  clockGood : Bool := true
  /-- The crystal runs (R626). -/
  crystal : Bool := true
deriving DecidableEq, Repr

/-- The mode sequences in progress (R555, R559); the mode itself stands in MOD_STAT (R570). -/
structure ModeSeq where
  /-- The mode being entered: 3 READY or 1 STANDBY, while PHASE is draining or entering. -/
  target : BitVec 8 := 0
  /-- STANDBY or a READY depth is emulated (R607). -/
  emulated : Bool := false
  /-- The start in progress enters RECOVERY by its request or by RECOVERY_N (R590). -/
  recovery : Bool := false
  /-- RECOVERY_N was low when VIN_MAIN became valid, and no start has seen it (R590). -/
  pinRecovery : Bool := false
  /-- No start has begun since VIN_AUX became valid: the one that VIN_MAIN gives has the CAUSE of a power-up (R570). -/
  powerUp : Bool := true
  /-- Partitions whose 0x2001 a client has written, with the slow tick and the event tick of its last write (R571). -/
  told : List (Nat × Nat × Nat) := []
deriving DecidableEq, Repr

/-- A frame-table command that runs (R124, R128). -/
structure FtCmd where
  op : BitVec 3
  frame : Nat
  owner : OwnerCode
  rights : BitVec 12
  zero : Bool
  /-- What READ of a frame that moves has read at its write (R129). -/
  seen : Option Word72 := none
deriving DecidableEq, Repr

/-- A request of a crossbar master that waits: held at a moving frame or cistern (R124, R179), or for a tag (R97). -/
structure Request where
  master : Master
  addr : Nat
  /-- The plies written and the data; none for a read. -/
  write : Option (BitVec 6 × Word72) := none
deriving DecidableEq, Repr

/-- A transaction that holds a tag: a read, with the word it read when its channel accepted it, or a write (R96 to R99). -/
structure Flight where
  master : Master
  addr : Nat
  data : Word72
  poison : Bool
  write : Bool := false
  /-- The tag that it owns in its channel. -/
  tag : Nat := 0
deriving DecidableEq, Repr

/-- Where the scrubber stands in one unit (R155 to R161). -/
structure ScrubSt where
  pos : Nat := 0
  lap : Nat := 1
  /-- The lap timer when the lap began or went on, and the ticks that it had counted before. -/
  began : Nat := 0
  spent : Nat := 0
  /-- The unit is a cistern that is not ON. -/
  paused : Bool := false
deriving DecidableEq, Repr

/-- An unlocked entry of the frame-table cache: its frame and its coded word (R117, R137). -/
structure FtLine where
  frame : Nat
  copy : StoredWord := {}
deriving DecidableEq, Repr

/-- A line of a first-level cache (R148, R346): the way it fills, the ply address of its word 0, its words with their poison
marks (R146), and the CRC-16 kept with it. -/
structure L1Line where
  way : Nat
  line : Nat
  words : List (Word72 × Bool)
  crc : BitVec 16
deriving DecidableEq, Repr

/-- A line of L2 (R346): the ply address of its word 0, its coded words (R137), and whether it is dirty. -/
structure L2Line where
  line : Nat
  words : List StoredWord
  dirty : Bool := false
deriving DecidableEq, Repr

/-- The deep store and its integrity beside the registers. -/
structure StoreSt where
  /-- Unlocked entries cached in each set, most recent first (R117). -/
  ftCache : Tab (List FtLine) := Tab.empty
  /-- The two coded copies of each locked entry, by frame (R118). -/
  ftLocked : Tab (StoredWord × StoredWord) := Tab.empty
  /-- The first-level caches: the lines of each set, most recent first, by core × 512 + set, and 256 more for the instruction
  cache (R346). -/
  l1 : Tab (List L1Line) := Tab.empty
  /-- L2, by set × 16 + way (R346). -/
  l2 : Tab L2Line := Tab.empty
  /-- The command that runs in each command set (R121). -/
  ftRun : Tab FtCmd := Tab.empty
  /-- Requests held at moving frames and cisterns, oldest first. -/
  held : List Request := []
  /-- Requests waiting for a tag, oldest first (R97). -/
  tagWait : List Request := []
  /-- Transactions that hold a tag, oldest first (R96). -/
  inflight : List Flight := []
  /-- Round-robin pointer of each priority level of each target: target × 8 + level (R196). -/
  rr : Tab Nat := Tab.empty
  scrub : Tab ScrubSt := Tab.empty
  /-- Slow event ticks in RUN with the scrubber not frozen: the lap timer (R157, R161). -/
  scrubClock : Nat := 0
  /-- TIMEs of the recent ACEs of each channel (R154). -/
  aces : Tab (List Nat) := Tab.empty
  /-- Pinned frames whose suppression has been logged in this start (R152). -/
  suppressed : List Nat := []
  /-- Entries of types 0x01, 0x02 and 0x06 written in this interval (R166). -/
  logCount : Nat := 0
  /-- Retired frames not yet in the flash record (R153). -/
  retiring : List Nat := []
  /-- Consecutive CRC mismatches by cache, set and way (R149). -/
  mismatches : Tab Nat := Tab.empty
  /-- Disabled cache ways by cache, set and way (R149). -/
  ways : List Nat := []
  /-- Requests that this command has seen refused and whose master has not yet met R32; empty between commands. -/
  refused : List Request := []
  /-- Owner-check failures since the start, 0x2200:02 (R32, R539). -/
  failures : BitVec 32 := 0
deriving DecidableEq, Repr

/-- A cistern handover that runs (R179): the new owner, SCRUB, and whether one of R180 waits behind it. -/
structure Handover where
  running : Bool := false
  owner : OwnerCode := 0
  scrub : Bool := false
  /-- The handover of R180 that waits for this one or for a power transition. -/
  next : Option OwnerCode := none
deriving DecidableEq, Repr

/-- The registers of one context (R309, R419, R434) with what chapter 06 keeps beside them. G0 has no entry. -/
structure Ctx where
  g : Tab W48 := Tab.empty
  f : Tab W48 := Tab.empty
  m : Tab (BitVec 16) := Tab.empty
  vd : Tab (BitVec 144) := Tab.empty
  vfr : Word72 := 0
  pc : Addr := 0
  stw : W48 := 0x4000
  dspU : Addr := 0
  dspS : Addr := 0
  rspU : Addr := 0
  rspS : Addr := 0
  ssp : Addr := 0
  xfp : Addr := 0
  xc : W48 := 0
  xstw : W48 := 0
  xdspU : Addr := 0
  xdspS : Addr := 0
  xrspU : Addr := 0
  xrspS : Addr := 0
  xxfp : Addr := 0
  /-- The model's own number of the context, by which its splices name it (R243, R253). -/
  cid : Nat := 0
  /-- The open chain, first instruction first, and the PC of its first instruction (R219, R222). -/
  chain : List W48 := []
  chainPc : Addr := 0
deriving DecidableEq, Repr

/-- A hardware loop level of the lifeline core (R391). -/
structure Loop where
  start : Addr
  count : BitVec 24
  k : BitVec 7
deriving DecidableEq, Repr

/-- A line that the line buffer of a scalar core holds: the ply address of its word 0, its words with their poison marks, and the owner
code, world and level for which it was checked (R350). -/
structure HeldLine where
  line : Nat
  words : List (Word72 × Bool)
  code : OwnerCode
  safety : Bool
  sup : Bool
deriving DecidableEq, Repr

/-- What each core keeps beside its contexts. -/
structure CoreSt where
  /-- BANKWIN (R448). -/
  bankwin : BitVec 5 := 0
  /-- The word that the reservation is set on, by its address (R335). -/
  reservation : Option Nat := none
  /-- Instructions left in the SETMODE shadow (R314). -/
  shadow : Nat := 0
  /-- The address that follows the delay slot about to execute (R386). -/
  slot : Option Addr := none
  /-- Open loop levels, innermost first (R391). -/
  loops : List Loop := []
  /-- The belay window rests on a belay mark (R400, R437). -/
  belayMark : Bool := false
  /-- The belay window rests on IE = 0 (R400, R437). -/
  belayIe : Bool := false
  /-- The frame of the belayed handler, whose ERET ends the mark's hold (R400). -/
  belayFrame : Addr := 0
  /-- The closing instruction of the open chain waits, interruptible (R222). -/
  closing : Bool := false
  /-- A WAIT of the lifeline core is in progress (R381). -/
  waiting : Bool := false
  /-- The probe steps the core (R604). -/
  stepping : Bool := false
  /-- The core halts at the first instruction after its start (R605). -/
  haltFirst : Bool := false
  /-- A HALT of the probe waits for a boundary (R603). -/
  haltAsked : Bool := false
  /-- The lifeline core is disabled from LOCKED: FOUL_N is driven until step 3 (R408). -/
  foul : Bool := false
  /-- The line buffer of a scalar core, the line fetched last first (R350). -/
  lineBuf : List HeldLine := []
  /-- The block of window zero in the loop buffer of a scalar core: its first ply, and the poison marks of its words (R351). -/
  loopBlock : Option (Nat × List Bool) := none
deriving DecidableEq, Repr

/-- A spill or fill fault that waits for its fault bank (R447). -/
structure CapFault where
  bank : Nat
  cause : BitVec 8
  task : Nat
  underlying : BitVec 8
  addr : Addr
deriving DecidableEq, Repr

/-- What Capstan keeps for one core beside the CAP_ registers (R442 to R447). -/
structure CapSt where
  /-- READY tasks in the order in which they became ready. -/
  ready : List Nat := []
  /-- The slow tick and the event tick in which each task last became ready, by slot (R445). -/
  readyAt : Tab (Nat × Nat) := Tab.empty
  /-- Banks, most recently run first. -/
  runOrder : List Nat := []
  faults : List CapFault := []
  /-- READY tasks whose event has come since they last ran (R437). -/
  woken : List Nat := []
  /-- Writes of CAP_TSK_c_t_1 with VALID = 0 that wait for the WAIT of their task, by slot (R442). -/
  leaving : List (Nat × Reg24) := []
  /-- Banks whose victim's spill failed: not reused (R447). -/
  stuck : List Nat := []
  /-- The contexts of spilled tasks, by slot. -/
  cids : Tab Nat := Tab.empty
deriving DecidableEq, Repr

/-- The registers that a checkpoint copies (R402). -/
structure Checkpoint where
  ctx : Ctx := {}
  level : BitVec 4 := 8
deriving DecidableEq, Repr

/-- Where a splice stands (R227, R246). -/
inductive Phase where
  | waiting
  | running (pump : Nat)
  | saving (pump : Nat)
  | saved (half : Nat)
deriving DecidableEq, Repr

/-- One accumulator of a REDUCE/DOT instruction (R249); none is empty. -/
abbrev Acc := Option W48

/-- A splice that has been issued and is not final (R218 to R253). -/
structure Splice where
  /-- Order of issue. -/
  id : Nat
  core : Nat
  bank : Nat
  /-- The context that issued it. -/
  cid : Nat
  owner : OwnerCode
  /-- World and level of the issuing context: safety, supervisor. -/
  safety : Bool
  sup : Bool
  /-- The lazy area of the context for records (R247), 0 for none. -/
  lazyArea : Nat
  seq : BitVec 12
  ins : List W48
  /-- VD number, 16 more for a destination, and captured content of each descriptor, in order of first naming. -/
  descs : List (BitVec 5 × BitVec 144)
  rm : BitVec 3
  ftz : Bool
  daz : Bool
  ordered : Bool
  status : BitVec 24 := 0
  /-- The next element. -/
  elem : Nat := 0
  acc : List Acc := []
  /-- Accumulators computed from a poisoned element (R147). -/
  tainted : List Nat := []
  /-- Elements that VCMPR has written, or that VEXPZ or VEXPM has read (R286, R287). -/
  taken : Nat := 0
  phase : Phase := .waiting
  /-- Checks of the dispatcher that it has run through since its start or resumption (R228). -/
  ran : Nat := 0
  /-- Order of its last start, resumption or preemption. -/
  stamp : Nat := 0
deriving DecidableEq, Repr

/-- What the device keeps of the splices of a context (R244, R253). -/
structure Trail where
  /-- Sequence number of the next splice. -/
  seq : BitVec 12 := 0
  /-- OR of the status of the splices ended since the last VFENCE, and their number. -/
  ended : BitVec 24 := 0
  count : BitVec 24 := 0
  /-- A splice ended under R252 since the last VFENCE. -/
  taken : Bool := false
  /-- A fault record for a context that has no bank. -/
  record : Option Word72 := none
deriving DecidableEq, Repr

/-- Splices and pumps beside the registers. -/
structure SpliceSt where
  list : List Splice := []
  /-- The id of the next splice. -/
  next : Nat := 0
  /-- Starts, resumptions and preemptions so far. -/
  stamp : Nat := 0
  trails : Tab Trail := Tab.empty
  /-- What SPL_STAT_i, ELEM and SEQ read for the last splice that ended on each pump (R262). -/
  last : Tab (BitVec 24 × Nat × BitVec 12) := Tab.empty
  /-- The number of the next context. -/
  nextCid : Nat := 200
  /-- The owner code being killed, and the id of the first splice issued after the kill (R257). -/
  kill : Option (OwnerCode × Nat) := none
deriving DecidableEq, Repr

/-- An assertion of an event line that its tick has not met: the owner code carried, and the event tick in which it was made (R479,
R481). -/
structure Assertion where
  line : Nat
  code : OwnerCode
  tick : Nat
deriving DecidableEq, Repr

/-- The group action of a line that has fired, for the start of the next event tick: the line's owner, GACT and GSEL (R484). -/
structure GroupAct where
  owner : OwnerCode
  act : BitVec 2
  group : Nat
deriving DecidableEq, Repr

/-- The hardware sets of a register's W1C and RC fields in one event tick (R17, R18, R648). -/
structure SetMark where
  /-- The slow tick and the event tick. -/
  tick : Nat × Nat
  /-- The W1C bits that were set. -/
  bits : Reg24 := 0
  /-- The register before the first set of the tick; of its RC fields, what a read has not yet taken. -/
  before : Reg24
deriving DecidableEq, Repr

/-- The event lines beside EVR_LINE_n and EVR_STAT_n (R481, R483). -/
structure EventSt where
  /-- Event ticks begun, as far as firings and idle ticks show them (log 13). -/
  now : Nat := 0
  /-- Assertions not yet met, oldest first. -/
  asserted : List Assertion := []
  /-- Lines that hold an assertion for the end of their guard interval. -/
  held : List Nat := []
  /-- Lines within their guard interval, and the tick of the firing that began it. -/
  guarded : List (Nat × Nat) := []
  /-- Group actions of the lines that have fired in the present tick. -/
  acts : List GroupAct := []
  /-- Lines, timer channels and lanes whose owner is to change when the present tick ends, and the new owner (R478, R511). -/
  moved : List (Owned × OwnerCode) := []
  /-- The last hardware sets of W1C and RC fields whose clock is the event tick, by register index (R17, R18, R648). -/
  marks : Tab SetMark := Tab.empty
deriving DecidableEq, Repr

/-- The active values of a timer channel, which the registers shadow (R490), and its divider of boundary pulses
or capture edges (R487, R493). -/
structure TimerSt where
  period : Reg24 := 0xFFFFFF
  cmp : Tab Reg24 := Tab.empty
  pulses : Nat := 0
deriving DecidableEq, Repr

/-- An output lane beside its registers (R504 to R507). -/
structure LaneSt where
  /-- The transmit register holds a frame that has not entered the serialiser. -/
  waiting : Bool := false
  /-- The next frame is the safe frame. -/
  safeNext : Bool := false
  /-- The last write held while the lanes are frozen (R608). -/
  heldWrite : Option (BitVec 16) := none
  /-- A transmit event whose ring read is held at its target. -/
  asked : Bool := false
deriving DecidableEq, Repr

/-- A watchdog beside its registers (R509, R565, R609). -/
structure DogSt where
  counting : Bool := false
  /-- Slow event ticks left. -/
  left : Nat := 0
  /-- Paused outside RUN or by a halt. -/
  paused : Bool := false
  /-- The slow tick and the event tick of the halt that paused it (R614). -/
  haltAt : Option (Nat × Nat) := none
deriving DecidableEq, Repr

/-- One entry of the MSI-X table (R519, R528). -/
structure MsixEntry where
  masked : Bool := true
  addr : BitVec 64 := 0
  data : BitVec 32 := 0
deriving DecidableEq, Repr

/-- A PCI Express function beside the HST_ registers (R518 to R528, R545). -/
structure HostFn where
  d3hot : Bool := false
  memorySpace : Bool := false
  /-- The Function Mask of MSI-X. -/
  functionMask : Bool := false
  /-- ASPM L1 is enabled. -/
  aspmL1 : Bool := false
  /-- The BAR registers as last written. -/
  bars : Tab (BitVec 32) := Tab.empty
  /-- AER status: bit 0 Completer Abort, bit 1 Unsupported Request, bit 2 Poisoned TLP Received. -/
  errors : BitVec 3 := 0
  table : Tab MsixEntry := Tab.empty
  pendingBits : List Nat := []
  snapshot : List Byte := []
  staged : List Byte := []
deriving DecidableEq, Repr

/-- A request that a port receives for a function (R519 to R526). -/
inductive HostTlp where
  | registerWrite (i dw : Nat) (be : BitVec 4) (v : BitVec 32)
  /-- A write of BAR2, or what remains of it, its EP mark, and whether a word of it has failed its check (R524, R548). -/
  | windowWrite (off : Nat) (bytes : List Byte) (ep bad : Bool)
  | read (place : HostPlace) (len : Nat)
  | tableWrite (v : Nat) (e : MsixEntry)
  | unmask (v : Nat)
  | config (item : ConfigItem) (write : Bool) (v : BitVec 32)
deriving DecidableEq, Repr

/-- The CAN FD node (R534 to R541). -/
structure CanSt where
  /-- NMT state as the heartbeat carries it: 0x04 stopped, 0x05 operational, 0x7F pre-operational. -/
  nmt : Byte := 0x7F
  /-- The LSS node is in configuration state. -/
  lssConfig : Bool := false
  /-- The step of fastscan reached: which identity field. -/
  scanField : Nat := 0
  /-- The node-ID that LSS has configured and that is not yet in use (R538). -/
  nodeNew : Option Byte := none
  /-- The node-ID stored in flash. -/
  nodeStored : Option Byte := none
  /-- The bit rates that LSS has configured, nominal and data in kb/s, and those stored in flash. -/
  timingNew : Option (BitVec 16 × BitVec 16) := none
  timingStored : Option (BitVec 16 × BitVec 16) := none
  /-- Bit rates in use, in kb/s (R534). -/
  nominal : BitVec 16 := 500
  data : BitVec 16 := 2000
  /-- Open segmented USDO sessions: the client, its bus, and whether it is a download of 0x1F50:01 (R536, R595). -/
  sessions : List (BitVec 7 × Bool × Bool) := []
  /-- Monitored nodes whose heartbeat runs (R536). -/
  seen : List (BitVec 7) := []
  /-- The bus of the last SYNC consumed, and when (R535). -/
  syncBus : Option (Bool × Nat) := none
  /-- Health bits last reported by EMCY (R541). -/
  reported : BitVec 32 := 0
deriving DecidableEq, Repr

/-- One image slot (R572): erased, or with a content that the model leaves open (`epoch`, 0 as delivered), with the bytes
written since; after an interrupted command, `cut` holds the byte ranges written since then (R595). -/
structure Slot where
  erased : Bool := false
  epoch : Nat := 0
  bytes : Tab Byte := Tab.empty
  cut : Option (List (Nat × Nat)) := none
deriving DecidableEq, Repr

/-- The on-module flash (R572, R573). -/
structure Flash where
  /-- The bytes of each pointer sector from its start; an erased sector has none (R573). -/
  sector0 : List Byte := []
  sector1 : List Byte := []
  slotA : Slot := {}
  slotB : Slot := {}
  /-- The retirement record and its second copy (R153, R572). -/
  retired : List Nat := []
  retiredTwin : List Nat := []
  /-- The flash log, newest first: the two words of each entry (R572). -/
  log : List (Word72 × Word72) := []
  /-- The place of the circular log that the next entry takes (R572). -/
  logAt : Nat := 0
  /-- Log entries not yet copied into flash, newest first. -/
  unflushed : List (Word72 × Word72) := []
deriving DecidableEq, Repr

/-- The fuses (R582, R591). -/
structure Fuses where
  /-- Blown fuses of classes 0 to 4. -/
  counters : Tab Nat := Tab.empty
  /-- The 80 bytes of the customer-key record. -/
  customer : Option (List Byte) := none
deriving DecidableEq, Repr

/-- A firmware command that runs (R594), with its source and place. -/
structure FwCmd where
  op : BitVec 3
  src : Nat
  off : Nat
  len : Nat
  owner : OwnerCode
  /-- For ACTIVATE: the inactive slot verifies (R587). -/
  verified : Bool := false
deriving DecidableEq, Repr

/-- Firmware beside the FW_ registers (R581, R588, R592). -/
structure FwSt where
  /-- The slot this start runs from; none in RECOVERY or before the first start. -/
  running : Option Bool := none
  build : BitVec 32 := 0
  minsv : List Nat := []
  cmd : Option FwCmd := none
  /-- Bits 7:1 and 19:8 of 0x1F57:01. -/
  result : BitVec 7 := 0
  lastCode : BitVec 12 := 0
  /-- Slot A and slot B are known to verify: found at entry of RECOVERY or by ACTIVATE, and not written since (R590). -/
  goodA : Bool := false
  goodB : Bool := false
  /-- The lifeline image of the running start: first word of its copy, payload words, code length C (R383, R581). -/
  lifeline : Option (Nat × Nat × Nat) := none
  /-- The authenticated copies of the patches and of the customer image: component type, address, and the payload that was written there
  (R473, R581). -/
  copies : List (Nat × Nat × List Byte) := []
deriving DecidableEq, Repr

/-- The debug block beside the DBG_ registers (R596, R597, R610, R611). -/
structure DbgSt where
  /-- The TAP controller is in Test-Logic-Reset (R596). -/
  testReset : Bool := true
  /-- The instruction register of the TAP (R596). -/
  ir : BitVec 5 := 1
  /-- Trace packets waiting, oldest first; of one that the cistern ring has taken in part, the rest (R610 to R612). -/
  fifo : List (List Byte) := []
  /-- Packets lost since the last overflow packet. -/
  lost : Nat := 0
  /-- The next word of the cistern ring (R612). -/
  ringAt : Nat := 0
  /-- The result of the last AFTAR_ACC access: STS, ADDR, DATA, and ADDR after AUTOINC (R597). -/
  sts : BitVec 3 := 0
  addr : Addr := 0
  data : Word72 := 0
  next : Addr := 0
  /-- An access that waits for its target: its operation, address, data and AUTOINC. -/
  busy : Option (BitVec 3 × Addr × Word72 × Bool) := none
deriving DecidableEq, Repr

/-- The state of the block. -/
structure State where
  /-- The commands that wait, first in first out. -/
  pending : List Instr
  /-- Slow event ticks since the start, the TIME of R164. -/
  clock : Nat
  /-- The model's own count of free values drawn (log 1). -/
  free : Nat
  /-- Messages that left the device, newest first (log 2). -/
  sent : List Msg
  /-- Control registers by index (R35); an unlisted one reads as its reset value. -/
  regs : Tab Reg24
  /-- Registers whose RWS fields are written in this start (R19). -/
  rwsDone : List Nat
  pwr : Power
  modes : ModeSeq
  /-- Coded words by the address that folds them (R139); an unlisted one is a clean zero word. -/
  mem : Tab StoredWord
  /-- Frame-table entries that differ from the layout in force (R111, R120). -/
  frames : Tab FEntry
  store : StoreSt
  handovers : Tab Handover
  /-- Contexts: core × 32 + bank, and 128 for the lifeline core (R309). -/
  ctxs : Tab Ctx
  cores : Tab CoreSt
  caps : Tab CapSt
  checkpoint : Option Checkpoint
  /-- TIMEs of the roll-backs of the last second (R405). -/
  rollbacks : List Nat
  splices : SpliceSt
  events : EventSt
  timers : Tab TimerSt
  lanes : Tab LaneSt
  /-- For each input lane the slow tick and the event tick in which its receive timeout last restarted (R502, R503). -/
  rxSince : Tab (Nat × Nat)
  dogs : Tab DogSt
  hosts : Tab HostFn
  /-- Requests received on a port and not yet applied, oldest first, each with its function (R520, R526). -/
  hostQueue : List (Nat × HostTlp)
  can : CanSt
  /-- Stored values of the writable objects, by index × 256 + subindex, little-endian. -/
  od : Tab (List Byte)
  /-- Defaults of objects that the image of the last start set (R579). -/
  odBase : Tab (List Byte)
  /-- The values of 0x2010 and 0x2011 in force (R29). -/
  inForce : Tab (List Byte)
  flash : Flash
  fuses : Fuses
  fw : FwSt
  dbg : DbgSt
deriving DecidableEq, Repr

/-- The instant at which VIN_AUX becomes valid (R550, R554; log 4): STANDBY, every register at its Reset value, nothing
in memory, no command waiting. -/
def State.reset : State where
  pending := []
  clock := 0
  free := 0
  sent := []
  regs := Tab.empty
  rwsDone := []
  pwr := {}
  modes := {}
  mem := Tab.empty
  frames := Tab.empty
  store := {}
  handovers := Tab.empty
  ctxs := Tab.empty
  cores := Tab.empty
  caps := Tab.empty
  checkpoint := none
  rollbacks := []
  splices := {}
  events := {}
  timers := Tab.empty
  lanes := Tab.empty
  rxSince := Tab.empty
  dogs := Tab.empty
  hosts := Tab.empty
  hostQueue := []
  can := {}
  od := Tab.empty
  odBase := Tab.empty
  inForce := Tab.empty
  flash := {}
  fuses := {}
  fw := {}
  dbg := {}

end Sys2Proof.Machine
end

