-- ==== Sys2Proof/Machine/Base.lean ====
section
/-! DEFINITION. Reading and writing the parts of the state: registers and their fields, contexts, the layout in force,
who acts with which owner code, the modes, and the free values. -/

namespace Sys2Proof.Machine

/-- What a control register holds. -/
def rd (s : State) (r : Rg) : Reg24 := s.regs.get r.index r.reset

/-- A control register takes a value, in the canonical form of the table. -/
def wr (s : State) (r : Rg) (v : Reg24) : State := { s with regs := s.regs.put r.index v r.reset }

/-- Field [lo + len − 1 : lo] of a register. -/
def rdF (s : State) (r : Rg) (lo len : Nat) : BitVec len := bits (rd s r) lo len

/-- Bit `i` of a register. -/
def rdB (s : State) (r : Rg) (i : Nat) : Bool := bit (rd s r) i

/-- A field of a register takes a value. -/
def wrF {len : Nat} (s : State) (r : Rg) (lo : Nat) (x : BitVec len) : State := wr s r (setBits (rd s r) lo x)

/-- A bit of a register takes a value. -/
def wrB (s : State) (r : Rg) (i : Nat) (b : Bool) : State := wr s r (setBit (rd s r) i b)

/-- A counter field of a register counts up by `k` and saturates. -/
def bumpF (s : State) (r : Rg) (lo len k : Nat) : State := wr s r (bumpField (rd s r) lo len k)

/-! Hardware sets of W1C and RC fields, and accesses in the same clock (R17, R18, R648). -/

/-- The clock of a register's block is the event tick: the EVR_, TMR_, SMP_, MOD_ and DBG_ registers (R40, R550, R648). -/
def ticked (i : Nat) : Bool := (0x4400 ≤ i && i < 0x5000) || (0x5400 ≤ i && i < 0x5800) || 0x5C00 ≤ i

/-- What the hardware has set in a register in the event tick in force; a set in any other clock than the tick coincides with no access,
since two commands never share one (log 168). -/
def marked (s : State) (r : Rg) : Option SetMark :=
  (s.events.marks.find r.index).filter (fun m => m.tick == (s.clock, s.events.now))

/-- The hardware sets bits `b` of the W1C fields of a register, or counts in its RC fields, in this tick. -/
def markSet (s : State) (r : Rg) (b : Reg24) : State :=
  if ticked r.index then
    let m : SetMark := match marked s r with
      | some m => { m with bits := m.bits ||| b }
      | none => { tick := (s.clock, s.events.now), bits := b, before := rd s r }
    { s with events := { s.events with marks := s.events.marks.insert r.index m } }
  else s

/-- The hardware sets a W1C bit of a register. -/
def setFlag (s : State) (r : Rg) (i : Nat) : State := wrB (markSet s r (setBit 0 i true)) r i true

/-- The hardware counts in an RC field of a register. -/
def tally (s : State) (r : Rg) (lo len k : Nat) : State := bumpF (markSet s r 0) r lo len k

/-- The W1C bits that a write in this clock cannot clear (R17). -/
def justSet (s : State) (r : Rg) : Reg24 := match marked s r with | some m => m.bits | none => 0

/-- A message leaves the device (log 2). -/
def send (s : State) (m : Msg) : State := { s with sent := m :: s.sent }

/-- A frame leaves on CANA and CANB, which send nothing while the crystal is lost (R626) and are recessive while RESET_N is low (R567). -/
def sendCan (s : State) (m : Msg) : State := if s.pwr.crystal && s.pwr.resetN then send s m else s

/-- The next free value of width `w` (log 1). -/
def drawBits (w : Nat) (s : State) : BitVec w × State := (Config.freeBits w s.free, { s with free := s.free + 1 })

/-- The next free choice (log 1). -/
def drawBool (s : State) : Bool × State := (Config.freeBool s.free, { s with free := s.free + 1 })

/-- The next free number (log 1). -/
def drawNat (s : State) : Nat × State := (Config.freeNat s.free, { s with free := s.free + 1 })

/-! Modes (R549, R570). -/

/-- MODE of MOD_STAT. -/
def mode (s : State) : BitVec 8 := rdF s .modStat 0 8

/-- The device is in RUN. -/
def inRun (s : State) : Bool := mode s == 6

/-- The device is in BRING-UP. -/
def inBringUp (s : State) : Bool := mode s == 2

/-- The device is in RECOVERY. -/
def inRecovery (s : State) : Bool := mode s == 7

/-- The device is in a READY depth. -/
def inReady (s : State) : Bool := mode s == 3 || mode s == 4 || mode s == 5

/-- The fast event domain runs: RUN and READY depth 1 (R486, R508). -/
def fastEvents (s : State) : Bool := mode s == 6 || mode s == 3

/-- PHASE of MOD_STAT: 0 settled, 1 draining, 2 entering, 3 waking. -/
def phase (s : State) : BitVec 2 := rdF s .modStat 10 2

/-! The lifeline (R417, R652). -/

/-- STATE of LL_STAT. -/
def llState (s : State) : BitVec 3 := rdF s .llStat 0 3

/-- Lifeline is enabled: ENABLING, ENABLED, RECOVERING or LOCKED (R652). -/
def llEnabled (s : State) : Bool := llState s == 1 || llState s == 2 || llState s == 3 || llState s == 5

/-- Lifeline is DISABLED. -/
def llDisabled (s : State) : Bool := llState s == 0

/-- What cistern 15, the local store and the reservations take lifeline for: enabled until step 3 of R408 (R652). -/
def llHolds (s : State) : Bool := !llDisabled s

/-- The number of the lifeline pump. -/
def llPump (s : State) : Nat := (rdF s .llStat 9 4).toNat

/-! The layout in force (R28, R530, R532). -/

/-- The key of an object-dictionary entry. -/
def odKey (index sub : Nat) : Nat := index * 256 + sub

/-- The default values of 0x2010, 0x2011, 0x2020, 0x2001 and 0x2100 (R530, R532, R534, R539), and of the communication objects
(R536; those of CiA 1301 where R536 gives none, PRESUMED, log 55). -/
def odDefault (k : Nat) : List Byte :=
  let sub := k % 256
  match k / 256 with
  | 0x2010 =>
    if sub = 1 then leBytes 4 0x19 else if 2 ≤ sub ∧ sub ≤ 4 then leBytes 4 0x18
    else if 5 ≤ sub ∧ sub ≤ 8 then List.replicate 16 0 else [0]
  | 0x2011 =>
    if 1 ≤ sub ∧ sub ≤ 4 then leBytes 4 0
    else if sub = 5 then leBytes 4 2080768 else if 6 ≤ sub ∧ sub ≤ 8 then leBytes 4 0
    else if sub = 9 then leBytes 4 65536 else if 10 ≤ sub ∧ sub ≤ 12 then leBytes 4 0
    else if sub = 13 then [0] else if sub = 14 then leBytes 2 0xF
    else if sub = 16 then List.replicate 256 0 else List.replicate 16 0
  | 0x2020 => if sub = 1 then leBytes 2 500 else leBytes 2 2000
  | 0x2001 => [6]
  | 0x2100 => leBytes 4 0xFFFFFFFF
  | 0x1005 => leBytes 4 0x80
  | 0x1017 => leBytes 2 100
  | i =>
    if i = 0x1006 ∨ i = 0x1016 then leBytes 4 0
    else if 0x1800 ≤ i ∧ i < 0x1808 then
      (if sub = 1 then leBytes 4 0x80000000 else if sub = 3 ∨ sub = 5 then leBytes 2 0 else if sub = 2 then [0xFE] else [0])
    else if 0x1A00 ≤ i ∧ i < 0x1A08 then (if sub = 0 then [0] else leBytes 4 0)
    else []

/-- A value of the layout or bindings in force. -/
def layoutBytes (s : State) (index sub : Nat) : List Byte :=
  s.inForce.get (odKey index sub) (odDefault (odKey index sub))

/-- A number of the layout or bindings in force. -/
def layoutNat (s : State) (index sub : Nat) : Nat := leNat (layoutBytes s index sub)

/-- The stored value of an object, or its default: that of the image (R579), or of the tables. -/
def odBytes (s : State) (index sub : Nat) : List Byte :=
  let k := odKey index sub
  s.od.get k (s.odBase.get k (odDefault k))

/-- The partition of scalar core `c` (R28, R532). -/
def partOf (s : State) (c : Nat) : Nat := layoutNat s 0x2011 13 / 4 ^ c % 4

/-- The home partition of a resource from its owner byte in the layout in force (R532). -/
def homeOf (s : State) (sub n : Nat) : Nat := ((layoutBytes s 0x2011 sub).getD n 0).toNat / 16 % 4

/-- The initial owner of a resource from its owner byte in the layout in force (R532). -/
def initialOwner (s : State) (sub n : Nat) : OwnerCode := ((layoutBytes s 0x2011 sub).getD n 0).setWidth 4

/-- The owner code of world `w` of partition `p` (R24). -/
def ownerCode (p : Nat) (w : Bool) : OwnerCode := BitVec.ofNat 4 (2 * p + cond w 1 0)

/-- The partition that an owner code 0b0ppw names; 4 for any other code. -/
def codePart (c : OwnerCode) : Nat := if c.toNat < 8 then c.toNat / 2 else 4

/-- The reserved owner codes of R24. -/
def reservedCode (c : OwnerCode) : Bool := 9 ≤ c.toNat && c.toNat ≤ 14

/-- The world of an owner code: safety for 0b1000, otherwise bit 0 (R476). -/
def codeSafety (c : OwnerCode) : Bool := c == 8 || bit c 0

/-- One bit of a CRC-32 with the reflected polynomial 0xEDB88320 (R573; log 155). -/
def crc32Step (c : BitVec 32) : BitVec 32 := if bit c 0 then c >>> 1 ^^^ 0xEDB88320 else c >>> 1

/-- The CRC-32 after one more byte. -/
def crc32Byte (c : BitVec 32) (b : Byte) : BitVec 32 :=
  crc32Step (crc32Step (crc32Step (crc32Step (crc32Step (crc32Step (crc32Step (crc32Step (c ^^^ b.setWidth 32))))))))

/-- The CRC-32 of bytes (R573): it begins with all ones and is inverted at the end (log 155). -/
def crc32 (l : List Byte) : BitVec 32 := ~~~(l.foldl crc32Byte 0xFFFFFFFF)

/-- Bytes 0 to 11 of a pointer record: MAGIC, SEQ, SLOT and zeros (R573). -/
def pointerHead (seq : BitVec 32) (slot : Bool) : List Byte :=
  leBytes 4 0x50544B58 ++ leBytes 4 seq.toNat ++ [cond slot 1 0, 0, 0, 0]

/-- The 16 bytes of a pointer record (R573). -/
def pointerRecord (seq : BitVec 32) (slot : Bool) : List Byte :=
  pointerHead seq slot ++ leBytes 4 (crc32 (pointerHead seq slot)).toNat

/-- SEQ and SLOT of the record at the beginning of a pointer sector; none where MAGIC or the CRC does not hold (R573). A SLOT byte other than 1
is read as slot A (log 155). -/
def readPointer (l : List Byte) : Option (BitVec 32 × Bool) :=
  if leNat (l.take 4) = 0x50544B58 ∧ (l.drop 12).take 4 = leBytes 4 (crc32 (l.take 12)).toNat then
    some (BitVec.ofNat 32 (leNat ((l.drop 4).take 4)), l.getD 8 0 == 1)
  else none

/-- The pointer record that names the active slot: its SEQ, its SLOT, and whether it lies in sector 1 (R573). -/
def pointer (s : State) : Option (BitVec 32 × Bool × Bool) :=
  match readPointer s.flash.sector0, readPointer s.flash.sector1 with
  | some a, some b => if b.1 = a.1 + 1 ∧ a.1 ≠ b.1 + 1 then some (b.1, b.2, true) else some (a.1, a.2, false)
  | some a, none => some (a.1, a.2, false)
  | none, some b => some (b.1, b.2, true)
  | none, none => none

/-- The active slot: B when true (R573). -/
def activeSlot (s : State) : Bool := match pointer s with | some p => p.2.1 | none => false

/-! Contexts (R309, R419). -/

/-- The key of bank `b` of core `c`; the lifeline core has one context. -/
def ctxKey (c b : Nat) : Nat := if c = 4 then 128 else 32 * c + b

/-- The running bank of core `c` (R452). -/
def bankOf (s : State) (c : Nat) : Nat := if c = 4 then 0 else (rdF s (.capStat c) 2 5).toNat

/-- What a context that has not been created holds. -/
def freshCtx (k : Nat) : Ctx := if k = 128 then { stw := 0x0000000000107000, cid := 128 } else { cid := k }

/-- A context by key. -/
def ctxAt (s : State) (k : Nat) : Ctx := s.ctxs.get k (freshCtx k)

/-- A context takes a value. -/
def setCtxAt (s : State) (k : Nat) (x : Ctx) : State := { s with ctxs := s.ctxs.put k x (freshCtx k) }

/-- The running context of a core. -/
def ctxOf (s : State) (c : Nat) : Ctx := ctxAt s (ctxKey c (bankOf s c))

/-- The running context of a core takes a value. -/
def setCtx (s : State) (c : Nat) (x : Ctx) : State := setCtxAt s (ctxKey c (bankOf s c)) x

/-- What a core keeps beside its contexts. -/
def coreOf (s : State) (c : Nat) : CoreSt := s.cores.get c {}

/-- It takes a value. -/
def setCore (s : State) (c : Nat) (x : CoreSt) : State := { s with cores := s.cores.put c x {} }

/-- What Capstan keeps for a core. -/
def capOf (s : State) (c : Nat) : CapSt := s.caps.get c {}

/-- It takes a value. -/
def setCap (s : State) (c : Nat) (x : CapSt) : State := { s with caps := s.caps.put c x {} }

/-- General register `n` of a context; G0 reads as zero (R309). -/
def Ctx.gr (x : Ctx) (n : Nat) : W48 := if n = 0 then 0 else x.g.get n 0

/-- A write of general register `n`; a write of G0 is discarded (R309). -/
def Ctx.setGr (x : Ctx) (n : Nat) (v : W48) : Ctx := if n = 0 then x else { x with g := x.g.put n v 0 }

/-- Floating register `n` of a context. -/
def Ctx.fr (x : Ctx) (n : Nat) : W48 := x.f.get n 0

/-- A write of floating register `n`. -/
def Ctx.setFr (x : Ctx) (n : Nat) (v : W48) : Ctx := { x with f := x.f.put n v 0 }

/-- Mask register `n` of a context. -/
def Ctx.mr (x : Ctx) (n : Nat) : BitVec 16 := x.m.get n 0

/-- A write of mask register `n`. -/
def Ctx.setMr (x : Ctx) (n : Nat) (v : BitVec 16) : Ctx := { x with m := x.m.put n v 0 }

/-- Descriptor `n` of a context. -/
def Ctx.vdr (x : Ctx) (n : Nat) : BitVec 144 := x.vd.get n 0

/-- A write of descriptor `n`. -/
def Ctx.setVdr (x : Ctx) (n : Nat) (v : BitVec 144) : Ctx := { x with vd := x.vd.put n v 0 }

/-- STW.LVL: supervisor level (R312). -/
def Ctx.sup (x : Ctx) : Bool := bit x.stw 12

/-- STW.WORLD: safety world (R312). -/
def Ctx.safety (x : Ctx) : Bool := bit x.stw 13

/-- General register `n` of the running context of core `c`. -/
def getG (s : State) (c n : Nat) : W48 := (ctxOf s c).gr n

/-- A write of it. -/
def setG (s : State) (c n : Nat) (v : W48) : State := setCtx s c ((ctxOf s c).setGr n v)

/-- Floating register `n` of the running context of core `c`. -/
def getFr (s : State) (c n : Nat) : W48 := (ctxOf s c).fr n

/-- A write of it. -/
def setFr (s : State) (c n : Nat) (v : W48) : State := setCtx s c ((ctxOf s c).setFr n v)

/-- The STW of the running context of core `c` takes a value. -/
def setStw (s : State) (c : Nat) (v : W48) : State := setCtx s c { ctxOf s c with stw := v }

/-- An address as PC takes it: a multiple of 4 always (R315; log 14). -/
def pcAlign (a : Addr) : Addr := a &&& ~~~3

/-- The PC of the running context of core `c`. -/
def pcOf (s : State) (c : Nat) : Addr := (ctxOf s c).pc

/-- It takes a value. -/
def setPc (s : State) (c : Nat) (a : Addr) : State := setCtx s c { ctxOf s c with pc := a }

/-! Who acts (R16, R31, R114). -/

/-- The owner code, world and level with which an actor acts, and whether it is boot firmware. -/
structure Auth where
  code : OwnerCode
  safety : Bool
  sup : Bool
  boot : Bool := false
  /-- The host function, for a write through BAR0. -/
  host : Option Nat := none
  aftar : Bool := false
deriving DecidableEq, Repr

/-- The owner code that the running context of a core carries (R31). -/
def coreCode (s : State) (c : Nat) : OwnerCode := if c = 4 then 8 else ownerCode (partOf s c) (ctxOf s c).safety

/-- The owner code that a master carries for code `c`: no master carries 0b1000 while lifeline is disabled (R129). -/
def carried (s : State) (c : OwnerCode) : OwnerCode := if c = 8 ∧ ¬ llHolds s then 0xF else c

/-- The authority of a writer of control registers (R16, R522, R598); in BRING-UP a scalar core runs boot firmware (R351; log 136). -/
def authOf (s : State) : Writer → Auth
  | .scalar c => { code := coreCode s c, safety := (ctxOf s c).safety, sup := (ctxOf s c).sup, boot := inBringUp s }
  | .lifeline => { code := carried s 8, safety := true, sup := true }
  | .host f => { code := ownerCode f false, safety := false, sup := true, host := some f }
  | .aftar =>
    let o := carried s (rdF s .dbgCtl 1 4)
    { code := o, safety := codeSafety o && o != 0xF, sup := true, aftar := true }
  | .boot => { code := 0xF, safety := true, sup := true, boot := true }

/-- Safety-world supervisor code of partition `p`. -/
def Auth.safSup (a : Auth) (p : Nat) : Bool := a.safety && a.sup && a.code == ownerCode p true

/-- Safety-world supervisor code of any partition. -/
def Auth.anySafSup (a : Auth) : Bool := a.safety && a.sup && a.code.toNat < 8

/-- The lifeline core. -/
def Auth.lifeline (a : Auth) : Bool := a.code == 8

/-- Supervisor-level code of world `w` of partition `p`. -/
def Auth.supOf (a : Auth) (p : Nat) (w : Bool) : Bool := a.sup && a.code == ownerCode p w

/-- The core that a number names is halted by the probe (R603). -/
def halted (s : State) (c : Nat) : Bool := rdB s .dbgStat c

/-- Cores run in loop-buffer mode: in BRING-UP and RECOVERY (R351). -/
def loopMode (s : State) : Bool := inBringUp s || inRecovery s

/-- Core `c` executes instructions: in RUN before the point of no return, neither halted nor locked nor idle (R452, R555, R603), the
lifeline core ENABLED and not in a WAIT (R381, R417); in loop-buffer mode a scalar core that is not locked, though it has no task (R351;
log 136). -/
def coreRuns (s : State) (c : Nat) : Bool :=
  !halted s c &&
  (if loopMode s then decide (c < 4) && rdF s (.capStat c) 0 2 != 2
   else inRun s && (phase s == 0 || phase s == 1) &&
    (if c = 4 then llState s == 2 && !(coreOf s 4).waiting else rdF s (.capStat c) 0 2 == 0))

/-- The partition of a code is bound: its function is enabled or a client node-ID is bound to it (R551). -/
def bound (s : State) (p : Nat) : Bool :=
  layoutNat s 0x2010 (p + 1) % 2 == 1 || (layoutBytes s 0x2010 (p + 5)).any (fun b => b != 0)

/-- Block bits of DBG_FREEZE: pump `i`, 16 SCR, 17 TMR, 18 EVR, 19 SMP, 20 SDMA, with FRZHALT (R608). -/
def frozen (s : State) (i : Nat) : Bool :=
  rdB s .dbgFreeze i || (rdB s .dbgCtl 7 && rdF s .dbgStat 0 5 != 0)

end Sys2Proof.Machine
end

