-- ==== Sys2Proof/Machine/Address.lean ====
section
/-! DEFINITION. Addresses: the regions of the physical memory map and their words (R7, R33, R34), frames and channels (R39, R82, R109),
banks (R86, R87), scrub units (R155), and the fold of an address (R138). -/

namespace Sys2Proof.Machine

/-- The first ply address of the sump channel (R33). -/
def sumpBase : Nat := 0x1C00000000

/-- A region of the physical memory map (R33). -/
inductive Region where
  | window
  | cistern (n : Nat)
  | registers
  | controlStore
  | localStore
  | deep
  | sump
deriving DecidableEq, Repr

/-- The first ply address of a region (R33). -/
def Region.base : Region → Nat
  | .window => 0
  | .cistern n => 0x10000000 + n * 0x300000
  | .registers => 0x40000000
  | .controlStore => 0x50000000
  | .localStore => 0x60000000
  | .deep => 0x100000000
  | .sump => sumpBase

/-- The number of plies of a region (R33). -/
def Region.size : Region → Nat
  | .window => 262144
  | .cistern _ => 3145728
  | .registers => 2097152
  | .controlStore => 262144
  | .localStore => 49152
  | .deep => 102273908736
  | .sump => 805306368

/-- The region that holds a ply address (R33, R34). -/
def regionOf (a : Nat) : Option Region :=
  if a < 262144 then some .window
  else if 0x10000000 ≤ a ∧ a < 0x13000000 then some (.cistern ((a - 0x10000000) / 0x300000))
  else if 0x40000000 ≤ a ∧ a < 0x40200000 then some .registers
  else if 0x50000000 ≤ a ∧ a < 0x50040000 then some .controlStore
  else if 0x60000000 ≤ a ∧ a < 0x6000C000 then some .localStore
  else if 0x100000000 ≤ a ∧ a < 0x18D0000000 then some .deep
  else if sumpBase ≤ a ∧ a < 0x1C30000000 then some .sump
  else none

/-- The ply offset of an address from the base of its region; the address itself outside every region. -/
def plyOffset (a : Nat) : Nat := match regionOf a with | some r => a - r.base | none => a

/-- The word index of an address within its region (R7). -/
def wordIndex (a : Nat) : Nat := plyOffset a / 6

/-- The ply address of ply 0 of the word that holds address `a` (R7). -/
def wordBase (a : Nat) : Nat := a - plyOffset a % 6

/-- The ply number of an address within its word (R7). -/
def plyInWord (a : Nat) : Nat := plyOffset a % 6

/-- The frame number of a deep-store or sump address (R109). -/
def frameOf (a : Nat) : Nat :=
  if a < sumpBase then (a - 0x100000000) / 6 / 8192 else 2080768 + (a - sumpBase) / 6 / 8192

/-- The ply address of the first word of a frame (R109). -/
def frameBase (n : Nat) : Nat :=
  if n < 2080768 then 0x100000000 + 0xC000 * n else sumpBase + 0xC000 * (n - 2080768)

/-- The channel of a deep-store or sump address (R39, R82). -/
def channelOf (a : Nat) : Nat := if a < sumpBase then (a - 0x100000000) / 6 % 127 else 127

/-- The row word of a deep-store address, or the sump word index of a sump address (R39, R86, R87). -/
def rowWord (a : Nat) : Nat := if a < sumpBase then (a - 0x100000000) / 6 / 127 else (a - sumpBase) / 6

/-- The bank of a deep-store or sump address (R86, R87): r[4:0] XOR r[9:5] XOR r[14:10] of its row word. -/
def bankOfWord (a : Nat) : Nat := ((rowWord a % 32) ^^^ (rowWord a / 32 % 32)) ^^^ (rowWord a / 1024 % 32)

/-- The word within its bank: r[26:5] (R86). -/
def wordInBank (a : Nat) : Nat := rowWord a / 32

/-- The bank row: r[26:11] (R86). -/
def bankRow (a : Nat) : Nat := rowWord a / 2048

/-- The column of the bank row: r[10:5] (R86). -/
def bankColumn (a : Nat) : Nat := rowWord a / 32 % 64

/-- The word lies in the deep store or the sump channel. -/
def inFrames (key : Nat) : Bool := 0x100000000 ≤ key

/-- The scrub unit of a word (R155). -/
def unitOf (a : Nat) : Nat :=
  match regionOf a with
  | some (.cistern n) => 128 + n
  | some .controlStore => 146
  | some .localStore => 156
  | some .deep => channelOf a
  | some .sump => 127
  | _ => if 0x58000000 ≤ a ∧ a < 0x5800C000 then 147 else if 0x60010000 ≤ a ∧ a < 0x60010300 then 157 else 145

/-- The fold of the ply address of ply 0 of a word: A[15:0] XOR A[31:16] XOR A[39:32] (R138). -/
def foldOf (a : Nat) : BitVec 16 := BitVec.ofNat 16 a ^^^ BitVec.ofNat 16 (a / 2 ^ 16) ^^^ BitVec.ofNat 16 (a / 2 ^ 32 % 256)

end Sys2Proof.Machine
end

