-- ==== Sys2Proof/Machine/Cache.lean ====
section
/-! DEFINITION. The contents of the caches: lines and their CRC (R148, R346), the first-level caches and L2 as tables of lines, and the
coded entries of the frame-table cache (R117, R118). How cores and the device use them stands in Memory. -/

namespace Sys2Proof.Machine

/-! Lines (R346). -/

/-- Words of regions that are cached: the deep store, the sump, and window zero, which is cached while REMAP is 0 (R347). -/
def cacheable (key : Nat) : Bool := inFrames key || key < 262144

/-- The ply address of word 0 of the line that holds an address (R346). -/
def lineOf (a : Nat) : Nat := wordBase a - 6 * (wordIndex a % 8)

/-- The place of a word in its line. -/
def lineSlot (a : Nat) : Nat := wordIndex a % 8

/-- The number of a line in its region; its low bits pick its set (DESIGN CHOICE, log 119). -/
def lineNumber (a : Nat) : Nat := wordIndex a / 8

/-- One step of the CRC-16 with polynomial x^16 + x^12 + x^5 + 1 (R148). -/
def crcStep (c : BitVec 16) (b : Bool) : BitVec 16 := (c <<< 1) ^^^ (if bit c 15 != b then 0x1021 else 0)

/-- The CRC of a line over the data bits of its words, in ascending bit order from bit 0 of word 0, from 0xFFFF (R148). -/
def crc16 (l : List (Word72 × Bool)) : BitVec 16 :=
  l.foldl (fun c w => (List.range 72).foldl (fun c i => crcStep c (bit w.1 i)) c) 0xFFFF

/-- A line as a fill leaves it in a way: its CRC is that of its words (R148). -/
def L1Line.filled (way line : Nat) (words : List (Word72 × Bool)) : L1Line := { way, line, words, crc := crc16 words }

/-- The CRC difference of a line: zero while its words are those that were filled (R149). -/
def L1Line.difference (l : L1Line) : BitVec 16 := crc16 l.words ^^^ l.crc

/-- A line after a store to one of its words: the CRC follows the change, so that an earlier upset stays visible. -/
def L1Line.stored (l : L1Line) (slot : Nat) (w : Word72 × Bool) : L1Line :=
  let words := l.words.set slot w
  { l with words, crc := l.crc ^^^ crc16 l.words ^^^ crc16 words }

/-- A line with stored bit `i` of its 576 data bits inverted. -/
def L1Line.upset (l : L1Line) (i : Nat) : L1Line :=
  { l with words := l.words.modify (i / 72) (fun w => (w.1 ^^^ (1 : Word72) <<< (i % 72), w.2)) }

/-! First-level caches. -/

/-- The unit number of the data cache or the instruction cache of a core (R166). -/
def l1Unit (c : Nat) (fetch : Bool) : Nat := 148 + c + cond fetch 4 0

/-- The set of a first-level cache that an address falls into. -/
def l1Set (a : Nat) : Nat := lineNumber a % 256

/-- The key of a set of a first-level cache. -/
def l1Key (c : Nat) (fetch : Bool) (set : Nat) : Nat := c * 512 + cond fetch 256 0 + set

/-- The key of a way of a first-level cache, for its mismatches and for being disabled. -/
def wayKey (c : Nat) (fetch : Bool) (set way : Nat) : Nat := l1Unit c fetch * 1024 + set * 4 + way

/-- The lines of the set of an address, most recent first. -/
def StoreSt.l1Lines (st : StoreSt) (c : Nat) (fetch : Bool) (a : Nat) : List L1Line := st.l1.get (l1Key c fetch (l1Set a)) []

/-- They take a value. -/
def StoreSt.setL1 (st : StoreSt) (c : Nat) (fetch : Bool) (a : Nat) (l : List L1Line) : StoreSt :=
  { st with l1 := st.l1.put (l1Key c fetch (l1Set a)) l [] }

/-- The line of an address in a first-level cache. -/
def StoreSt.l1Find (st : StoreSt) (c : Nat) (fetch : Bool) (a : Nat) : Option L1Line :=
  (st.l1Lines c fetch a).find? (fun l => l.line == lineOf a)

/-- A line goes to the front of its set. -/
def StoreSt.l1Front (st : StoreSt) (c : Nat) (fetch : Bool) (a : Nat) (l : L1Line) : StoreSt :=
  st.setL1 c fetch a (l :: (st.l1Lines c fetch a).filter (fun x => x.line != lineOf a))

/-- A line leaves a first-level cache. -/
def StoreSt.l1Leave (st : StoreSt) (c : Nat) (fetch : Bool) (a : Nat) : StoreSt :=
  st.setL1 c fetch a ((st.l1Lines c fetch a).filter (fun x => x.line != lineOf a))

/-- The copies of a line leave every first-level cache (R348, R349), the data cache of core `keep` apart (4 for none). -/
def StoreSt.l1Drop (st : StoreSt) (a keep : Nat) : StoreSt :=
  (List.range 4).foldl (fun t c =>
    let t1 := if c = keep then t else t.l1Leave c false a
    t1.l1Leave c true a) st

/-- The ways of the set of an address that take fills: those not disabled (R149). -/
def StoreSt.openWays (st : StoreSt) (c : Nat) (fetch : Bool) (a : Nat) : List Nat :=
  (List.range 4).filter (fun w => wayKey c fetch (l1Set a) w ∉ st.ways)

/-- A line is filled into a first-level cache: into an empty way, or that of the least recent line (R346); with every way disabled,
into none. -/
def StoreSt.l1Fill (st : StoreSt) (c : Nat) (fetch : Bool) (a : Nat) (words : List (Word72 × Bool)) : StoreSt :=
  let l := (st.l1Lines c fetch a).filter (fun x => x.line != lineOf a)
  let ways := st.openWays c fetch a
  match ways.find? (fun w => !l.any (fun x => x.way == w)) with
  | some w => st.setL1 c fetch a (L1Line.filled w (lineOf a) words :: l)
  | none => match (l.filter (fun x => ways.contains x.way)).getLast? with
    | some x => st.setL1 c fetch a (L1Line.filled x.way (lineOf a) words :: l.filter (fun y => y.way != x.way))
    | none => st

/-! L2. -/

/-- The key of a way of the L2 set of an address. -/
def l2Key (a way : Nat) : Nat := lineNumber a % 16384 * 16 + way

/-- The way of L2 that holds the line of an address. -/
def StoreSt.l2Way (st : StoreSt) (a : Nat) : Option Nat :=
  (List.range 16).find? (fun w => (st.l2.find (l2Key a w)).any (fun l => l.line == lineOf a))

/-- The L2 line that holds a word. -/
def StoreSt.l2Find (st : StoreSt) (a : Nat) : Option L2Line :=
  match st.l2Way a with
  | some w => st.l2.find (l2Key a w)
  | none => none

/-- The copy of a word that L2 holds. -/
def StoreSt.l2Word (st : StoreSt) (a : Nat) : Option StoredWord := (st.l2Find a).bind (fun l => l.words[lineSlot a]?)

/-- The copy of a word that a dirty line of L2 holds: what every master reads (R348). -/
def StoreSt.l2Dirty (st : StoreSt) (a : Nat) : Option StoredWord :=
  (st.l2Find a).bind (fun l => if l.dirty then l.words[lineSlot a]? else none)

/-- The copy of a word that L2 holds takes a value; where it holds none, nothing changes. -/
def StoreSt.putL2 (st : StoreSt) (a : Nat) (x : StoredWord) : StoreSt :=
  match st.l2Way a with
  | none => st
  | some w => match st.l2.find (l2Key a w) with
    | none => st
    | some l => { st with l2 := st.l2.insert (l2Key a w) { l with words := l.words.set (lineSlot a) x } }

/-- The L2 line of an address is dirty. -/
def StoreSt.soil (st : StoreSt) (a : Nat) : StoreSt :=
  match st.l2Way a with
  | none => st
  | some w => match st.l2.find (l2Key a w) with
    | none => st
    | some l => { st with l2 := st.l2.insert (l2Key a w) { l with dirty := true } }

/-- A write by anyone but a scalar core has left `x` in the word: L2's copy follows and first-level copies go (R348). -/
def StoreSt.overwritten (st : StoreSt) (a : Nat) (x : StoredWord) : StoreSt := (st.putL2 a x).l1Drop a 4

/-- Every line that `p` names leaves every cache. -/
def StoreSt.forget (st : StoreSt) (p : Nat → Bool) : StoreSt :=
  { st with
    l1 := st.l1.entries.foldl (fun t e => t.put e.1 (e.2.filter (fun x => !p x.line)) []) Tab.empty
    l2 := st.l2.keepWhere (fun e => !p e.2.line) }

/-! The frame-table cache (R117, R118). -/

/-- Unlocked entries cached in the set of a frame, most recent first. -/
def StoreSt.ftLines (st : StoreSt) (n : Nat) : List FtLine := st.ftCache.get (n % 4096) []

/-- They take a value. -/
def StoreSt.setFt (st : StoreSt) (n : Nat) (l : List FtLine) : StoreSt := { st with ftCache := st.ftCache.put (n % 4096) l [] }

/-- The locked ways of the set of a frame. -/
def StoreSt.ftLockedIn (st : StoreSt) (n : Nat) : Nat := (st.ftLocked.entries.filter (fun e => e.1 % 4096 == n % 4096)).length

/-- The entry of a frame enters the cache unlocked, or moves to the front of its set, whose least recent entry gives way (R117). -/
def StoreSt.ftEnter (st : StoreSt) (n : Nat) (x : StoredWord) : StoreSt :=
  st.setFt n (({ frame := n, copy := x } :: (st.ftLines n).filter (fun l => l.frame != n)).take (4 - st.ftLockedIn n))

/-- The entry of a frame leaves the unlocked ways. -/
def StoreSt.ftLeave (st : StoreSt) (n : Nat) : StoreSt := st.setFt n ((st.ftLines n).filter (fun l => l.frame != n))

/-- The entry of a frame is locked in the cache, in two copies (R118). -/
def StoreSt.ftLock (st : StoreSt) (n : Nat) (x : StoredWord) : StoreSt :=
  let s1 := { st.ftLeave n with ftLocked := st.ftLocked.insert n (x, x) }
  s1.setFt n ((s1.ftLines n).take (4 - s1.ftLockedIn n))

/-- The entry of a frame is written through to the copies that the cache holds (R112), becoming locked or unlocked with its owner
(R118, R124). -/
def StoreSt.ftWrite (st : StoreSt) (n : Nat) (locked : Bool) (x : StoredWord) : StoreSt :=
  if locked then st.ftLock n x
  else if (st.ftLocked.find n).isSome then { st with ftLocked := st.ftLocked.erase n }.ftEnter n x
  else st.setFt n ((st.ftLines n).map (fun l => if l.frame = n then { l with copy := x } else l))

end Sys2Proof.Machine
end

