-- ==== Sys2Proof/Machine/Health.lean ====
section
/-! DEFINITION. What the device reports: the health bits of 0x2200 and their EMCYs, owner-check failures, the error log,
and the assertion of event lines. -/

namespace Sys2Proof.Machine

/-- Scalar core `c` is LOCKED (R439, R452). -/
def coreLocked (s : State) (c : Nat) : Bool := rdF s (.capStat c) 0 2 == 2

/-- Some core is locked, a lifeline core that is being disabled from LOCKED until step 3 of R408. -/
def anyLocked (s : State) : Bool := (List.range 4).any (coreLocked s) || llState s == 5 || (coreOf s 4).foul

/-- The level of FOUL_N, which the module pulls low or releases (R440, R567): released in OFF and STANDBY and while RESET_N is
low, otherwise low while some core is locked. -/
def foulN (s : State) : Bool := !s.pwr.aux || !s.pwr.resetN || mode s == 1 || !anyLocked s

/-- What drives a pin that the module may drive (R567). -/
inductive PinDrive where
  | highImpedance
  | electricalIdle
  | recessive
  | low
  /-- Driven by the service of the pin. -/
  | driven
deriving DecidableEq, Repr

/-- The state that R567 tells the pins from: 0 OFF, 1 RESET_N low, 2 STANDBY, 3 BRING-UP, 4 beyond. -/
def pinState (s : State) : Nat :=
  if !s.pwr.aux then 0 else if !s.pwr.resetN then 1 else if mode s == 1 then 2 else if mode s == 2 then 3 else 4

/-- PE_PERST_N[p] holds port `p` down; that of port 1 is ignored while PE_SPLIT is low (R632). -/
def portHeld (s : State) (p : Nat) : Bool := if p = 0 then !s.pwr.perst0 else rdB s .hstLink 0 && !s.pwr.perst1

/-- The PCI Express transmitters of port `p`: idle where the domain does not run, before the port's link trains, and while its PE_PERST_N
is low (R560, R567, R632). -/
def transmitters (s : State) (p : Nat) : PinDrive :=
  if pinState s = 0 then .highImpedance
  else if pinState s ≤ 2 ∨ portHeld s p then .electricalIdle
  else if rdB s .hstLink (1 + p) then .driven else .electricalIdle

/-- CANA_TXD and CANB_TXD: the services run in STANDBY too (R535, R567); without the crystal they send nothing (R626). -/
def canTransmit (s : State) : PinDrive :=
  if pinState s = 0 then .highImpedance else if pinState s = 1 ∨ ¬ s.pwr.crystal then .recessive else .driven

/-- SOUT and SOCLK: 0 in STANDBY and BRING-UP (R567). -/
def sampleOutputs (s : State) : PinDrive :=
  if pinState s ≤ 1 then .highImpedance else if pinState s ≤ 3 then .low else .driven

/-- TRACE_D and TRACE_CLK: driven while trace goes to the port (R567, R610). -/
def tracePins (s : State) : PinDrive :=
  if pinState s ≤ 2 then .highImpedance else if rdB s .dbgTrcfg 0 && !rdB s .dbgTrcfg 1 then .driven else .highImpedance

/-- TDO: driven in the shift states of the TAP, which take data out (R567, R596). -/
def tdoPin (s : State) (shifting : Bool) : PinDrive :=
  if pinState s ≤ 2 then .highImpedance else if shifting then .driven else .highImpedance

/-- Pump `i` has failed (R254). -/
def pumpFailed (s : State) (i : Nat) : Bool := rdF s (.pmpStat i) 0 2 == 3

/-- Some present function's link is down (R540): PRESENT and PORT of HST_FN_f, UP0 and UP1 of HST_LINK. -/
def someLinkDown (s : State) : Bool :=
  (List.range 4).any (fun f => rdB s (.hstFn f) 0 && !rdB s .hstLink (1 + (rdF s (.hstFn f) 1 1).toNat))

/-- The health bits of 0x2200:01 (R540). -/
def health (s : State) : BitVec 32 :=
  let flags : List Bool := [
    (List.range 4).any (coreLocked s),
    llState s == 5,
    (List.range 158).any (fun u => rdB s (.scrLaptime u) 23),
    (List.range 5).any (fun x => rdB s (.wdStat x) 16),
    s.store.failures != 0,
    (List.range 128).any (fun n => rdB s (.dsChStat n) 1),
    (List.range 16).any (pumpFailed s),
    rdF s .hstCan 8 2 == 2 || rdF s .hstCan 10 2 == 2,
    inRun s && someLinkDown s,
    rdB s .eccStat 0,
    s.pwr.mainOut || s.pwr.auxOut,
    s.pwr.lidOut]
  BitVec.ofNat 32 (flags.foldr (fun b n => cond b 1 0 + 2 * n) 0)

/-- The error register 0x1001 for health bits (R539). -/
def errorRegister (h : BitVec 32) : Byte :=
  ofBool 8 (h != 0) ||| (ofBool 8 (bit h 10) <<< 2) ||| (ofBool 8 (bit h 11) <<< 3) |||
    (ofBool 8 (bit h 7 || bit h 8) <<< 4) ||| (ofBool 8 (h &&& 0x27F != 0) <<< 7)

/-- The EMCY error code of a health bit (R541). -/
def emcyCode : Nat → BitVec 16
  | 7 => 0x8140 | 8 => 0x8200 | 10 => 0x3100 | 11 => 0x4210
  | b => 0xFF00 + BitVec.ofNat 16 b

/-- One EMCY for each health bit that has become 1, and one with code 0 when every bit is 0 again (R541). -/
def report (s : State) : State :=
  let h := health s
  let old := s.can.reported
  let rising := (List.range 12).filter (fun b => bit h b && !bit old b)
  let s1 := rising.foldl (fun t b => sendCan t (.emcy (emcyCode b) (errorRegister h))) s
  let s2 := if h = 0 ∧ old ≠ 0 then sendCan s1 (.emcy 0 (errorRegister h)) else s1
  { s2 with can := { s2.can with reported := h } }

/-- An owner-check failure is counted in 0x2200:02, which saturates (R32, R539). -/
def countFailure (s : State) : State :=
  report { s with store := { s.store with
    failures := if s.store.failures = 0xFFFFFFFF then s.store.failures else s.store.failures + 1 } }

/-- An error-log entry (R164). -/
structure LogEntry where
  type : Byte
  unit : Nat
  master : Byte
  addr : Nat
  syn : BitVec 16 := 0
  pos0 : BitVec 7 := 0x7F
  pos1 : BitVec 7 := 0x7F

/-- The two words of a log entry (R164). -/
def LogEntry.words (e : LogEntry) (time : Nat) : Word72 × Word72 :=
  (BitVec.ofNat 72 (time % 2 ^ 48 + e.type.toNat * 2 ^ 48 + e.unit % 256 * 2 ^ 56 + e.master.toNat * 2 ^ 64),
   BitVec.ofNat 72 (e.addr % 2 ^ 40 + e.syn.toNat * 2 ^ 40 + e.pos0.toNat * 2 ^ 56 + e.pos1.toNat * 2 ^ 63))

/-- The types of which at most 1,024 entries are written in an interval (R166). -/
def limitedType (t : Byte) : Bool := t == 1 || t == 2 || t == 6

/-- The device writes a word of the sump channel, the caches following (R348); a failed channel discards the write and counts it as
uncorrectable (R101). -/
def sumpStore (s : State) (key : Nat) (w : StoredWord) : State :=
  if rdB s (.dsChStat 127) 1 then bumpF s (.eccUe 127) 0 24 1
  else { s with mem := s.mem.put key w StoredWord.clean, store := s.store.overwritten key w }

/-- An entry is written at HEAD of the error log, or dropped and counted in ECC_LOG_LOST (R163, R166). -/
def log (s : State) (e : LogEntry) : State :=
  if limitedType e.type ∧ 1024 ≤ s.store.logCount then bumpF s .eccLogLost 0 24 1
  else
    let head := (rdF s .eccLogHead 0 15).toNat
    let k := sumpBase + 6 * (2097152 + 2 * head)
    let w := e.words s.clock
    let s0 := sumpStore (sumpStore s k { data := w.1 }) (k + 6) { data := w.2 }
    let s1 := { s0 with
      store := { s0.store with logCount := if limitedType e.type then s0.store.logCount + 1 else s0.store.logCount }
      flash := if limitedType e.type then s0.flash
        else { s0.flash with unflushed := w :: s0.flash.unflushed } }
    if head = 32767 then
      wrB (bumpF (wrF s1 .eccLogHead 0 (0 : BitVec 15)) .eccLogHead 15 9 1) .eccStat 1 true
    else wrF s1 .eccLogHead 0 (BitVec.ofNat 15 (head + 1))

/-- The owner code of event line `m`. -/
def lineOwner (s : State) (m : Nat) : OwnerCode := rdF s (.evrLine m) 0 4

/-- A producer asserts line `m` in the present event tick carrying owner code `c`, which the line's next tick judges (R479, R481). -/
def assertLine (s : State) (m : Nat) (c : OwnerCode) : State :=
  { s with events := { s.events with asserted := s.events.asserted ++ [⟨m, c, s.events.now⟩] } }

/-- A producer with an enable bit asserts its line when the bit is set. -/
def assertIf (s : State) (en : Bool) (m : Nat) (c : OwnerCode) : State := if en then assertLine s m c else s

end Sys2Proof.Machine
end

