-- ==== Sys2Proof/Machine/Memory.lean ====
section
/-! DEFINITION. Memory: frame-table entries and their cache (R111 to R119), reading and writing coded words (R137 to R154, R167), the
paths through the caches (R148, R149, R346 to R349), and the checks of an access (R107, R115, R176, R189, R383, R457). -/

namespace Sys2Proof.Machine

/-! Frame-table entries. -/

/-- The partition whose frame range of the layout in force holds interleaved frame `n`; 4 for none (R532). -/
def rangePart (s : State) (n : Nat) : Nat :=
  let inside := fun p => decide (layoutNat s 0x2011 (p + 1) ≤ n ∧ n < layoutNat s 0x2011 (p + 1) + layoutNat s 0x2011 (p + 5))
  if inside 0 then 0 else if inside 1 then 1 else if inside 2 then 2 else if inside 3 then 3 else 4

/-- The entry of a frame as the rebuild at start leaves it (R111, R120, R532). -/
def frameDefault (s : State) (n : Nat) : FEntry :=
  let p := rangePart s n
  if 2080768 ≤ n ∨ p = 4 then { owner := 0xF, rights := 0 }
  else if layoutNat s 0x2011 (p + 1) + layoutNat s 0x2011 (p + 5) ≤ n + layoutNat s 0x2011 (p + 9) then
    { owner := ownerCode p true, rights := 0xFC0 }
  else { owner := ownerCode p false, rights := 0x03F }

/-- The frame-table entry of a frame. -/
def frameAt (s : State) (n : Nat) : FEntry := s.frames.get n (frameDefault s n)

/-- The 72 bits of an entry (R111). -/
def FEntry.word (e : FEntry) : Word72 :=
  BitVec.ofNat 72 (e.owner.toNat + e.rights.toNat * 2 ^ 4 + e.ecc.toNat * 2 ^ 16 + cond e.retired (2 ^ 18) 0 +
    cond e.pinned (2 ^ 19) 0 + cond e.moving (2 ^ 20) 0 + e.ceCount.toNat * 2 ^ 24 + e.lap.toNat * 2 ^ 36)

/-- A frame-table entry is written, through to the copies in the frame-table cache and to the sump copy with a valid check, which a failed
sump channel discards and counts (R101, R110, R112). -/
def setFrame (s : State) (n : Nat) (e : FEntry) : State :=
  let w : StoredWord := { data := e.word }
  let s1 := { s with frames := s.frames.insert n e, store := s.store.ftWrite n (e.owner == 8 && !e.discarded) w }
  if rdB s (.dsChStat 127) 1 then bumpF s1 (.eccUe 127) 0 24 1
  else { s1 with mem := s1.mem.erase (sumpBase + 6 * n), store := s1.store.overwritten (sumpBase + 6 * n) w }

/-- A frame-table entry is discarded: nothing is written, and it leaves the cache (R119). What of it can still be seen once the frame is
claimed, its RIGHTS, CE_COUNT and SCRUB_LAP, is free; it is claimable as unowned, neither retired nor pinned (log 120). -/
def discardFrame (s : State) (n : Nat) : State :=
  let e := frameAt s n
  let r := drawBits 12 s
  let c := drawBits 12 r.2
  let l := drawBits 12 c.2
  let st := { l.2.store.ftLeave n with ftLocked := l.2.store.ftLocked.erase n }
  { l.2 with
    frames := l.2.frames.insert n
      { owner := 0xF, rights := r.1, ceCount := c.1, lap := l.1, moving := e.moving, discarded := true }
    store := st }

/-- The owner of a frame as SET_OWNER sees it: a discarded entry is claimable as unowned (R119). -/
def FEntry.held (e : FEntry) : OwnerCode := if e.discarded then 0xF else e.owner

/-- A retired frame awaits its place in the retirement record, or finds it full (R127, R153). -/
def recordRetirement (s : State) (n : Nat) : State :=
  if n ∈ s.flash.retired ∨ n ∈ s.store.retiring then s
  else if 4096 ≤ s.flash.retired.length + s.store.retiring.length then report (wrB s .eccStat 0 true)
  else { s with store := { s.store with retiring := s.store.retiring ++ [n] } }

/-- Sump frames 0 to 1,535, whose entries are fixed (R108). -/
def fixedFrame (n : Nat) : Bool := 2080768 ≤ n && n < 2080768 + 1536

/-- Frames of the cache set of `n` that are locked in it, those owned by 0b1000, and those that a running SET_OWNER will lock (R118). -/
def lockedInSet (s : State) (n : Nat) : Nat :=
  (s.frames.entries.filter (fun e => e.1 % 4096 == n % 4096 && e.2.owner == 8)).length +
  (s.store.ftRun.entries.filter (fun e => e.2.op == 1 && e.2.owner == 8 && e.2.frame % 4096 == n % 4096 &&
    (frameAt s e.2.frame).owner != 8)).length

/-- Locked entries of the frame-table cache, LOCKED of FT_CACHE_STAT (R118, R136). -/
def lockedFrames (s : State) : Nat := (s.frames.entries.filter (fun e => e.2.owner == 8)).length

/-! How reads of coded words end (R140 to R142, R649). -/

/-- The outcome of a read (R140); a CE names the stored bits that are inverted. -/
inductive Ending where
  | clean
  | ce (located : BitVec 88)
  | ace
  | poisoned
  | ue
deriving DecidableEq, Repr

/-- The outcome that the device gives where R649 leaves it open, among the outcomes that its bounds allow. -/
def openEnding (w : StoredWord) (choices : List Ending) : Ending :=
  choices.getD ((Config.eccOpen w.err w.fold w.poison).toNat % choices.length) .ue

/-- The one or two stored bits that such a CE inverts: places that leave wrong data in the word (R141, R649). -/
def locatedBits (w : StoredWord) : BitVec 88 :=
  let p := Config.eccLocated w.err w.fold w.poison
  let l := ((1 : BitVec 88) <<< p.1.val) ||| ((1 : BitVec 88) <<< p.2.val)
  if (w.err ^^^ l).setWidth 72 ≠ (0 : Word72) then l else if w.err.setWidth 72 = (1 : Word72) then 2 else 1

/-- How a read of a stored word ends (R140, R141, R142, R649). -/
def decodeWord (w : StoredWord) : Ending :=
  let e := popCount w.err
  let f := popCount w.fold
  let ceOpen := Ending.ce (locatedBits w)
  if w.poison then
    if f = 0 ∧ e ≤ 1 then .poisoned else openEnding w [.poisoned, ceOpen, .ace, .ue]
  else if e + f = 0 then .clean
  else if f = 0 ∧ e ≤ 2 then .ce w.err
  else if e + f ≤ 2 then .ace
  else if e + f = 3 then (if e = 0 ∨ f = 0 then .ue else openEnding w [.ue, .poisoned])
  else if e = 0 then openEnding w [.ace, .ue, ceOpen]
  else if e + f ≤ 5 then openEnding w [ceOpen, .ace, .poisoned, .ue]
  else openEnding w [ceOpen, .ace, .poisoned, .ue, .clean]

/-- The data bits that a stored word shows before any correction. -/
def StoredWord.raw (w : StoredWord) : Word72 := w.data ^^^ w.err.setWidth 72

/-- The stored word after a CE: the located bits inverted and the check valid again (R140, R141). -/
def StoredWord.corrected (w : StoredWord) (located : BitVec 88) : StoredWord :=
  { data := w.raw ^^^ located.setWidth 72 }

/-- A word written as poisoned (R142). -/
def StoredWord.poisoned : StoredWord := { poison := true }

/-- The position of the lowest set bit at or above `i`; 0x7F if none. -/
def lowestSet (v : BitVec 88) (i : Nat) : BitVec 7 :=
  match (List.range 88).find? (fun k => decide (i ≤ k) && bit v k) with
  | some k => BitVec.ofNat 7 k
  | none => 0x7F

/-- The crossbar number of a master (Blocks table of 01). -/
def masterNumber : Master → Nat
  | .pump i => i
  | .core c => 16 + c
  | .hostDma _ => 21
  | .smpDma _ => 22
  | .aftar => 23
  | .scrubber => 24

/-- The log entry of an error of a stored word (R164, R651). -/
def errorEntry (type : Byte) (unit : Nat) (master : Byte) (key : Nat) (w : StoredWord) (located : BitVec 88) : LogEntry :=
  let p0 := lowestSet located 0
  { type, unit, master, addr := key, syn := Config.eccSyndrome w.err w.fold w.poison,
    pos0 := p0, pos1 := if p0 = 0x7F then 0x7F else lowestSet located (p0.toNat + 1) }

/-- R151 and R152 when a trigger falls on frame `n`: retired at once, retire pending, which a moving frame carries into its new entry
(R129), or suppressed. -/
def retireTrigger (s : State) (n : Nat) (e : LogEntry) : State :=
  let f := frameAt s n
  if fixedFrame n ∨ f.ecc = 3 ∨ f.retired then s
  else if f.pinned then
    if n ∈ s.store.suppressed then s
    else log { s with store := { s.store with suppressed := n :: s.store.suppressed } } { e with type := 0x0A }
  else if f.held = 0xF ∧ ¬ f.moving then
    log (recordRetirement (setFrame s n { f with retired := true }) n) { e with type := 0x09 }
  else log (setFrame s n { f with ecc := 3 }) { e with type := 0x08 }

/-- The frame-table entry after a CE in a word of frame `n` (R150, R151). -/
def frameCe (s : State) (n : Nat) (e : LogEntry) : State :=
  let f := frameAt s n
  let count := BitVec.ofNat 12 (satAdd 4095 f.ceCount.toNat 1)
  let s1 := setFrame s n { f with ceCount := count, ecc := if f.ecc = 0 then 1 else f.ecc }
  let limit := rdF s .eccCfg 0 12
  if limit ≠ 0 ∧ limit.toNat ≤ count.toNat then retireTrigger s1 n e else s1

/-- The frame-table entry after a UE in a word of frame `n` (R150, R151). -/
def frameUe (s : State) (n : Nat) (e : LogEntry) : State :=
  let f := frameAt s n
  let s1 := if f.ecc = 3 then s else setFrame s n { f with ecc := 2 }
  if rdB s .eccCfg 12 then retireTrigger s1 n e else s1

/-- An ACE of a channel: sixteen within 1 ms, which is 40,000 ticks, set its FAULT and are logged (R154). -/
def channelAce (s : State) (n : Nat) : State :=
  let times := (s.clock :: s.store.aces.get n []).filter (fun t => decide (s.clock < t + 40000))
  let s1 := { s with store := { s.store with aces := s.store.aces.insert n times } }
  if 16 ≤ times.length ∧ !rdB s (.dsChStat n) 1 then
    report (log (wrB s1 (.dsChStat n) 1 true) { type := 0x0D, unit := n, master := 0xFF, addr := 0 })
  else s1

/-- The bits that a dispatch entry of 48 bits holds: bits 47:43 are zero (R462). -/
def dispatchBits (v : W48) : W48 := v &&& 0x7FFFFFFFFFF

/-- The bits that a word of the scalar microcode store holds: bits 71:56 of an odd word are zero (R466). -/
def scalarBits (k : Nat) (v : Word72) : Word72 := if k % 2 = 1 then v &&& 0xFFFFFFFFFFFFFF else v

/-- Ply `p` of the vector control store as step 1 of R468 leaves it: mask ROM in pages 0 to 7, the ROM page modes (R459), the ROM
dispatch entries (R463), and zero. -/
def romPly (p : Nat) : Ply :=
  if p < 131072 then wordPly (Config.maskRom (p / 6)) (p % 6)
  else if p = 195568 then Config.romPages.setWidth 12
  else if 196352 ≤ p ∧ p < 196384 then bits (dispatchBits (Config.romDispatch ((p - 195584) / 4))) (12 * (p % 4)) 12
  else 0

/-- Word `k` of the vector control store as step 1 of R468 leaves it. -/
def romWord (k : Nat) : Word72 := (List.range 6).foldl (fun v i => setBits v (12 * i) (romPly (6 * k + i))) 0

/-- What an unlisted word reads as: zero with valid check bits, and in the control stores the content of step 1 of R468
(R120, R182, R467). -/
def blank (key : Nat) : StoredWord :=
  if 0x50000000 ≤ key ∧ key < 0x50040000 then { data := romWord ((key - 0x50000000) / 6) }
  else if 0x58000000 ≤ key ∧ key < 0x5800C000 then { data := scalarBits ((key - 0x58000000) / 6) (Config.scalarRom ((key - 0x58000000) / 6)) }
  else StoredWord.clean

/-- The stored word of a target under a key. -/
def cellAt (s : State) (key : Nat) : StoredWord := s.mem.get key (blank key)

/-- The stored word under a key as every master meets it: the copy of a dirty L2 line, otherwise the target's own (R348). -/
def memAt (s : State) (key : Nat) : StoredWord :=
  if cacheable key then (s.store.l2Dirty key).getD (cellAt s key) else cellAt s key

/-- A stored word of a target takes a value, in the canonical form. -/
def setMem (s : State) (key : Nat) (w : StoredWord) : State := { s with mem := s.mem.put key w (blank key) }

/-- The canonical form of the stored words: keys rise strictly, and no entry equals what an unlisted word reads as. -/
def Memory.wf (m : Tab StoredWord) : Bool := keysRise m.entries && m.entries.all (fun e => e.2 != blank e.1)

/-- Where a coded word stands that is read: in its target, in L2, or as a copy in the frame-table cache (R139). -/
inductive Home where
  | target
  | l2
  | table (second : Bool)
deriving DecidableEq, Repr

/-- The unit that counts an error there (R155, R166). -/
def Home.unit : Home → Nat → Nat
  | .target, key => unitOf key
  | .l2, _ => 144
  | .table _, _ => 145

/-- A copy of an entry in the frame-table cache takes a value. -/
def StoreSt.putTable (st : StoreSt) (n : Nat) (second : Bool) (w : StoredWord) : StoreSt :=
  match st.ftLocked.find n with
  | some p => { st with ftLocked := st.ftLocked.insert n (if second then (p.1, w) else (w, p.2)) }
  | none => st.setFt n ((st.ftLines n).map (fun l => if l.frame = n then { l with copy := w } else l))

/-- A coded word takes a value where it stands. -/
def putAt (s : State) (h : Home) (key : Nat) (w : StoredWord) : State :=
  match h with
  | .target => setMem s key w
  | .l2 => { s with store := s.store.putL2 key w }
  | .table b => { s with store := s.store.putTable ((key - sumpBase) / 6) b w }

/-- A correction: counted, logged, written back, and noted in the frame of a deep-store or sump word (R143, R150). -/
def readCe (s : State) (h : Home) (key : Nat) (master : Byte) (w : StoredWord) (located : BitVec 88) : State :=
  let e := errorEntry (if popCount located ≤ 1 then 1 else 2) (h.unit key) master key w located
  let s1 := log (bumpF (putAt s h key (w.corrected located)) (.eccCe (h.unit key)) 0 24 1) e
  if h = .target ∧ inFrames key then frameCe s1 (frameOf key) e else s1

/-- An uncorrectable read: counted, logged, rewritten as poisoned, and noted in the frame (R144, R150). -/
def readUe (s : State) (h : Home) (key : Nat) (master : Byte) (w : StoredWord) : State :=
  let e := errorEntry 3 (h.unit key) master key w 0
  let s1 := log (bumpF (putAt s h key .poisoned) (.eccUe (h.unit key)) 0 24 1) e
  if h = .target ∧ inFrames key then frameUe s1 (frameOf key) e else s1

/-- An address-check error: counted and logged (R140, R154). -/
def readAce (s : State) (h : Home) (key : Nat) (master : Byte) (w : StoredWord) : State :=
  let s1 := log (bumpF s (.eccAce (h.unit key)) 0 24 1) (errorEntry 4 (h.unit key) master key w 0)
  if h = .target ∧ inFrames key then channelAce s1 (channelOf key) else s1

/-- What a read delivers: the data and the poison mark (R140, R146). -/
structure Word where
  data : Word72
  poison : Bool
deriving DecidableEq, Repr

/-- A word delivered with the poison mark after a UE, an ACE or at a failed channel, whose data the spec does not state: free (log 17). -/
def markedWord (s : State) : Word × State :=
  ({ data := Config.freeBits 72 s.free, poison := true }, { s with free := s.free + 1 })

/-- A store reads a coded word and decodes it (R140), with every effect of the outcome. A poisoned word is delivered as stored, with a
later bit error where it has one (R142, R613). -/
def decodeRead (s : State) (h : Home) (key : Nat) (master : Byte) (w : StoredWord) : Word × State :=
  match decodeWord w with
  | .clean => ({ data := w.raw, poison := false }, s)
  | .ce l => ({ data := (w.corrected l).data, poison := false }, readCe s h key master w l)
  | .ace => markedWord (readAce s h key master w)
  | .poisoned => ({ data := w.raw, poison := true }, s)
  | .ue => markedWord (readUe s h key master w)

/-- The sump word that is a frame-table entry (R107, R110): its stored data is the entry itself. -/
def tableWord (key : Nat) : Option Nat :=
  if sumpBase ≤ key ∧ key < sumpBase + 6 * 2097152 then some ((key - sumpBase) / 6) else none

/-- The channel of a deep-store or sump word shows FAULT (R101). -/
def failedAt (s : State) (key : Nat) : Bool := inFrames key && rdB s (.dsChStat (channelOf key)) 1

/-- A target reads its own word at `key` (R140), a channel with FAULT delivering poison (R101). -/
def readTarget (s : State) (key : Nat) (master : Byte) : Word × State :=
  if failedAt s key then markedWord s
  else match tableWord key with
    | some n => decodeRead s .target key master { cellAt s key with data := (frameAt s n).word }
    | none => decodeRead s .target key master (cellAt s key)

/-- A master reads the word at `key`: the copy of a dirty L2 line, otherwise the target's (R348). -/
def readWord (s : State) (key : Nat) (master : Byte) : Word × State :=
  match (if cacheable key then s.store.l2Dirty key else none) with
  | some w => decodeRead s .l2 key master w
  | none => readTarget s key master

/-- A write to a word clears every reservation set on it (R336). -/
def clearReservations (s : State) (key : Nat) : State :=
  { s with cores := (List.range 5).foldl (fun t c =>
      let x := t.get c {}
      if x.reservation = some key then t.put c { x with reservation := none } {} else t) s.cores }

/-- The address of the armed injection (R167, R171). -/
def injectAddr (s : State) : Nat := (rd s .eccInjAlo).toNat + (rdF s .eccInjAhi 0 16).toNat * 2 ^ 24

/-- A word whose check is computed with fold `f` at the address `key` (R138, R141). -/
def StoredWord.folded (w : StoredWord) (f : BitVec 16) (key : Nat) : StoredWord := { w with fold := f ^^^ foldOf key }

/-- What the armed injection makes of a whole word written at `key` (R167). -/
def injected (s : State) (key : Nat) (w : StoredWord) : StoredWord :=
  let a := (rdF s .eccInjCtl 3 7).toNat
  let b := (rdF s .eccInjCtl 10 7).toNat
  let flip := fun i : Nat => (1 : BitVec 88) <<< i
  match (rdF s .eccInjCtl 0 3).toNat with
  | 1 => { w with err := flip a }
  | 2 => { w with err := flip a ^^^ flip b }
  | 3 => { w with err := flip a ^^^ flip b ^^^ flip ((a + 1) % 88) }
  | 4 => w.folded (foldOf key ^^^ (1 : BitVec 16) <<< (a % 16)) key
  | 5 => .poisoned
  | _ => w

/-- A whole word is written (R145), the armed injection firing on it (R167). -/
def storeWhole (s : State) (key : Nat) (w : StoredWord) : State :=
  if rdB s .eccInjCtl 17 ∧ injectAddr s = key then wrB (setMem s key (injected s key w)) .eccInjCtl 17 false
  else setMem s key w

/-- A target takes a whole word; a failed channel discards it and counts it as uncorrectable (R101). -/
def storeTarget (s : State) (key : Nat) (w : StoredWord) : State :=
  if failedAt s key then bumpF s (.eccUe (channelOf key)) 0 24 1 else storeWhole s key w

/-- Bits `mask` of `data` over the bits of `old`. -/
def maskInto (old mask data : Word72) : Word72 := (old &&& ~~~mask) ||| (data &&& mask)

/-- The copies of a word in the caches follow a write by anyone but a scalar core (R348): L2's is merged, first-level copies go. -/
def cachesFollow (s : State) (key : Nat) (mask data : Word72) (master : Byte) : State :=
  let s1 := { s with store := s.store.l1Drop key 4 }
  match s1.store.l2Word key with
  | none => s1
  | some w =>
    if mask = BitVec.allOnes 72 then { s1 with store := s1.store.putL2 key { data } }
    else match decodeRead s1 .l2 key master w with
      | (x, s2) => if x.poison then s2 else { s2 with store := s2.store.putL2 key { data := maskInto x.data mask data } }

/-- A target writes the bits that `mask` names of the word at `key`: whole, or merged by read-modify-write
(R55, R71, R145), the caches following (R348); a failed channel discards the write and counts it as uncorrectable (R101). -/
def writeMasked (s : State) (key : Nat) (mask data : Word72) (master : Byte) : State :=
  if mask = 0 then s
  else
    let s0 := clearReservations s key
    let s1 := if cacheable key then cachesFollow s0 key mask data master else s0
    if failedAt s1 key then bumpF s1 (.eccUe (channelOf key)) 0 24 1
    else if mask = BitVec.allOnes 72 then storeWhole s1 key { data }
    else match readTarget s1 key master with
      | (w, s2) => if w.poison then s2 else setMem s2 key { data := maskInto w.data mask data }

/-- The bits of the plies that a mask names. -/
def plyBits (mask : BitVec 6) : Word72 := mergePlies 0 (BitVec.allOnes 72) mask

/-- A target writes the plies that `mask` names of the word at `key` (R55, R145). -/
def writeWord (s : State) (key : Nat) (mask : BitVec 6) (data : Word72) (master : Byte) : State :=
  writeMasked s key (plyBits mask) data master

/-- A word is written as poisoned: a whole-word write (R146, R147, R167). -/
def writePoison (s : State) (key : Nat) : State :=
  let s0 := clearReservations s key
  storeTarget (if cacheable key then { s0 with store := s0.store.overwritten key .poisoned } else s0) key .poisoned

/-- The copy of the word at `key` that a read meets: L2's for one `cached` through it, and for every master that of a dirty line (R348);
otherwise the target's. -/
def copyRead (s : State) (key : Nat) (cached : Bool) : Home × StoredWord :=
  match (if cached then s.store.l2Word key else if cacheable key then s.store.l2Dirty key else none) with
  | some w => (.l2, w)
  | none => (.target, cellAt s key)

/-- A poisoned word has been used and an exception or error status is raised: logged with the unit and the syndrome of the copy that was
read (R165, R651). -/
def poisonUsed (s : State) (key : Nat) (cached : Bool) (master : Byte) : State :=
  let c := copyRead s key cached
  log s (errorEntry 5 (c.1.unit key) master key c.2 0)

/-! Checks of an access (R32, R114, R115). -/

/-- The kind of an access (R114). -/
inductive Kind where
  | read
  | write
  | exec
deriving DecidableEq, Repr

/-- Who accesses: the owner code carried, the world and level checked, the core (or 5), whether it is Aftar, and whether it is the
scrubber, which is not checked (R31, R114). -/
structure Who where
  code : OwnerCode
  safety : Bool
  sup : Bool
  core : Nat := 5
  aftar : Bool := false
  master : Byte := 0xFF
  exempt : Bool := false
deriving DecidableEq, Repr

/-- The outcome of a check: permitted, refused under R32, or held (R124, R179, R183, R191). -/
inductive Verdict where
  | ok
  | refused
  | held
deriving DecidableEq, Repr

/-- The group of RIGHTS for a world and level grants a kind (R113). -/
def grants (rights : BitVec 12) (safety sup : Bool) (k : Kind) : Bool :=
  bit rights (cond safety 6 0 + cond sup 3 0 + (match k with | .read => 0 | .write => 1 | .exec => 2))

/-- R115 on a frame, after its entry has been looked up. -/
def checkFrame (s : State) (w : Who) (n : Nat) (k : Kind) : Verdict :=
  let e := frameAt s n
  if e.moving then .held
  else if e.retired then .refused
  else if fixedFrame n then
    let f := n - 2080768
    if k = .read ∧ w.safety ∧ w.sup ∧ w.code.toNat < 8 ∧ (f < 264 ∨ 512 ≤ f) then .ok
    else if k = .write ∧ w.core < 4 ∧ inBringUp s ∧ 512 ≤ f then .ok
    else .refused
  else if e.owner = 0xF ∨ e.discarded then .refused
  else if e.owner = 8 then (if w.code = 8 ∧ grants e.rights true true k then .ok else .refused)
  else if e.owner.toNat < 8 ∧ w.code.toNat < 8 ∧ codePart e.owner = codePart w.code ∧ grants e.rights w.safety w.sup k
  then .ok else .refused

/-- R176 and R183 on a cistern. While a handover or a transition to ON runs an access is held, also with an accepted request for RETAIN or
OFF queued behind it (DESIGN CHOICE, log 121). No access carries 0b1111. -/
def checkCistern (s : State) (w : Who) (n : Nat) : Verdict :=
  let st := rd s (.cisStat n)
  if bit st 7 then .held
  else if bits st 0 2 = 3 ∧ bits st 2 2 = 0 then .held
  else if bits st 0 2 = 0 ∧ w.code ≠ 0xF ∧ rdF s (.cisOwner n) 0 4 = w.code then .ok
  else .refused

/-- R37, R379 and R383 on the lifeline local store; word index `k`. -/
def checkLocal (s : State) (w : Who) (k : Nat) (kind : Kind) : Verdict :=
  if w.core ≠ 4 ∨ llDisabled s then .refused
  else match s.fw.lifeline with
    | some (_, _, c) => if kind = .write ∧ k < c then .refused else .ok
    | none => .ok

/-- R457 on ply `a` of the vector control store through target 20: safety-world supervisor code of a partition, on a scalar core, and Aftar,
read; boot firmware, which the scalar cores run in BRING-UP (R351) for no partition, writes outside pages 0 to 7. -/
def checkControlStore (s : State) (w : Who) (a : Nat) (k : Kind) : Verdict :=
  if k = .read ∧ ((w.core < 4 ∧ w.code.toNat < 8 ∧ w.safety ∧ w.sup) ∨ w.aftar) then .ok
  else if k = .write ∧ w.core < 4 ∧ inBringUp s ∧ 0x50020000 ≤ a then .ok
  else .refused

/-- The address whose word an access to ply address `a` reaches: itself, or the cistern-0 address behind window zero
while REMAP is 1 (R190). -/
def remapped (s : State) (a : Nat) : Nat := if a < 262144 ∧ rdB s .xbCfg 0 then 0x10000000 + a else a

/-- R189 and R190 on window zero; `r` is the address behind it. -/
def checkWindow (s : State) (w : Who) (k : Kind) : Verdict :=
  if rdB s .xbCfg 1 then .held
  else if rdB s .xbCfg 0 then checkCistern s w 0
  else if k ≠ .write ∧ w.sup ∧ (w.core < 5 ∨ w.aftar) then .ok
  else .refused

/-- An access of a core in loop-buffer mode to a deep-store channel whose TRAINED bit is 0 fails (R351). -/
def untrained (s : State) (w : Who) (a : Nat) : Bool := w.core < 5 && loopMode s && !rdB s (.dsChStat (channelOf a)) 0

/-- The scrubber is not checked (R31); it reaches no cistern that is not ON (R157), no control register (R155), no local store, which is no crossbar target (R37), and
writes no control store (R36, R457). -/
def checkExempt (s : State) (a : Nat) (k : Kind) : Verdict :=
  match regionOf a with
  | none => .refused
  | some (.cistern n) => if rdF s (.cisStat n) 0 2 = 0 then .ok else .refused
  | some .localStore => .refused
  | some .registers => .refused
  | some .controlStore => if k = .read then .ok else .refused
  | _ => .ok

/-- The check of one access to the word that holds ply address `a` (R32, R34, R38, R115, R176, R189, R379, R457). At the sump channel a pump is
held to the rule for software, the safety world at supervisor level, and code 8 is refused (DEDUCED, log 176). -/
def check (s : State) (w : Who) (a : Nat) (k : Kind) : Verdict :=
  if w.exempt then checkExempt s a k
  else match regionOf a with
  | none => .refused
  | some .window => checkWindow s w k
  | some (.cistern n) => checkCistern s w n
  | some .registers => if k = .exec ∨ (4 < w.core ∧ ¬ w.aftar) then .refused else .ok
  | some .controlStore => if k = .exec then .refused else checkControlStore s w a k
  | some .localStore => checkLocal s w (wordIndex a) k
  | some .deep => if inRecovery s ∨ untrained s w a then .refused else checkFrame s w (frameOf a) k
  | some .sump =>
    if inRecovery s ∨ untrained s w a ∨ w.code = 8 ∨ ((w.core < 5 ∨ w.master.toNat < 16) ∧ ¬ (w.safety ∧ w.sup)) then .refused
    else checkFrame s w (frameOf a) k

/-- The last ply of the word that an access reaches from `a` on lies outside the region of its first (R34, R190, R456). -/
def leavesRegion (a n : Nat) : Bool := regionOf (a + n - 1) != regionOf a

/-- The sump copy of the entry of frame `n` is read on a miss, or after its cached copies failed: it enters the cache, or is discarded
when the read is not good (R117, R119, R162). -/
def readEntry (s : State) (n : Nat) (master : Byte) : State :=
  let key := sumpBase + 6 * n
  let r := readTarget s key master
  if r.1.poison then
    log (discardFrame r.2 n)
      { type := 0x0C, unit := 127, master, addr := key,
        syn := Config.eccSyndrome (cellAt s key).err (cellAt s key).fold (cellAt s key).poison }
  else
    let w : StoredWord := { data := (frameAt r.2 n).word }
    { r.2 with store := if (frameAt r.2 n).owner = 8 then r.2.store.ftLock n w else r.2.store.ftEnter n w }

/-- A copy of an entry in the frame-table cache is read; the read is good or not. -/
def readCopy (s : State) (n : Nat) (second : Bool) (master : Byte) (w : StoredWord) : Bool × State :=
  let r := decodeRead s (.table second) (sumpBase + 6 * n) master w
  (!r.1.poison, r.2)

/-- A copy of a locked entry is rewritten from the other (R118). -/
def rewriteCopy (s : State) (n : Nat) (second : Bool) : State :=
  { s with store := s.store.putTable n second { data := (frameAt s n).word } }

/-- The copies of a locked entry are read, `first` before the other where `both` or where it is not good: a copy that is not good is
rewritten from the other, and when neither is good the sump copy is read (R118, R162). -/
def readLocked (s : State) (n : Nat) (master : Byte) (p : StoredWord × StoredWord) (both : Bool := false) : State :=
  match readCopy s n false master p.1 with
  | (true, s1) =>
    if both then match readCopy s1 n true master p.2 with
      | (true, s2) => s2
      | (false, s2) => rewriteCopy s2 n true
    else s1
  | (false, s1) => match readCopy s1 n true master p.2 with
    | (true, s2) => rewriteCopy s2 n false
    | (false, s2) => readEntry s2 n master

/-- The frame-table cache serves the entry of frame `n`: a hit reads its coded copy; a miss counts in FT_MISS and reads the sump copy
(R117, R118, R119, R162). A discarded entry stays discarded (log 120). -/
def lookupFrame (s : State) (n : Nat) (master : Byte) : State :=
  if (frameAt s n).discarded then s
  else match s.store.ftLocked.find n with
  | some p => readLocked s n master p
  | none => match (s.store.ftLines n).find? (fun l => l.frame == n) with
    | some l =>
      match readCopy s n false master l.copy with
      | (true, s1) => { s1 with store := s1.store.ftEnter n (((s1.store.ftLines n).find? (fun l => l.frame == n)).getD l).copy }
      | (false, s1) => readEntry s1 n master
    | none => readEntry (bumpF s .ftMiss 0 24 1) n master

/-- The state after the frame-table lookup that an access to address `a` makes; other regions have none, nor has the scrubber. -/
def lookup (s : State) (w : Who) (a : Nat) : State :=
  if inFrames a ∧ (regionOf a).isSome ∧ ¬ w.exempt then lookupFrame s (frameOf a) w.master else s

/-- A check with its lookup. -/
def checked (s : State) (w : Who) (a : Nat) (k : Kind) : Verdict × State :=
  let s1 := lookup s w a
  (check s1 w a k, s1)

/-- A check of plies `a` to `a + n − 1`, which lie in one word (R34). -/
def checkedPlies (s : State) (w : Who) (a n : Nat) (k : Kind) : Verdict × State :=
  if leavesRegion a n then (.refused, s) else checked s w a k

/-- Plies of the control store that read as zero through target 20: those below microword 12,223 (R457),
which end within word 32,594. -/
def vendorPly (offset : Nat) : Bool := offset < 16 * 12223

/-- The word whose ply 0 is ply `k` of the boot ROM (R189). -/
def bootWord (k : Nat) : Word72 := (List.range 6).foldl (fun v p => setBits v (12 * p) (Config.bootRom (k + p))) 0

/-- What target 20 shows of the control-store word whose ply 0 has offset `o`: the plies of the vendor read as zero (R457). -/
def shownMicrocode (o : Nat) (d : Word72) : Word72 :=
  (List.range 6).foldl (fun v p => if vendorPly (o + p) then setBits v (12 * p) (0 : Ply) else v) d

/-- The word at ply address `a` as its target delivers it: the boot ROM, the control store with vendor microcode hidden,
or a coded word (R189, R190, R457). -/
def fetchWord (s : State) (a : Nat) (master : Byte) : Word × State :=
  let b := remapped s a
  match regionOf b with
  | some .window => ({ data := bootWord (wordBase b), poison := false }, s)
  | some .controlStore =>
    let r := readWord s (wordBase b) master
    ({ r.1 with data := shownMicrocode (wordBase b - 0x50000000) r.1.data }, r.2)
  | _ => readWord s (wordBase b) master

/-! The paths of a scalar core through the caches (R146 to R149, R346 to R349). -/

/-- An access of `w` to address `a` goes through the caches (R347, R351). -/
def viaCaches (s : State) (w : Who) (a : Nat) : Bool :=
  decide (w.core < 4) && !loopMode s && (match regionOf a with
    | some .deep => true
    | some .sump => true
    | some .window => !rdB s .xbCfg 0
    | _ => false)

/-- The word of a line as a fill takes it from its target: the boot ROM or a coded word. -/
def fillWord (s : State) (key : Nat) (master : Byte) : Word × State :=
  if key < 262144 then ({ data := bootWord key, poison := false }, s) else readTarget s key master

/-- A word with its mark, as a coded word holds it. -/
def Word.stored (x : Word) : StoredWord := if x.poison then .poisoned else { data := x.data }

/-- Words read one after another, each in the state that the one before left. -/
def readMany (f : State → Nat → Word × State) : List Nat → State → List Word × State
  | [], s => ([], s)
  | k :: t, s =>
    let r := f s k
    let q := readMany f t r.2
    (r.1 :: q.1, q.2)

/-- The addresses of the words of a line. -/
def lineKeys (line : Nat) : List Nat := (List.range 8).map (fun i => line + 6 * i)

/-- A dirty L2 line is written back, a poisoned word as poisoned (R146); its reservations stay (R336). -/
def writeBack (s : State) (l : L2Line) : State :=
  ((lineKeys l.line).zip l.words).foldl (fun t x =>
    let r := decodeRead t .l2 x.1 0xFF x.2
    storeTarget r.2 x.1 r.1.stored) s

/-- Way `w` of the L2 set of an address is given up: a dirty line is written back, and the copies of the line leave the first-level
caches, whose lines L2 always holds (R346). -/
def evict (s : State) (a w : Nat) : State :=
  match s.store.l2.find (l2Key a w) with
  | none => s
  | some l =>
    let s1 := if l.dirty then writeBack s l else s
    let st := s1.store.l1Drop l.line 4
    { s1 with store := { st with l2 := st.l2.erase (l2Key a w) } }

/-- L2 holds the line of an address: a miss reads its words and puts it into an empty way, or into one of the pseudo-LRU's choice, which
the spec does not give and is free (R346). -/
def fillL2 (s : State) (a : Nat) (master : Byte) : State :=
  if (s.store.l2Way a).isSome then s
  else
    let r := readMany (fun t k => fillWord t k master) (lineKeys (lineOf a)) s
    let s1 := r.2
    let pick := match (List.range 16).find? (fun w => (s1.store.l2.find (l2Key a w)).isNone) with
      | some w => (w, s1)
      | none => let d := drawNat s1; (d.1 % 16, evict d.2 a (d.1 % 16))
    let l : L2Line := { line := lineOf a, words := r.1.map Word.stored }
    { pick.2 with store := { pick.2.store with l2 := pick.2.store.l2.insert (l2Key a pick.1) l } }

/-- The copy of a word in L2 is read and decoded (R137); a line that is not there reads as clean. -/
def readL2 (s : State) (key : Nat) (master : Byte) : Word × State :=
  decodeRead s .l2 key master ((s.store.l2Word key).getD {})

/-- A line read through a first-level cache after a miss: from L2, which is filled first (R346). -/
def l1Miss (s : State) (c : Nat) (fetch : Bool) (a : Nat) (master : Byte) : List (Word72 × Bool) × State :=
  let r := readMany (fun t k => readL2 t k master) (lineKeys (lineOf a)) (fillL2 s a master)
  let words := r.1.map (fun x => (x.data, x.poison))
  (words, { r.2 with store := r.2.store.l1Fill c fetch a words })

/-- A CRC mismatch on a read of a line (R149): counted and logged, the line invalidated, and after three in succession on the set and way
the way disabled, counted and logged. -/
def crcMismatch (s : State) (c : Nat) (fetch : Bool) (l : L1Line) (master : Byte) : State :=
  let unit := l1Unit c fetch
  let k := wayKey c fetch (l1Set l.line) l.way
  let entry : LogEntry := { type := 6, unit, master, addr := l.line, syn := l.difference }
  let n := s.store.mismatches.get k 0 + 1
  let s1 := log (bumpF s (.eccCe unit) 0 24 1) entry
  let s2 := { s1 with store := { s1.store.l1Leave c fetch l.line with mismatches := s1.store.mismatches.put k n 0 } }
  if n < 3 then s2
  else
    let s3 := log (bumpF s2 (.eccUe unit) 0 24 1) { entry with type := 7 }
    { s3 with store := { s3.store with ways := k :: s3.store.ways } }

/-- The line of an address is read through the data cache or the instruction cache of core `c`: a hit whose CRC holds, otherwise a fill
(R148, R149). -/
def l1Read (s : State) (c : Nat) (fetch : Bool) (a : Nat) (master : Byte) : List (Word72 × Bool) × State :=
  match s.store.l1Find c fetch a with
  | none => l1Miss s c fetch a master
  | some l =>
    if l.difference = 0 then
      let st := s.store.l1Front c fetch a l
      (l.words, { s with store := { st with mismatches := st.mismatches.put (wayKey c fetch (l1Set a) l.way) 0 0 } })
    else l1Miss (crcMismatch s c fetch l master) c fetch a master

/-- The word at `a` through the data cache of core `c` (R346). -/
def cachedRead (s : State) (c : Nat) (a : Nat) (master : Byte) : Word × State :=
  let r := l1Read s c false a master
  let w := r.1.getD (lineSlot a) (0, false)
  ({ data := w.1, poison := w.2 }, r.2)

/-- A store of a scalar core is written through its data cache into L2, which allocates and holds the line dirty (R346, R348); copies
of the line in the other first-level caches go. A merge that meets poison keeps the word (R145). -/
def cachedWrite (s : State) (c : Nat) (a : Nat) (mask data : Word72) (master : Byte) : State :=
  if mask = 0 then s
  else
    let key := wordBase a
    let s1 := fillL2 (clearReservations s key) a master
    let r := if mask = BitVec.allOnes 72 then (({ data, poison := false } : Word), s1) else
      match readL2 s1 key master with
      | (x, s2) => (if x.poison then x else { data := maskInto x.data mask data, poison := false }, s2)
    if r.1.poison then r.2
    else
      let st := ((r.2.store.putL2 key { data := r.1.data }).soil key).l1Drop key c
      { r.2 with store := match st.l1Find c false a with
        | some l => st.setL1 c false a ((st.l1Lines c false a).map (fun x =>
            if x.line = l.line then x.stored (lineSlot a) (r.1.data, false) else x))
        | none => st }

/-- The word at ply address `a` as it reaches the core or other master `w`. -/
def accessWord (s : State) (w : Who) (a : Nat) : Word × State :=
  if viaCaches s w a then cachedRead s w.core a w.master else fetchWord s a w.master

/-- Plies `mask` of the word at ply address `a` are written by `w`. -/
def putWord (s : State) (w : Who) (a : Nat) (mask : BitVec 6) (data : Word72) : State :=
  if viaCaches s w a then cachedWrite s w.core a (plyBits mask) data w.master
  else writeWord s (wordBase (remapped s a)) mask data w.master

/-- Every dirty L2 line that `p` names is written back (R349). -/
def writeBackLines (s : State) (p : Nat → Bool) : State :=
  s.store.l2.entries.foldl (fun t e => if e.2.dirty && p e.2.line then writeBack t e.2 else t) s

/-- Dirty lines that `p` names are written back, and every copy of a line that it names leaves every cache (R349). -/
def flushLines (s : State) (p : Nat → Bool) : State :=
  let s1 := writeBackLines s p
  { s1 with store := s1.store.forget p }

end Sys2Proof.Machine
end

