-- ==== Sys2Proof/Machine/Regs.lean ====
section
/-! DEFINITION. Writing control registers: the reject codes (R543), how a write is judged (R21, R650), and how the fields of
a register take a written value (R16, R19). -/

namespace Sys2Proof.Machine

/-- The reasons of R543. -/
inductive Reject where
  | busy | notPermitted | reservedCode | pinned | retired | lockFull | fixed | lifeline | power | belowMin | noImage
  | writtenOnce | notReady | noPump | layout
  /-- The firmware codes of R586. -/
  | firmware (code : BitVec 12)
deriving DecidableEq, Repr

/-- The CODE of a reason (R543). -/
def Reject.code : Reject → BitVec 12
  | .busy => 1 | .notPermitted => 2 | .reservedCode => 3 | .pinned => 4 | .retired => 5 | .lockFull => 6 | .fixed => 7
  | .lifeline => 8 | .power => 9 | .belowMin => 10 | .noImage => 11 | .writtenOnce => 12 | .notReady => 13
  | .noPump => 14 | .layout => 15 | .firmware c => c

/-- The outcome of a register write: rejected with a reason, or a new state. -/
abbrev Written := Except Reject State

/-- The first reason that applies, in order; with none the write is accepted and `t` follows (R650). -/
def judge (reasons : List (Bool × Reject)) (t : State) : Written :=
  match reasons.find? (fun x => x.1) with
  | some (_, r) => .error r
  | none => .ok t

/-- A rejection is posted in a CMD_STATUS register: REJ at `bit`, the reason in CODE (R21). -/
def post (s : State) (status : Rg) (i : Nat) (r : Reject) : State :=
  wr (markSet s status (setBit 0 i true)) status (setBits (setBit (rd s status) i true) 12 r.code)

/-- The register has been written in this start and the value breaks R19. -/
def writtenOnce (s : State) (r : Rg) (v : Reg24) : Bool :=
  r.bits.rws != 0 && s.rwsDone.contains r.index &&
    ((r.bits.rw == 0 && !r.bits.wo) || (v &&& r.bits.rws) != (rd s r &&& r.bits.rws))

/-- The fields of a register take a written value, each under its access code (R16, R19); a W1C bit that the hardware has set in this clock stays
1 (R17). -/
def store (s : State) (r : Rg) (v : Reg24) : State :=
  let b := r.bits
  let m := b.rw ||| b.rws
  let s1 := wr s r (((rd s r &&& ~~~m) ||| (v &&& m)) &&& ~~~(v &&& b.w1c &&& ~~~justSet s r))
  if b.rws = 0 ∨ r.index ∈ s.rwsDone then s1 else { s1 with rwsDone := s1.rwsDone ++ [r.index] }

/-- The owner of a line, a timer channel or a lane is to change when the present event tick ends (R478). -/
def changeOwner (s : State) (x : Owned) (o : OwnerCode) : State :=
  { s with events := { s.events with moved := s.events.moved.filter (fun y => y.1 != x) ++ [(x, o)] } }

/-- Safety-world supervisor code, of a partition or the lifeline; boot firmware is admitted with it. -/
def Auth.safe (a : Auth) : Bool := a.boot || (a.safety && a.sup)

/-- Safety-world supervisor code of partition `p`. -/
def Auth.safeOf (a : Auth) (p : Nat) : Bool := a.safSup p

/-- The partition that an actor's code names. -/
def Auth.part (a : Auth) : Nat := codePart a.code

/-- An owner code that R25 reserves. -/
def badOwner (c : OwnerCode) : Bool := reservedCode c

end Sys2Proof.Machine
end

