-- ==== Sys2Proof/Machine/Deep.lean ====
section
/-! DEFINITION. The deep store and its integrity: requests of crossbar masters and their tags (R96 to R105, R124, R179), the
frame-table commands (R121 to R129), the scrubber (R155 to R161), and writes to the DS_, FT_, ECC_ and SCR_ registers. -/

namespace Sys2Proof.Machine

/-! Masters and their requests. -/

/-- The running context of a core as an accessor (R31, R114, R129). -/
def coreWho (s : State) (c : Nat) : Who :=
  { code := carried s (coreCode s c), safety := (ctxOf s c).safety, sup := (ctxOf s c).sup, core := c, master := BitVec.ofNat 8 (16 + c) }

/-- The splice that runs on pump `i` or is being saved from it. -/
def spliceOn (s : State) (i : Nat) : Option Splice :=
  s.splices.list.find? (fun p => p.phase == .running i || p.phase == .saving i)

/-- Pump `i` is the lifeline pump: PUMP of LL_STAT names it and its LL bit is 1, until step 2 of R408 (R225, R256, R407, R652). -/
def isLifelinePump (s : State) (i : Nat) : Bool := llHolds s && llPump s == i && rdB s (.pmpStat i) 2

/-- The owner code and rights of a pump's accesses: those of its splice; the lifeline pump's are lifeline's (R31, R114). -/
def pumpWho (s : State) (i : Nat) : Who :=
  let m : Byte := BitVec.ofNat 8 i
  if isLifelinePump s i then { code := 8, safety := true, sup := true, master := m }
  else match spliceOn s i with
    | some p => { code := p.owner, safety := p.safety, sup := p.sup, master := m }
    | none => { code := 0xF, safety := false, sup := false, master := m }

/-- Aftar as an accessor (R598). -/
def aftarWho (s : State) : Who :=
  let o := carried s (rdF s .dbgCtl 1 4)
  { code := o, safety := codeSafety o && o != 0xF, sup := true, aftar := true, master := 23 }

/-- The lane whose owner code a ring of the sample-port DMA carries: input lanes 0 to 15, output lanes 16 to 31 (R31). -/
def ringOwner (s : State) (d : Nat) : OwnerCode := if d < 16 then rdF s (.rxCfg d) 0 4 else rdF s (.txCfg (d - 16)) 0 4

/-- A ring of the sample-port DMA as an accessor (R31, R114). -/
def ringWho (s : State) (d : Nat) : Who :=
  { code := carried s (ringOwner s d), safety := codeSafety (ringOwner s d), sup := true, master := 22 }

/-- Host DMA of a function as an accessor (R31, R114). -/
def hostWho (f : Nat) : Who := { code := ownerCode f false, safety := false, sup := true, master := 21 }

/-- A crossbar master as an accessor (R31, R114). -/
def masterWho (s : State) : Master → Who
  | .pump i => pumpWho s i
  | .core c => coreWho s c
  | .hostDma f => hostWho f
  | .smpDma d => ringWho s d
  | .aftar => aftarWho s
  | .scrubber => { code := 0xF, safety := false, sup := false, master := 24, exempt := true }

/-- The tags that RES of a channel reserves while the reservation is in force (R102, R103). -/
def reservedTags (s : State) (n : Nat) : Nat :=
  if n = 127 ∨ ¬ llHolds s then 0
  else match (rdF s (.dsChCfg n) 0 2).toNat with
    | 0 => 0 | 1 => 32 | 2 => 64 | _ => 128

/-- The transactions that hold a tag of a channel. -/
def flights (s : State) (n : Nat) : List Flight := s.store.inflight.filter (fun q => channelOf q.addr == n)

/-- A channel has a free tag for the class of an access: reserved tags serve the lifeline class only (R96, R104). -/
def tagFree (s : State) (n : Nat) (lifeline : Bool) : Bool :=
  let all := flights s n
  if lifeline then all.length < 1024
  else all.length < 1024 && (all.filter (fun q => (masterWho s q.master).code != 8)).length < 1024 - reservedTags s n

/-- The crossbar target that serves an address (R33, R193). -/
def targetOf (a : Nat) : Nat :=
  match regionOf a with
  | some (.cistern n) => n
  | some .deep => 16
  | some .sump => 17
  | some .registers => 18
  | some .window => 19
  | _ => 20

/-- The priority of a master at a target (R195, R206). -/
def priority (s : State) (m t : Nat) : Nat := (rdF s (.xbPri m (t / 8)) (3 * (t % 8)) 3).toNat

/-- The master is ranked outside the priority levels: the lifeline pair and the lifeline pump carrying 0b1000, and the scrubber
(R195). -/
def unlevelled (s : State) (m : Nat) : Bool := m == 20 || m == 24 || (decide (m < 16) && isLifelinePump s m)

/-- A grant moves the round-robin pointer of the target's priority level past the master (R196). -/
def granted (s : State) (m t : Nat) : State :=
  if unlevelled s m then s
  else { s with store := { s.store with rr := s.store.rr.put (t * 8 + priority s m t) ((m + 1) % 25) 0 } }

/-- The tag that a channel gives next: the lowest that no transaction owns (R96; DESIGN CHOICE, log 170). -/
def freeTag (s : State) (n : Nat) : Nat :=
  ((List.range 1024).find? (fun i => !(flights s n).any (fun q => q.tag == i))).getD 0

/-- A transaction holds a tag of its channel until it completes (R96). -/
def takeTag (s : State) (f : Flight) : State := { s with store := { s.store with inflight := s.store.inflight ++ [f] } }

/-- A target serves a request whose check has passed: a write at once, a read as its word; in the deep store either holds a tag (R96,
R98, R99, R140). -/
def serve (s : State) (q : Request) : State :=
  let m := masterNumber q.master
  let s0 := granted s m (targetOf q.addr)
  let tag := freeTag s (channelOf q.addr)
  let code : Byte := BitVec.ofNat 8 m
  match q.write with
  | some (mask, d) =>
    let s1 := writeWord s0 (wordBase (remapped s q.addr)) mask d code
    if inFrames q.addr then takeTag s1 { master := q.master, addr := q.addr, data := 0, poison := false, write := true, tag } else s1
  | none =>
    match fetchWord s0 q.addr code with
    | (w, s1) =>
      if inFrames q.addr then takeTag s1 { master := q.master, addr := q.addr, data := w.data, poison := w.poison, tag }
      else send s1 (.word code (wordBase q.addr) w.data w.poison)

/-- The access of `w` to address `a` waits for a tag of its class at its channel; through the caches, a line that L2 does not hold
needs one at the channel of each of its words (R97). -/
def waitsTag (s : State) (w : Who) (a : Nat) : Bool :=
  let full := fun k => !tagFree s (channelOf k) (w.code == 8)
  inFrames a &&
    (if viaCaches s w a then (s.store.l2Way a).isNone && (lineKeys (lineOf a)).any full else full a)

/-- BASE, LEN and RUN of ring `d` (R505, R515). -/
def ringBase (s : State) (d : Nat) : Nat := (rd s (.dbl d)).toNat + (rdF s (.dbh d) 0 16).toNat * 2 ^ 24
def ringLen (s : State) (d : Nat) : Nat := (rdF s (.dlen d) 0 20).toNat
def ringRuns (s : State) (d : Nat) : Bool := rdB s (.dlen d) 20

/-- An access of ring `d` fails: ERR is set and RUN cleared (R505). -/
def ringError (s : State) (d : Nat) : State := wrB (setFlag s (.dlen d) 21) (.dlen d) 20 false

/-- A refused access of ring `d` to address `a` leaves IDX at the entry, whatever IDX it has (R505). -/
def ringRefused (s : State) (d a : Nat) : State :=
  let b := ringBase s d
  let s1 := if b ≤ a ∧ (a - b) / 2 < 2 ^ 20 then wrF s (.didx d) 0 (BitVec.ofNat 20 ((a - b) / 2)) else s
  ringError s1 d

/-- A refused access has no effect but its count and the answer to its master (R32), and the stop of a ring (R505); what it does to a pump's
splice or to a core is noted for `settleRefused`. -/
def refuse (s : State) (q : Request) : State :=
  let s1 := send (countFailure s) (.refusal (BitVec.ofNat 8 (masterNumber q.master)) (wordBase q.addr))
  let s2 := { s1 with store := { s1.store with refused := s1.store.refused ++ [q] } }
  match q.master with
  | .smpDma d => ringRefused s2 d q.addr
  | _ => s2

/-- Requests held for a moving frame on a channel: those for all moving frames together fill its 64 places (log 122). -/
def heldOn (s : State) (n : Nat) : Nat := (s.store.held.filter (fun q => inFrames q.addr && channelOf q.addr == n)).length

/-- A request waits at its target port for a tag or for room among the held ones (R97, R125). -/
def waitAtPort (s : State) (q : Request) : State := { s with store := { s.store with tagWait := s.store.tagWait ++ [q] } }

/-- The plies that a request reaches beyond the first of its word lie in the region (R34): the last ply that a write names, or that a
read takes. -/
def requestLeaves (q : Request) : Bool :=
  match q.write with
  | some (mask, _) => (List.range 6).any (fun p => bit mask p && regionOf (wordBase q.addr + p) != regionOf q.addr)
  | none => leavesRegion (wordBase q.addr) 6

/-- An earlier request of crossbar master `m` waits at the port of target `t` (R97). -/
def behindAt (s : State) (m t : Nat) : Bool :=
  s.store.tagWait.any (fun x => masterNumber x.master == m && targetOf x.addr == t)

/-- An earlier request of the same crossbar master waits at the same port (R97). -/
def behind (s : State) (q : Request) : Bool := behindAt s (masterNumber q.master) (targetOf q.addr)

/-- The crossbar serves no request of the master: its clock is gated in READY, where only word accesses of Aftar ungate it (R40, R549, R600,
R622), and a frozen sample-port DMA makes no access (R608). -/
def crossbarGated (s : State) (m : Master) : Bool :=
  (inReady s && m != .aftar) || (frozen s 20 && (match m with | .smpDma _ => true | _ => false))

/-- A request is held at its target. -/
def hold (s : State) (q : Request) : State := { s with store := { s.store with held := s.store.held ++ [q] } }

/-- A waiting request can go on now: a tag is free for its class, and a request for a moving frame finds room among the held ones
(R97, R125). -/
def mayGo (s : State) (q : Request) : Bool :=
  !crossbarGated s q.master && tagFree s (channelOf q.addr) ((masterWho s q.master).code == 8) &&
    !((frameAt s (frameOf q.addr)).moving && decide (64 ≤ heldOn s (channelOf q.addr)))

/-- The requests that may go next to channel `n`: each the first of its master at the port, with a tag for its class. -/
def candidates (s : State) (n : Nat) : List Nat → List Request → List (Request × Nat)
  | _, [] => []
  | seen, q :: t =>
    let key := masterNumber q.master * 32 + targetOf q.addr
    let rest := candidates s n (key :: seen) t
    if channelOf q.addr = n ∧ key ∉ seen ∧ mayGo s q then (q, masterNumber q.master) :: rest else rest

/-- The rank of a master at a target: the lifeline pair, the lifeline pump, priority and round-robin, the scrubber (R195, R196). -/
def rank (s : State) (m t : Nat) : Nat :=
  if m = 20 then 0
  else if m = 24 then 1000
  else if unlevelled s m then 1
  else
    let p := priority s m t
    2 + (7 - p) * 32 + (m + 25 - s.store.rr.get (t * 8 + p) 0) % 25

/-- The arbitration of target `t` picks a request that waits at the port of channel `n` before one of master `m` (R97, R195). -/
def outranked (s : State) (m t n : Nat) : Bool := (candidates s n [] s.store.tagWait).any (fun x => rank s x.2 t < rank s m t)

/-- The lowest ply that a request names: a word of the control store may lie in pages 7 and 8, which R457 tells apart. -/
def namedPly (q : Request) : Nat :=
  match q.write with
  | some (mask, _) => match (List.range 6).find? (fun p => bit mask p) with
    | some p => wordBase q.addr + p
    | none => q.addr
  | none => q.addr

/-- A request reaches its target: checked, then served, refused, held, or made to wait for a tag or for those that the arbitration picks before
it (R32, R34, R97, R124, R125, R179, R195); while the crossbar
serves none of its master's it waits for that to end (R40, R608; log 132). -/
def arrive (s : State) (q : Request) : State :=
  let w := masterWho s q.master
  let kind : Kind := if q.write.isSome then .write else .read
  if crossbarGated s q.master then hold s q
  else if requestLeaves q then refuse s q
  else match checked s w (namedPly q) kind with
  | (.refused, s1) => refuse s1 q
  | (.held, s1) =>
    if inFrames q.addr ∧ 64 ≤ heldOn s1 (channelOf q.addr) then waitAtPort s1 q
    else hold s1 q
  | (.ok, s1) =>
    if inFrames q.addr ∧ (¬ tagFree s1 (channelOf q.addr) (w.code == 8) ∨
        outranked s1 (masterNumber q.master) (targetOf q.addr) (channelOf q.addr)) then waitAtPort s1 q
    else serve s1 q

/-- A store of core `c` that is not yet accepted, and so not yet visible, as `p` says (R352): a write request of it waits at its port or its
target. -/
def storeWaits (s : State) (c : Nat) (p : Request → Bool) : Bool :=
  (s.store.held ++ s.store.tagWait).any (fun q => (match q.master with | .core d => d.val == c | _ => false) && q.write.isSome && p q)

/-- Some store of core `c` is not yet visible (R352). -/
def storesPending (s : State) (c : Nat) : Bool := storeWaits s c (fun _ => true)

/-- A load of core `c` that has no value yet (R356). -/
def loadsPending (s : State) (c : Nat) : Bool :=
  let mine := fun (m : Master) => match m with | .core d => d.val == c | _ => false
  (s.store.held ++ s.store.tagWait).any (fun q => mine q.master && q.write.isNone) || s.store.inflight.any (fun q => mine q.master && !q.write)

/-- An access of core `c` to plies `a` to `a + n − 1` waits for an earlier store of the core: a store for any, since stores become visible in
order, a load for one of its word, and an access of the control registers for any (R353, R354, R355, R357). -/
def waitsForStore (s : State) (c a n : Nat) (k : Kind) : Bool :=
  match k with
  | .write => storesPending s c
  | .read => if regionOf a = some .registers then storesPending s c
    else storeWaits s c (fun q => wordBase a ≤ wordBase q.addr && decide (q.addr < wordBase (a + n - 1) + 6))
  | .exec => false

/-- A request is made: behind its master's waiting ones, or to its target (R97). -/
def request (s : State) (q : Request) : State :=
  if behind s q ∧ ¬ crossbarGated s q.master then waitAtPort s q
  else arrive s q

/-- Requests held at a target arrive again in their order (R124, R179). -/
def serveHeld (s : State) (here : Nat → Bool) : State :=
  let mine := s.store.held.filter (fun q => here q.addr)
  let s1 := { s with store := { s.store with held := s.store.held.filter (fun q => !here q.addr) } }
  mine.foldl arrive s1

/-- The candidate of the best rank, the earlier of equals. -/
def pickRequest (s : State) (l : List (Request × Nat)) : Option Request :=
  match l with
  | [] => none
  | x :: t => some (t.foldl (fun b y =>
      if rank s y.2 (targetOf y.1.addr) < rank s b.2 (targetOf b.1.addr) then y else b) x).1

/-- A waiting request is accepted by its channel when a tag is free for it (R97). -/
def releaseTag (s : State) (n : Nat) : State :=
  match pickRequest s (candidates s n [] s.store.tagWait) with
  | some q => arrive { s with store := { s.store with tagWait := dropOne q s.store.tagWait } } q
  | none => s

/-- The access of `w` goes to a crossbar target: one through the caches does where L2 does not hold the line (R346). -/
def reachesTarget (s : State) (w : Who) (a : Nat) : Bool := !viaCaches s w a || (s.store.l2Way a).isNone

/-- An access of master `w` to a channel waits at its port: for a tag of its class, behind an earlier request of its master, or because the
arbitration picks a waiting request first (R97, R195). -/
def waitsPort (s : State) (w : Who) (a : Nat) : Bool :=
  let m := w.master.toNat
  let t := targetOf a
  waitsTag s w a ||
    (inFrames a && reachesTarget s w a && decide (m < 25) &&
      (behindAt s m t || outranked s m t (channelOf a)))

/-- An access that its target serves moves the round-robin pointer; one that the caches serve is granted by no target (R196). -/
def grantAccess (s : State) (w : Who) (a : Nat) : State :=
  if w.master.toNat < 25 ∧ reachesTarget s w a then granted s w.master.toNat (targetOf a) else s

/-- An access of a pump, a core or a device outside the commands of the crossbar: checked, held for want of a tag or for its turn at the port,
and granted by its target's arbitration (R32, R97, R196). -/
def admitted (s : State) (w : Who) (a n : Nat) (k : Kind) : Verdict × State :=
  match checkedPlies s w a n k with
  | (.ok, s1) => if waitsPort s1 w a then (.held, s1) else (.ok, grantAccess s1 w a)
  | r => r

/-- The transaction that channel `n` completes when number `k` is to: the first of those to the same word (R98). -/
def nextFlight (s : State) (n k : Nat) : Option Flight :=
  (flights s n)[k]?.bind (fun q => (flights s n).find? (fun x => wordBase x.addr == wordBase q.addr))

/-- A transaction of channel `n` completes and its tag is free: a read returns its word with its tag, and the latency maxima of DS_LATMAX_n
take `lat` (R96, R98, R133). -/
def returnRead (s : State) (n k : Nat) (lat : BitVec 12) : State :=
  match nextFlight s n k with
  | none => s
  | some q =>
    let s1 := { s with store := { s.store with inflight := dropOne q s.store.inflight } }
    if q.write then s1
    else
      let lo := if (masterWho s q.master).code = 8 then 12 else 0
      let top := fun (t : State) (i : Nat) => if rdF t (.dsLatmax n) i 12 < lat then wrF t (.dsLatmax n) i lat else t
      let s2 := if lo = 12 then top (top s1 0) 12 else top s1 0
      send s2 (.word (BitVec.ofNat 8 (masterNumber q.master)) (wordBase q.addr) q.data q.poison (some q.tag))

/-! Reservations (R102 to R106). -/

/-- Every reserved tag of a channel is free for the lifeline class: RES_ACT reads 1 (R105). -/
def activateReservation (s : State) (n : Nat) : State :=
  let r := reservedTags s n
  let others := ((flights s n).filter (fun q => (masterWho s q.master).code != 8)).length
  if r ≠ 0 ∧ others + r ≤ 1024 then wrB s (.dsChStat n) 2 true else s

/-- A write of DS_CH_CFG_n (R105, R106, R131): a larger reservation is not active until its tags are free, a smaller one
is at once. -/
def writeDsChCfg (s : State) (a : Auth) (n : Nat) (v : Reg24) : Written :=
  let new : BitVec 2 := bits v 0 2
  let old := rdF s (.dsChCfg n) 0 2
  let s1 := store s (.dsChCfg n) v
  judge [(!a.safe, .notPermitted), (n == 127 && new != 0, .reservedCode)]
    (if new = 0 ∨ old < new then wrB s1 (.dsChStat n) 2 false else s1)

/-! Frame-table commands (R121 to R129). -/

/-- "In range" for command set `k` (R122). -/
def inRangeOf (s : State) (k n : Nat) : Bool :=
  if n < 2080768 then k < 4 && rangePart s n == k else 2080768 + 1536 ≤ n

/-- "Own frame" for command set `k` (R122). -/
def ownFrame (k : Nat) (o : OwnerCode) : Bool := if k = 4 then o == 8 else o.toNat < 8 && codePart o == k

/-- SET_OWNER (`op` 1) and SET_RIGHTS (2) are admitted for set `k`, frame `n` of owner `o` and new owner `new` (R122); a SET_OWNER of set 4
to the owner that a frame of its own, or one that it has released, already holds runs again (R126, R404; DEDUCED, log 141). -/
def mayMove (s : State) (k : Nat) (op : BitVec 3) (n : Nat) (o new : OwnerCode) : Bool :=
  if k = 4 then (o == 8 && (new == 0xF || new == 8)) || (op == 1 && o == 0xF && new == 0xF)
  else if ownFrame k o || (o == 0xF && inRangeOf s k n) then
    if n < 2080768 then new == 0xF || (new.toNat < 8 && codePart new == k) || (new == 8 && llEnabled s)
    else new == ownerCode k true || new == 0xF
  else inRangeOf s k n && o == 8 && llDisabled s && new == 0xF

/-- The entry of a frame as a command judges it: a discarded one as unowned (R119). -/
def FEntry.judged (e : FEntry) : FEntry :=
  if e.discarded then { owner := 0xF, rights := 0, retired := e.retired, moving := e.moving } else e

/-- The reasons against a frame-table command, in the order of R123; `op` is the written OP. -/
def ftReasons (s : State) (a : Auth) (k : Nat) (op : BitVec 3) : List (Bool × Reject) :=
  let n := (rdF s (.ftFrame k) 0 21).toNat
  let e := (frameAt s n).judged
  let o := e.owner
  let arg := rdF s (.ftArg k) 0 4
  let new := if op = 1 then arg else o
  let move := op == 1 || op == 2
  let disabling := llState s == 4 && k < 4 && op == 1 &&
    ((arg == 8 && n < 2080768 && (ownFrame k o || (o == 0xF && inRangeOf s k n))) || (o == 8 && arg == 0xF && inRangeOf s k n))
  [ (!(if k = 4 then a.lifeline else a.safSup k), .notPermitted),
    (rdB s (.ftCmd k) 0 || (e.moving && op != 6) || disabling, .busy),
    (op == 0 || op == 7 || (op == 1 && reservedCode arg), .reservedCode),
    (fixedFrame n && op != 6, .fixed),
    (e.retired && op != 6, .retired),
    (move && e.pinned, .pinned),
    (op == 1 && e.ecc == 3 && arg != 0xF, .retired),
    (move && new == 8 && o != 8 && 3 ≤ lockedInSet s n, .lockFull),
    (move && !mayMove s k op n o new, .notPermitted),
    ((op == 3 || op == 4) && !ownFrame k o, .notPermitted),
    (op == 5 && !(ownFrame k o || (o == 0xF && inRangeOf s k n)), .notPermitted) ]

/-- A write of FT_OP_k: an accepted command runs, SET_OWNER and SET_RIGHTS with MOVING set (R121, R124, R128). -/
def writeFtOp (s : State) (a : Auth) (k : Nat) (v : Reg24) : Written :=
  let op : BitVec 3 := bits v 0 3
  let n := (rdF s (.ftFrame k) 0 21).toNat
  let s1 := lookupFrame s n 0xFF
  let e := frameAt s1 n
  let cmd : FtCmd := ⟨op, n, rdF s (.ftArg k) 0 4, rdF s (.ftArg k) 4 12, rdB s (.ftArg k) 16,
    if op = 6 ∧ e.moving then some e.word else none⟩
  let s2 := wrB { s1 with store := { s1.store with ftRun := s1.store.ftRun.insert k cmd } } (.ftCmd k) 0 true
  judge (ftReasons s1 a k op)
    (if op = 1 ∨ op = 2 then setFrame s2 n { frameAt s2 n with moving := true } else s2)

/-- A write of another register of set `k` (R121, R129). -/
def writeFtSet (s : State) (a : Auth) (k : Nat) (r : Rg) (v : Reg24) : Written :=
  judge [(!(if k = 4 then a.lifeline else a.safSup k), .notPermitted), (rdB s (.ftCmd k) 0, .busy)] (store s r v)

/-- The command of set `k` is over: BUSY 0, DONE 1. -/
def ftDone (s : State) (k : Nat) : State :=
  wrB (wrB { s with store := { s.store with ftRun := s.store.ftRun.erase k } } (.ftCmd k) 0 false) (.ftCmd k) 1 true

/-- An entry set by a command, in the error log (R651). -/
def frameLog (s : State) (n : Nat) (type : Byte) : State :=
  log s { type, unit := channelOf (frameBase n), master := 0xFF, addr := frameBase n }

/-- Words whose key `p` names are zeroed with valid check bits. -/
def zeroWords (s : State) (p : Nat → Bool) : State := { s with mem := s.mem.keep (fun k => !p k) }

/-- The word lies in frame `n`. -/
def inFrame (n key : Nat) : Bool := inFrames key && frameOf key == n

/-- The words of frame `n` that lie in channel `c` (R109). -/
def frameWordsIn (n c : Nat) : Nat :=
  if 2080768 ≤ n then (if c = 127 then 8192 else 0)
  else if c = 127 then 0
  else if (c + 127 - 64 * n % 127) % 127 < 64 then 65 else 64

/-- Every word of frame `n` is zeroed with valid check bits; those in a failed channel are discarded and counted as uncorrectable
(R101, R124). -/
def zeroFrame (s : State) (n : Nat) : State :=
  let s1 := zeroWords s (fun k => inFrame n k && !failedAt s k)
  (List.range 128).foldl (fun t c => if rdB s (.dsChStat c) 1 then bumpF t (.eccUe c) 0 24 (frameWordsIn n c) else t) s1

/-- Reservations on words that `p` names are cleared (R336). -/
def clearReservedIn (s : State) (p : Nat → Bool) : State :=
  { s with cores := (List.range 5).foldl (fun t c =>
      let x := t.get c {}
      if x.reservation.any p then t.put c { x with reservation := none } {} else t) s.cores }

/-- The entry that ends a move (R126, R127). -/
def movedEntry (e : FEntry) (c : FtCmd) : FEntry :=
  { e with
    owner := if c.op = 1 then c.owner else e.owner
    rights := c.rights
    moving := false
    discarded := false
    retired := e.retired || (c.op == 1 && c.owner == 0xF && e.ecc == 3)
    ecc := if c.op = 1 ∧ c.zero ∧ e.ecc = 2 then (if e.ceCount = 0 then 0 else 1) else e.ecc }

/-- The new entry of a frame is written to the frame-table cache too (R124 step 4). -/
def cacheEntry (s : State) (n : Nat) : State :=
  let e := frameAt s n
  if e.owner = 8 then s else { s with store := s.store.ftEnter n { data := e.word } }

/-- Steps 2 to 4 of R124: dirty lines of the frame are written back and its copies leave the caches (R349), the frame is zeroed when
asked, the new entry is written to the cache and the sump, held transactions are checked. -/
def completeMove (s : State) (k : Nat) : State :=
  match s.store.ftRun.find k with
  | none => s
  | some c =>
    if c.op ≠ 1 ∧ c.op ≠ 2 then s
    else
      let n := c.frame
      let s0 := flushLines s (inFrame n)
      let s1 := if c.op = 1 ∧ c.zero then zeroFrame s0 n else s0
      let e := movedEntry (frameAt s1 n) c
      let s2 := clearReservedIn (cacheEntry (setFrame s1 n e) n) (inFrame n)
      let s3 := if e.retired ∧ ¬ (frameAt s n).retired then frameLog (recordRetirement s2 n) n 0x09 else s2
      serveHeld (ftDone s3 k) (inFrame n)

/-- PIN, UNPIN, RETIRE or READ takes effect and completes (R122, R128): the entry is read and changed at this instant (log 123), but READ
of a frame that was moving when FT_OP_k was written returns what the entry held then (R129). -/
def completeFrameCommand (s : State) (k : Nat) : State :=
  match s.store.ftRun.find k with
  | none => s
  | some c =>
    let n := c.frame
    let e := frameAt s n
    match c.op.toNat with
    | 3 => ftDone (setFrame s n { e with pinned := true }) k
    | 4 => ftDone (setFrame s n { e with pinned := false }) k
    | 5 =>
      if e.held = 0xF then
        ftDone (frameLog (recordRetirement (setFrame s n { e with retired := true }) n) n 0x09) k
      else ftDone (frameLog (setFrame s n { e with ecc := 3 }) n 0x08) k
    | 6 =>
      let w := c.seen.getD e.word
      ftDone (wr (wr (wr s (.ftEntry k 0) (bits w 0 24)) (.ftEntry k 1) (bits w 24 24)) (.ftEntry k 2) (bits w 48 24)) k
    | _ => s

/-! Error injection and configuration (R167, R168, R171). -/

/-- The word at the armed address may be altered: the interleaved region, general sump frames, the cisterns (R168). -/
def injectable (a : Nat) : Bool :=
  match regionOf a with
  | some .deep => true
  | some .sump => 2080768 + 1536 ≤ frameOf a
  | some (.cistern _) => true
  | _ => false

/-- The owner code of the cistern or frame that holds an address. -/
def storeOwner (s : State) (a : Nat) : OwnerCode :=
  match regionOf a with
  | some (.cistern n) => rdF s (.cisOwner n) 0 4
  | _ => (frameAt s (frameOf a)).held

/-- A write of ECC_INJ_CTL (R167, R168): a non-zero MODE arms, zero disarms. -/
def writeEccInjCtl (s : State) (a : Auth) (v : Reg24) : Written :=
  let m : BitVec 3 := bits v 0 3
  let ba := (bits v 3 7).toNat
  let bb := (bits v 10 7).toNat
  let addr := injectAddr s
  let o := storeOwner s addr
  judge [(!a.safe, .notPermitted),
      (6 ≤ m.toNat || 88 ≤ ba || 88 ≤ bb || ((m == 2 || m == 3) && ba == bb) || (m == 3 && bb == (ba + 1) % 88) ||
        plyInWord addr != 0 || !injectable addr, .reservedCode),
      (!(o.toNat < 8 && codePart o == a.part), .notPermitted)]
    (wrB (store s .eccInjCtl v) .eccInjCtl 17 (m != 0))

/-- Writes to the DS_, FT_, ECC_ and SCR_ registers. -/
def writeStoreBlock (s : State) (a : Auth) (r : Rg) (v : Reg24) : Written :=
  match r with
  | .dsChCfg n => writeDsChCfg s a n v
  | .ftFrame k => writeFtSet s a k r v
  | .ftArg k => writeFtSet s a k r v
  | .ftOp k => writeFtOp s a k v
  | .ftCmd k => writeFtSet s a k r v
  | .ftEntry k _ => writeFtSet s a k r v
  | .eccInjCtl => writeEccInjCtl s a v
  | .eccCfg => judge [(!a.safe, .notPermitted)] (store s r v)
  | .eccInjAlo => judge [(!a.safe, .notPermitted)] (store s r v)
  | .eccInjAhi => judge [(!a.safe, .notPermitted)] (store s r v)
  | .scrCfg => judge [(!a.safe, .notPermitted)] (store s r v)
  | _ => .ok (store s r v)

/-! The scrubber (R155 to R161) and the control-store repair (R473, R474). -/

/-- The number of words of a scrubbed unit; 0 for one that is not (R155, R158). -/
def unitWords (u : Nat) : Nat :=
  if u < 128 then 134217728 else if u < 144 then 524288
  else match u with
    | 144 => 2097152 | 145 => 16384 | 146 => 43691 | 147 => 8192 | 156 => 8192 | 157 => 128 | _ => 0

/-- The key of word `i` of a unit, where its words are stored words (R139, R155). -/
def unitKey (u i : Nat) : Option Nat :=
  if u < 127 then some (0x100000000 + 6 * (127 * i + u))
  else if u = 127 then some (sumpBase + 6 * i)
  else if u < 144 then some (0x10000000 + (u - 128) * 0x300000 + 6 * i)
  else match u with
    | 146 => some (0x50000000 + 6 * i)
    | 147 => some (0x58000000 + 6 * i)
    | 156 => some (0x60000000 + 6 * i)
    | 157 => some (0x60010000 + 6 * i)
    | _ => none

/-- The unit is scrubbed now (R157); a cistern of the lifeline takes no step while the lifeline pump runs (R156). -/
def scrubbed (s : State) (u : Nat) : Bool :=
  inRun s && !frozen s 16 && unitWords u != 0 &&
  (if 128 ≤ u ∧ u < 144 then
    rdF s (.cisStat (u - 128)) 0 2 == 0 &&
      !(rdF s (.cisOwner (u - 128)) 0 4 == 8 && (spliceOn s (llPump s)).isSome)
   else true)

/-- Where the scrubber stands in a unit that it has not reached: the cisterns are OFF at each start (R157, R188). -/
def freshScrub (u : Nat) : ScrubSt := { paused := decide (128 ≤ u ∧ u < 144) }

/-- Where the scrubber stands in a unit. -/
def scrubOf (s : State) (u : Nat) : ScrubSt := s.store.scrub.get u (freshScrub u)

/-- It takes a value. -/
def setScrub (s : State) (u : Nat) (x : ScrubSt) : State :=
  { s with store := { s.store with scrub := s.store.scrub.put u x (freshScrub u) } }

/-- Ticks that the lap in progress has run (R161). -/
def lapTicks (s : State) (x : ScrubSt) : Nat := x.spent + (if x.paused then 0 else s.store.scrubClock - x.began)

/-- A cistern leaves ON: its lap timer stops (R157). -/
def pauseLap (s : State) (u : Nat) : State :=
  let x := scrubOf s u
  setScrub s u { x with spent := lapTicks s x, paused := true }

/-- A cistern is ON again: its lap timer goes on. -/
def resumeLap (s : State) (u : Nat) : State :=
  let x := scrubOf s u
  setScrub s u { x with spent := lapTicks s x, began := s.store.scrubClock, paused := false }

/-- The next lap number, never one whose low 12 bits are zero (R159). -/
def nextLap (n : Nat) : Nat := if (n + 1) % 4096 = 0 then n + 2 else n + 1

/-- Channel `c` has scrubbed its words of interleaved frame `f` in lap `n`. -/
def channelPast (s : State) (f n c : Nat) : Bool :=
  let x := scrubOf s c
  n < x.lap || (x.lap == n && 8192 * (f + 1) ≤ 127 * x.pos + c)

/-- SCRUB_LAP of the frame that a channel's step has just finished (R160); `i` is the word of the unit that was read. -/
def frameLap (s : State) (u i lap : Nat) : State :=
  let mark := fun n => setFrame s n { frameAt s n with lap := BitVec.ofNat 12 lap }
  if u < 127 then
    let f := (127 * i + u) / 8192
    if (127 * (i + 1) + u) / 8192 ≠ f ∧ (List.range 127).all (fun c => channelPast s f lap c) then mark f else s
  else if u = 127 ∧ i % 8192 = 8191 then mark (2080768 + i / 8192)
  else s

/-- The lap of a unit ends (R161). -/
def lapEnd (s : State) (u : Nat) : State :=
  let x := scrubOf s u
  let ms := lapTicks s x / 40000
  let s1 := wr s (.scrLaptime u) (BitVec.ofNat 24 (if ms ≤ 8388607 then ms else 8388607))
  let s2 := wr s1 (.scrLapnum u) (BitVec.ofNat 24 x.lap)
  report (setScrub s2 u { pos := 0, lap := nextLap x.lap, began := s.store.scrubClock })

/-- The bits of ply `x` of the vector control store that a patch may write: the vendor's, or the customer's (R459, R463). Bits 47:43 of a
dispatch entry stay zero (R462), and so do the plies of word 43,690 beyond the store (R456). -/
def patchMask (customer : Bool) (x : Nat) : Ply :=
  let all : Ply := BitVec.allOnes 12
  let entry : Ply := if x % 4 = 3 then 0x07F else all
  if customer then
    (if x = 195569 then 0x00F else if 196480 ≤ x ∧ x < 196544 then entry else if 196608 ≤ x ∧ x < 262144 then all else 0)
  else if 131072 ≤ x ∧ x < 195568 then all
  else if x = 195568 then 0xF00
  else if 196352 ≤ x ∧ x < 196384 then entry
  else 0

/-- Those bits of word `k`. -/
def patchBits (customer : Bool) (k : Nat) : Word72 :=
  (List.range 6).foldl (fun v i => setBits v (12 * i) (patchMask customer (6 * k + i))) 0

/-- The control-store words that the payload of a component of type `t` writes (R455, R468). -/
def suppliedWords (t : Nat) (payload : List Byte) : List (Nat × Word72) :=
  if t = 3 then Config.vectorPatchWords payload else if t = 4 then Config.scalarPatchWords payload
  else if t = 5 then Config.customerWords payload else []

/-- Word `k` of a control store with `v` written over it by a component of type `t`: only the bits that it may write change (R459, R463,
R466, R467). -/
def patched (t k : Nat) (old v : Word72) : Word72 :=
  if t = 4 then scalarBits k v
  else
    let m := patchBits (t == 5) k
    (old &&& ~~~m) ||| (v &&& m)

/-- The 9-byte words of a payload (R5). -/
def payloadWords (l : List Byte) : List Word72 :=
  (List.range ((l.length + 8) / 9)).map (fun k => BitVec.ofNat 72 (leNat ((l.drop (9 * k)).take 9)))

/-- A payload as its copy from `a` on holds it in host-byte order (R5). A word that can no longer be read counts with what was written there:
what another word of the store gets does not rest on it. -/
def copiedBytes (s : State) (a : Nat) (payload : List Byte) : List Byte :=
  let word := fun (i : Nat) (v : Word72) =>
    let w := cellAt s (a + 6 * i)
    if failedAt s (a + 6 * i) then v else match decodeWord w with
    | .clean => w.data
    | .ce _ => w.data
    | _ => v
  (((payloadWords payload).mapIdx word).flatMap (fun v => (List.range 9).map (wordByte v))).take payload.length

/-- The content that word `k` of a control store has from its sources: the ROM, and over it what each component supplies, read back from its
authenticated copy (R455, R468, R473); with the copies that supply it. -/
def sourceWord (s : State) (scalar : Bool) (k : Nat) : Word72 × List (Nat × Nat × List Byte) :=
  let rom := if scalar then scalarBits k (Config.scalarRom k) else romWord k
  s.fw.copies.foldl (fun x c =>
    if (c.1 == 4) != scalar then x
    else match (suppliedWords c.1 (copiedBytes s c.2.1 c.2.2)).filter (fun w => w.1 == k && (scalar || patchBits (c.1 == 5) k != 0)) with
      | [] => x
      | l => (l.foldl (fun v w => patched c.1 k v w.2) x.1, x.2 ++ [c])) (rom, [])

/-- The word of a copy that holds what it supplies for word `k` of a control store (log 22). -/
def sourceAddr (scalar : Bool) (k : Nat) (c : Nat × Nat × List Byte) : Nat :=
  c.2.1 + 6 * (Config.copyOf scalar k % ((c.2.2.length + 8) / 9))

/-- A control-store word found uncorrectable is rewritten from its source: the mask ROM, or the authenticated copies of the components that
supply it, of which the word that holds it is read (`Config.copyOf`); it is written as poisoned when that word is uncorrectable too.
Counted and logged as a UE (R473, R474). -/
def repair (s : State) (scalar : Bool) (k : Nat) (master : Byte) : State :=
  let key := (if scalar then 0x58000000 else 0x50000000) + 6 * k
  let unit := if scalar then 147 else 146
  let w := cellAt s key
  let src := sourceWord s scalar k
  let r : Bool × State := src.2.foldl (fun x c =>
    let y := readWord x.2 (sourceAddr scalar k c) master
    (x.1 || y.1.poison, y.2)) (false, s)
  let s1 := setMem r.2 key (if r.1 then .poisoned else { data := src.1 })
  log (bumpF s1 (.eccUe unit) 0 24 1)
    { type := 3, unit, master, addr := key, syn := Config.eccSyndrome w.err w.fold w.poison }

/-- A sequencer, or scalar microcode, reads word `k` of its control store: decoded, a CE corrected, a UE or an ACE repaired first (R472,
R473). -/
def controlRead (s : State) (scalar : Bool) (k : Nat) (master : Byte) : Word × State :=
  let key := (if scalar then 0x58000000 else 0x50000000) + 6 * k
  match decodeWord (cellAt s key) with
  | .ue => readTarget (repair s scalar k master) key master
  | .ace => readTarget (repair s scalar k master) key master
  | _ => readTarget s key master

/-- The words of the control stores under keys `lo` to `hi − 1` that do not read clean. -/
def damaged (s : State) (lo hi : Nat) : List Nat :=
  (s.mem.entries.filter (fun x => decide (lo ≤ x.1 ∧ x.1 < hi) && decodeWord x.2 != .clean)).map (·.1)

/-- Microcode reads those of some words that it reaches, each corrected or repaired first (R472, R473), up to one that is poisoned (R474). -/
def reachWords (scalar : Bool) (master : Byte) (reached : Nat → State → Bool × State) : List Nat → State → Option Nat × State
  | [], s => (none, s)
  | k :: l, s =>
    match reached k s with
    | (false, t) => reachWords scalar master reached l t
    | (true, t) =>
      let r := controlRead t scalar ((k - (if scalar then 0x58000000 else 0x50000000)) / 6) master
      if r.1.poison then (some k, r.2) else reachWords scalar master reached l r.2

/-- The scrubber reads word `i` of L2: its line stands at `i` div 8, set by set and way by way (R155; DESIGN CHOICE, log 143). -/
def scrubL2 (s : State) (i : Nat) : State :=
  match s.store.l2.find (i / 8) with
  | none => s
  | some l => match l.words[i % 8]? with
    | none => s
    | some w => (decodeRead s .l2 (l.line + 6 * (i % 8)) 0xFF w).2

/-- The scrubber reads an unlocked entry of the frame-table cache (R155): only a UE has it read again from the sump channel (R162); a
poisoned or ACE result writes nothing. -/
def scrubEntry (s : State) (l : FtLine) : State :=
  let r := readCopy s l.frame false 0xFF l.copy
  match decodeWord l.copy with
  | .ue => readEntry r.2 l.frame 0xFF
  | _ => r.2

/-- The scrubber reads entry `i` of the frame-table cache: the locked entries of set `i` div 4, each in both copies at one step, then its
unlocked ones, most recent first (R118, R155; which index is which way and copy is the model's choice, DESIGN CHOICE, log 143). -/
def scrubTable (s : State) (i : Nat) : State :=
  let set := i / 4
  let locked := s.store.ftLocked.entries.filter (fun e => e.1 % 4096 == set)
  match locked[i % 4]? with
  | some (n, p) => readLocked s n 0xFF p true
  | none => match (s.store.ftCache.get set [])[i % 4 - locked.length]? with
    | none => s
    | some l => scrubEntry s l

/-- The scrubber reads the next word of a unit: corrected, poisoned, repaired or left (R155, R473). -/
def scrubWord (s : State) (u i : Nat) : State :=
  if u = 144 then scrubL2 s i
  else if u = 145 then scrubTable s i
  else if u = 146 ∨ u = 147 then (controlRead s (u == 147) i 0xFF).2
  else match unitKey u i with
    | none => s
    | some key => (readTarget s key 0xFF).2

/-- The position moves past the word read, and the frame's and the lap's end are noted (R159 to R161). -/
def scrubAdvance (s : State) (u : Nat) : State :=
  let x := scrubOf s u
  let s1 := frameLap (setScrub s u { x with pos := x.pos + 1 }) u x.pos x.lap
  if unitWords u ≤ x.pos + 1 then lapEnd s1 u else s1

/-- The limit of a lap in units of 100 ms (R161). -/
def lapLimit (s : State) (u : Nat) : Nat := if u < 128 then (rdF s .scrCfg 4 12).toNat else (rdF s .scrCfg 16 8).toNat

/-- A lap runs past its limit (R161); a limit of 0 disables the alarm. -/
def lapIsOverdue (s : State) (u : Nat) : State :=
  if unitWords u = 0 ∨ lapLimit s u = 0 ∨ rdB s (.scrLaptime u) 23 ∨ ¬ scrubbed s u then s
  else report (log (wrB s (.scrLaptime u) 23 true) { type := 0x0B, unit := u, master := 0xFF, addr := 0 })

end Sys2Proof.Machine
end

