-- ==== Sys2Proof/Machine/Cistern.lean ====
section
/-! DEFINITION. Cisterns and the crossbar: handover (R178 to R180), power states (R181 to R188), the window-zero remap (R189
to R192), and writes to the CIS_ and XB_ registers. -/

namespace Sys2Proof.Machine

/-- STATE of a cistern (R205). -/
def cisState (s : State) (n : Nat) : BitVec 2 := rdF s (.cisStat n) 0 2

/-- A power transition of the cistern runs. -/
def inTransition (s : State) (n : Nat) : Bool := cisState s n == 3

/-- A handover of the cistern runs. -/
def inHandover (s : State) (n : Nat) : Bool := rdB s (.cisStat n) 7

/-- OWNER of a cistern. -/
def cisOwnerOf (s : State) (n : Nat) : OwnerCode := rdF s (.cisOwner n) 0 4

/-- HOME of a cistern. -/
def cisHome (s : State) (n : Nat) : Nat := (rdF s (.cisStat n) 9 2).toNat

/-- The key lies in cistern `n` (R172). -/
def inCistern (n key : Nat) : Bool := regionOf key == some (.cistern n)

/-- The handover state of a cistern. -/
def handoverOf (s : State) (n : Nat) : Handover := s.handovers.get n {}

/-- It takes a value. -/
def setHandover (s : State) (n : Nat) (h : Handover) : State := { s with handovers := s.handovers.put n h {} }

/-- A handover starts: HANDOVER reads 1 and new accesses are held (R179). -/
def startHandover (s : State) (n : Nat) (o : OwnerCode) (scrub : Bool) : State :=
  wrB (setHandover s n { running := true, owner := o, scrub }) (.cisStat n) 7 true

/-- A handover of R180 starts, as by an accepted write with SCRUB = 1. -/
def startScrubbed (s : State) (n : Nat) (o : OwnerCode) : State := startHandover (wrB s (.cisOwner n) 4 true) n o true

/-- The handover of R180, after the handover or transition that runs (R203). -/
def lifelineHandover (s : State) (o : OwnerCode) : State :=
  if inHandover s 15 ∨ inTransition s 15 then setHandover s 15 { handoverOf s 15 with next := some o }
  else startScrubbed s 15 o

/-- A power transition starts (R182, R183); leaving ON stops the lap timer (R157). -/
def startPower (s : State) (n : Nat) (target : BitVec 2) : State :=
  let s1 := if cisState s n = 0 then pauseLap s (128 + n) else s
  wrF (wrF s1 (.cisStat n) 0 (3 : BitVec 2)) (.cisStat n) 2 target

/-- A request that waits is noted in QUEUED (R184). -/
def queuePower (s : State) (n : Nat) (req : BitVec 2) : State :=
  wrB (wrF s (.cisStat n) 4 req) (.cisStat n) 6 true

/-- A power request is accepted: it starts, waits, or names the state held (R184, R185, R203). -/
def requestPower (s : State) (n : Nat) (req : BitVec 2) : State :=
  let s1 := wrF s (.cisPwr n) 0 req
  if inTransition s n ∨ inHandover s n then queuePower s1 n req
  else if cisState s n = req then s1
  else startPower s1 n req

/-- What waits at a cistern starts: the handover of R180 first, then the queued request unless it names the state held
(R184, R203). -/
def cisternNext (s : State) (n : Nat) : State :=
  let h := handoverOf s n
  match h.next with
  | some o => startScrubbed s n o
  | none =>
    if rdB s (.cisStat n) 6 then
      let req := rdF s (.cisStat n) 4 2
      let s1 := wrB s (.cisStat n) 6 false
      if cisState s1 n = req then s1 else startPower s1 n req
    else s

/-- The handover ends: zeroed when SCRUB asks and the cistern is not OFF, the new owner in force, held accesses checked
(R179). -/
def completeHandover (s : State) (n : Nat) : State :=
  let h := handoverOf s n
  if h.running then
    let s1 := if h.scrub ∧ cisState s n ≠ 2 then zeroWords s (inCistern n) else s
    let s2 := clearReservedIn (wrF (setHandover s1 n { next := h.next }) (.cisOwner n) 0 h.owner) (inCistern n)
    let s3 := wrB (wrB s2 (.cisStat n) 7 false) (.cisStat n) 8 true
    cisternNext (serveHeld s3 (fun a => inCistern n (remapped s3 a))) n
  else s

/-- A power transition completes (R182 to R184): OFF loses the content; ON serves what was held. -/
def completePower (s : State) (n : Nat) : State :=
  if inTransition s n then
    let t := rdF s (.cisStat n) 2 2
    let s1 := wrF s (.cisStat n) 0 t
    let s2 := if t = 2 then zeroWords s1 (inCistern n) else s1
    let s3 := if t = 0 then serveHeld (resumeLap s2 (128 + n)) (fun a => inCistern n (remapped s2 a)) else s2
    cisternNext s3 n
  else s

/-- The table of R178 for a writer of partition `p`, current owner `o`, home partition `h` and new owner `new`; also the
table that R477 applies to the resources of chapter 13. -/
def mayOwn (s : State) (a : Auth) (o : OwnerCode) (h : Nat) (new : OwnerCode) : Bool :=
  if a.lifeline then o == 8 && new == 0xF
  else
    let p := a.part
    if (o.toNat < 8 && codePart o == p) || (o == 0xF && h == p) then
      new == 0xF || (new.toNat < 8 && codePart new == p) || (new == 8 && llEnabled s)
    else o == 8 && llDisabled s && h == p && new == 0xF

/-- A write that R178 accepts of its writer only with lifeline enabled, or only with lifeline disabled, made while it is being disabled
(R652). -/
def disablingBusy (s : State) (a : Auth) (o : OwnerCode) (h : Nat) (new : OwnerCode) : Bool :=
  let p := codePart a.code
  llState s == 4 && a.code.toNat < 8 &&
    ((new == 8 && (codePart o == p || (o == 0xF && h == p))) || (o == 8 && h == p && new == 0xF))

/-- A write of CIS_OWNER_n (R178, R179, R203). -/
def writeCisOwner (s : State) (a : Auth) (n : Nat) (v : Reg24) : Written :=
  let o := cisOwnerOf s n
  let new : OwnerCode := bits v 0 4
  judge [ (!a.safe, .notPermitted),
      (inHandover s n || inTransition s n || disablingBusy s a o (cisHome s n) new, .busy),
      (n == 15 && llHolds s, .lifeline),
      (reservedCode new, .reservedCode),
      (!mayOwn s a o (cisHome s n) new, .notPermitted) ]
    (startHandover (wrB s (.cisOwner n) 4 (bit v 4)) n new (bit v 4))

/-- The writers of CIS_PWR_n (R186). -/
def mayPower (s : State) (a : Auth) (n : Nat) : Bool :=
  let o := cisOwnerOf s n
  if o = 8 then a.lifeline
  else if o = 0xF then a.safSup (cisHome s n)
  else a.sup && (a.code == o || a.safSup (codePart o))

/-- A write of CIS_PWR_n (R181, R184 to R186, R203). -/
def writeCisPwr (s : State) (a : Auth) (n : Nat) (v : Reg24) : Written :=
  judge [(!a.sup, .notPermitted), (bits v 0 2 == 3, .reservedCode), (!mayPower s a n, .notPermitted)]
    (requestPower s n (bits v 0 2))

/-- A write of XB_CFG (R191, R203): a change of REMAP holds window zero until it completes. A write while REMAP_BUSY is 1 is BUSY too
(DESIGN CHOICE, log 124). -/
def writeXbCfg (s : State) (a : Auth) (v : Reg24) : Written :=
  let o := cisOwnerOf s 0
  judge [ (!a.safe, .notPermitted),
      (inHandover s 0 || inTransition s 0 || rdB s .xbCfg 1, .busy),
      (cisState s 0 != 0, .power),
      (!(o.toNat < 8 && codePart o == a.part), .notPermitted) ]
    (if bit v 0 = rdB s .xbCfg 0 then s else wrB (store s .xbCfg v) .xbCfg 1 true)

/-- Every copy of a window-zero address leaves the caches, the line buffers and the loop buffers (R191). -/
def forgetWindow (s : State) : State :=
  let s1 := { s with store := s.store.forget (fun k => decide (k < 262144)) }
  (List.range 4).foldl (fun t c =>
    let x := coreOf t c
    setCore t c { x with lineBuf := x.lineBuf.filter (fun l => !decide (l.line < 262144)), loopBlock := none }) s1

/-- The copies are gone, the new mapping is in force and the held accesses are served (R191). -/
def completeRemap (s : State) : State :=
  if rdB s .xbCfg 1 then serveHeld (wrB (forgetWindow s) .xbCfg 1 false) (fun a => decide (a < 262144)) else s

/-- The writer may write CIS_OWNER_t under R178. -/
def mayWriteCis (s : State) (a : Auth) (t : Nat) : Bool :=
  let o := cisOwnerOf s t
  if a.boot then true
  else if t = 15 ∧ llHolds s then false
  else if a.lifeline then o == 8
  else a.safety && a.sup &&
    ((o.toNat < 8 && codePart o == a.part) || (o == 0xF && cisHome s t == a.part) ||
      (o == 8 && llDisabled s && cisHome s t == a.part))

/-- A write of XB_PRI_m_j (R16, R206 to R209); the fields of the scrubber read 0, whatever a write carries. -/
def writeXbPri (s : State) (a : Auth) (m j : Nat) (v : Reg24) : Written :=
  let r : Rg := .xbPri m j
  let x : Reg24 := if m = 24 then 0 else v
  let changed := fun i : Nat => bits x (3 * i) 3 != rdF s r (3 * i) 3
  let ok := (a.boot || a.sup) && (List.range 8).all (fun i => !changed i || mayWriteCis s a (8 * j + i))
  if j = 2 then judge [(writtenOnce s r x, .writtenOnce)] (store s r x)
  else judge [(!ok, .notPermitted)] (store s r x)

/-- A write of XB_SLICE_m_j (R200, R201, R209). -/
def writeXbSlice (s : State) (m j : Nat) (v : Reg24) : Written :=
  let r : Rg := .xbSlice m j
  let fixed : Bool := (m == 15 || m == 20) && j == 1
  let x : Reg24 := if fixed then setBits v 6 (0 : BitVec 2) else v
  let count := if j = 0 then 12 else 9
  let bad := (List.range count).any (fun i => bits x (2 * i) 2 == 3)
  let low := (List.range count).any (fun i =>
    !(fixed && i == 3) && (bits x (2 * i) 2).toNat < minSlice m (12 * j + i))
  judge [(writtenOnce s r x, .writtenOnce), (bad, .reservedCode), (low, .belowMin)] (store s r x)

/-- Writes to the CIS_ and XB_ registers. -/
def writeCisBlock (s : State) (a : Auth) (r : Rg) (v : Reg24) : Written :=
  match r with
  | .cisOwner n => writeCisOwner s a n v
  | .cisPwr n => writeCisPwr s a n v
  | .xbCfg => writeXbCfg s a v
  | .xbPri m j => writeXbPri s a m j v
  | .xbSlice m j => writeXbSlice s m j v
  | _ => .ok (store s r v)

end Sys2Proof.Machine
end

