-- ==== Sys2Proof/WellFormed.lean ====
section
/-! DEFINITION. Which instructions are legal encodings on their core: every field outside the reserved values of R265,
R310, R317, R324, R327, R332, and no instruction that R317, R377 or R390 keeps from the core. An instruction that is not
raises the illegal-instruction exception (R420); other commands have no reserved form. -/

namespace Sys2Proof

/-- A type code of R48 that is not reserved. -/
def typeOk (t : BitVec 4) : Bool := t.toNat < 12

/-- Type codes 0x0 to 0x5: integers (R48, R270). -/
def isInt (t : BitVec 4) : Bool := t.toNat < 6

/-- F24 or F48 (R48). -/
def isFloat (t : BitVec 4) : Bool := t == 6 || t == 7

/-- The accumulator type of R281 for an OT and AW; none for a reserved combination. -/
def accType (ot : BitVec 4) (aw : BitVec 3) : Option (BitVec 4) :=
  match aw.toNat with
  | 0 => some ot
  | 1 => if ot.toNat < 4 then some (ot + 2) else if ot = 6 then some 7 else none
  | 2 => if ot.toNat < 2 then some (ot + 4) else none
  | _ => none

/-- The lanes of a type in an S register (R296); 0 for a type that has none. -/
def lanesOf (t : BitVec 4) : Nat :=
  match t.toNat with
  | 0 => 16 | 1 => 16 | 2 => 8 | 3 => 8 | 6 => 8 | 4 => 4 | 5 => 4 | 7 => 4 | _ => 0

/-- The OTs that accept SAT = 1 in an operation marked SAT (R271). -/
def satOk (marked : Bool) (f : StreamFields) : Bool := !f.sat || (marked && isInt f.ot)

/-- An operand reference outside the reserved values of R267, present exactly when the operation uses the field (R269). -/
def refOk (used : Bool) (r : BitVec 5) : Bool :=
  if used then r.toNat < 24 else r == 31

/-- MSK and MK of a stream instruction (R269, R272). -/
def maskOk (f : StreamFields) : Bool := if f.msk = 0 then f.mreg == 31 else f.msk != 3 && refOk true f.mreg

/-- The fields every stream instruction shares, with the operand fields it uses (R265 to R272). -/
def streamOk (marked a b e : Bool) (f : StreamFields) : Bool :=
  f.dst.toNat ≤ 16 && typeOk f.ot && refOk a f.sa && refOk b f.sb && refOk e f.sc && maskOk f && satOk marked f

/-- A REDUCE/DOT stream instruction: SC is optional and OT with AW names an accumulator (R281). -/
def reduceOk (marked b : Bool) (aws : Nat) (aw : BitVec 3) (f : StreamFields) : Bool :=
  streamOk marked true b (f.sc != 31) f && aw.toNat ≤ aws && (accType f.ot aw).isSome

/-- SAT of VCVT and VCVTZ: an integer OT and an integer target type (R271). -/
def cvtSatOk (tt : BitVec 4) (f : StreamFields) : Bool := !f.sat || (isInt f.ot && isInt tt)

/-- VMOV, VCMPR, VEXPZ, VEXPM and VPERM: TT is not reserved and SAT is 0 (R283). A TT other than OT is a pair of types that
the pipe does not accept: TYPE_PIPE at issue, as R284 says of conversions (DEDUCED, log 16). -/
def moveOk (b e : Bool) (tt : BitVec 4) (f : StreamFields) : Bool := streamOk false true b e f && typeOk tt

/-- A field that names one of S0 to S7 or M0 to M7, or is unused (R298). -/
def sregOk (used : Bool) (r : BitVec 5) : Bool := if used then r.toNat < 8 else r == 31

/-- MSK and MK of a short-vector instruction (R298). -/
def smaskOk (f : StreamFields) : Bool := if f.msk = 0 then f.mreg == 31 else f.msk != 3 && sregOk true f.mreg

/-- The fields every short-vector instruction shares (R298). -/
def shortOk (marked a b e : Bool) (f : StreamFields) : Bool :=
  f.dst.toNat < 8 && lanesOf f.ot != 0 && sregOk a f.sa && sregOk b f.sb && sregOk e f.sc && !f.ch && smaskOk f &&
    satOk marked f

/-- The pairs that VCVT and SCVT convert (R284). -/
def cvtPair (ot tt : BitVec 4) : Bool :=
  let fl := fun t : BitVec 4 => t == 6 || t == 7
  let host := fun t : BitVec 4 => t == 10 || t == 11
  (isInt ot && isInt tt) || (isInt ot && fl tt) || (fl ot && isInt tt) ||
    (fl ot && fl tt && ot != tt) || (fl ot && host tt) || (host ot && fl tt) ||
    (ot == 8 && isInt tt) || (isInt ot && tt == 8)

/-- RMS of a floating-point instruction (R327). -/
def rmsOk (r : BitVec 3) : Bool := r != 5 && r != 6

/-- An even register number, as a pair needs (R310). -/
def pairOk (r : Reg) : Bool := r.val % 2 == 0

/-- The mnemonic is one that the lifeline core does not refuse (R377). -/
def notLifeline (c : Core) : Bool := c.val != 4

/-- The instruction holds no reserved value and its core has it. -/
def Instr.wellFormed : Instr → Bool
  | .mulw _ d _ _ | .mulwu _ d _ _ => pairOk d
  | .shli _ _ _ i | .shri _ _ _ i | .sari _ _ _ i => i.toNat < 64
  | .lih _ _ i => i.toNat < 2 ^ 18
  | .ldwp _ d _ _ => pairOk d
  | .stwp _ _ b _ => pairOk b
  | .getsp _ _ p | .setsp _ _ p => p != 3
  | .loop c _ _ | .endloop c | .lcrd c _ _ => c.val == 4
  | .fadd _ _ _ _ _ r | .fsub _ _ _ _ _ r | .fmul _ _ _ _ _ r | .fdiv _ _ _ _ _ r | .fmin _ _ _ _ _ r
  | .fmax _ _ _ _ _ r => rmsOk r
  | .fsqrt _ _ _ _ r | .fneg _ _ _ _ r | .fabs _ _ _ _ r | .fmv _ _ _ _ r => rmsOk r
  | .fma _ _ _ _ _ _ r | .fms _ _ _ _ _ _ r | .fnma _ _ _ _ _ _ r | .fnms _ _ _ _ _ _ r => rmsOk r
  | .fcmp _ _ _ _ c _ r => rmsOk r && c != 7
  | .gtof _ _ _ _ r | .ftog _ _ _ _ r | .cvtff _ _ _ _ r => rmsOk r
  | .cvtif _ _ _ _ r _ | .cvtfi _ _ _ _ r _ => rmsOk r
  | .cvtfh _ d _ _ r h => rmsOk r && (!h || pairOk d)
  | .cvthf _ _ a _ r h => rmsOk r && (!h || pairOk a)
  | .dadd c _ _ _ | .dsub c _ _ _ => notLifeline c
  | .dtob c _ _ | .btod c _ _ => notLifeline c
  | .cmpr _ d a b e _ _ _ => d != a && d != b && d != e
  | .scanr _ d a b e _ _ _ _ => d != a && d != b && d != e
  | .svc c _ | .xcall c _ | .xret c | .mfbw c _ _ | .mtbw c _ _ => notLifeline c
  | .extensionInstruction _ _ _ f =>
    f.dst.toNat ≤ 16 && typeOk f.ot && (f.sa.toNat < 24 || f.sa == 31) && (f.sb.toNat < 24 || f.sb == 31) &&
      (f.sc.toNat < 24 || f.sc == 31) && maskOk f
  | .vadd _ f | .vsub _ f => streamOk true true true false f
  | .vmin _ f | .vmax _ f | .vand _ f | .vor _ f | .vxor _ f | .vandn _ f | .vshl _ f | .vshr _ f | .vsar _ f =>
    streamOk false true true false f
  | .vabs _ f | .vneg _ f => streamOk true true false false f
  | .vcmp _ p f => streamOk false true true false f && p != 7
  | .vsel _ f => streamOk false true true true f
  | .vmul _ f => streamOk true true true false f
  | .vmulh _ f | .vmulw _ f => streamOk false true true false f
  | .vfma _ f | .vfms _ f | .vfnma _ f | .vfnms _ f => streamOk true true true true f
  | .vdiv _ f => streamOk true true true false f
  | .vrem _ f => streamOk false true true false f
  | .vsqrt _ f => streamOk false true false false f
  | .vrsum _ aw f => reduceOk true false 2 aw f
  | .vrmin _ aw f | .vrmax _ aw f => reduceOk false false 0 aw f
  | .vdot _ aw f => reduceOk true true 2 aw f
  | .vrcnt _ aw f => streamOk false true false false f && aw == 0
  | .vcvt _ tt f | .vcvtz _ tt f =>
    streamOk false true false false { f with sat := false } && typeOk tt && cvtSatOk tt f
  | .vmov _ tt f => moveOk false false tt f
  | .vcmpr _ tt f | .vexpz _ tt f | .vexpm _ tt f => moveOk false true tt f && f.msk == 0
  | .vperm _ tt f => moveOk true false tt f
  | .vgath _ f => streamOk false true true false f
  | .vscat _ f => streamOk false true true false f && f.dst.toNat < 16
  | .sadd _ f | .ssub _ f => shortOk true true true false f
  | .smin _ f | .smax _ f => shortOk false true true false f
  | .sabs _ f | .sneg _ f => shortOk true true false false f
  | .sand _ f | .sor _ f | .sxor _ f | .sandn _ f | .sshl _ f | .sshr _ f | .ssar _ f =>
    shortOk false true true false f && isInt f.ot
  | .scmp _ p f => shortOk false true true false f && p != 7 && (p != 6 || isFloat f.ot)
  | .ssel _ f => shortOk false true true true f
  | .smul _ f => shortOk true true true false f
  | .smulh _ f => shortOk false true true false f && isInt f.ot
  | .smulwl _ f | .smulwh _ f => shortOk false true true false f && (f.ot.toNat < 4 || f.ot == 6)
  | .sfma _ f | .sfms _ f | .sfnma _ f | .sfnms _ f => shortOk true true true true f
  | .sdiv _ f => shortOk true true true false f
  | .srem _ f => shortOk false true true false f && isInt f.ot
  | .ssqrt _ f => shortOk false true false false f && isFloat f.ot
  | .srsum _ aw f => shortOk true true false (f.sc != 31) f && aw.toNat ≤ 2 && (accType f.ot aw).isSome
  | .srmin _ aw f | .srmax _ aw f => shortOk false true false (f.sc != 31) f && aw == 0
  | .sdot _ aw f => shortOk true true true false f && aw.toNat ≤ 2 && (accType f.ot aw).isSome
  | .scvt _ tt f | .scvtz _ tt f =>
    shortOk false true false false { f with sat := false } && lanesOf tt != 0 && cvtPair f.ot tt && cvtSatOk tt f
  | .smov _ tt f => shortOk false true false false f && tt == f.ot
  | .scmpr _ tt f | .sexpz _ tt f | .sexpm _ tt f => shortOk false true false true f && tt == f.ot && f.msk == 0
  | .sperm _ tt f => shortOk false true true false f && tt == f.ot
  | .sld _ f | .sst _ f =>
    f.dst.toNat < 8 && lanesOf f.ot != 0 && f.sc == 31 && !f.ch && smaskOk f && !f.sat
  | .vdld _ v _ _ | .vdst _ v _ _ => v.toNat < 16
  | .vdset _ v _ _ | .vdadd _ v _ => v.toNat < 16
  | .vdget _ _ v _ => v.toNat < 16
  | _ => true

end Sys2Proof
end

