-- ==== Sys2Proof/Machine/Flags.lean ====
section
/-! DEFINITION. Arithmetic on element encodings and its flags: the integer results of R50, R280, R290, R294 and R371, the
floating-point results of R59 to R68, R291 to R293 and R362 to R370, and the conversions of R79 to R81, R284 and R285.
Every engine computes by these (R291, R329). A floating value is an exact dyadic number until it is rounded once. -/

namespace Sys2Proof.Machine

/-! Flags (R64). -/

/-- The five exception flags: NX, UF, OF, DZ, NV from bit 0. -/
abbrev FFlags := BitVec 5

def flagNX : FFlags := 1
def flagUF : FFlags := 2
def flagOF : FFlags := 4
def flagDZ : FFlags := 8
def flagNV : FFlags := 16

/-- The mode that enters a floating result: rounding mode, flush-to-zero, denormals-are-zero (R362). -/
structure FMode where
  rm : BitVec 3 := 0
  ftz : Bool := false
  daz : Bool := false
deriving DecidableEq, Repr

/-- A result: its encoding, the flags it raises, and whether an integer result saturated (R290). -/
structure Out where
  v : Nat
  fl : FFlags := 0
  sat : Bool := false
deriving DecidableEq, Repr

/-! Element types (R48). -/

/-- The width of an element in bits; 0 for a reserved type code. -/
def typeBits (t : BitVec 4) : Nat :=
  match t.toNat with
  | 0 => 12 | 1 => 12 | 2 => 24 | 3 => 24 | 4 => 48 | 5 => 48 | 6 => 24 | 7 => 48 | 8 => 1 | 9 => 48 | 10 => 32
  | 11 => 64 | _ => 0

/-- The width of an element in plies (R48), where it is a whole number of plies. -/
def typePlies (t : BitVec 4) : Nat := typeBits t / 12

/-- Signed integer types. -/
def isSigned (t : BitVec 4) : Bool := isInt t && bit t 0

/-- The integer that an encoding of `w` bits holds, two's complement when `signed` (R48). -/
def intOf (w : Nat) (signed : Bool) (x : Nat) : Int :=
  let y := x % 2 ^ w
  if signed ∧ 2 ^ (w - 1) ≤ y then (y : Int) - 2 ^ w else y

/-- The integer that an element of type `t` holds. -/
def valOf (t : BitVec 4) (x : Nat) : Int := intOf (typeBits t) (isSigned t) x

/-- The limits of an integer type (R50). -/
def minOf (w : Nat) (signed : Bool) : Int := if signed then -(2 ^ (w - 1)) else 0
def maxOf (w : Nat) (signed : Bool) : Int := if signed then 2 ^ (w - 1) - 1 else 2 ^ w - 1

/-- The low `w` bits of an integer. -/
def wrapTo (w : Nat) (i : Int) : Nat := (i % (2 ^ w : Int)).toNat

/-- An exact integer result reduced to a type: wrapped, or clamped with SAT status (R290). -/
def reduceInt (t : BitVec 4) (sat : Bool) (i : Int) : Out :=
  let w := typeBits t
  let lo := minOf w (isSigned t)
  let hi := maxOf w (isSigned t)
  if sat ∧ i < lo then { v := wrapTo w lo, sat := true }
  else if sat ∧ hi < i then { v := wrapTo w hi, sat := true }
  else { v := wrapTo w i }

/-- Integer quotient on `w` bits, truncating toward zero (R280); a zero divisor gives all ones and DZ. -/
def divInt (w : Nat) (signed sat : Bool) (a b : Nat) : Out :=
  let x := intOf w signed a
  let y := intOf w signed b
  if y = 0 then { v := 2 ^ w - 1, fl := flagDZ }
  else
    let q := x.tdiv y
    if sat ∧ maxOf w signed < q then { v := wrapTo w (maxOf w signed), sat := true } else { v := wrapTo w q }

/-- Integer remainder, with the sign of the dividend (R280). -/
def remInt (w : Nat) (signed : Bool) (a b : Nat) : Out :=
  let x := intOf w signed a
  let y := intOf w signed b
  if y = 0 then { v := a % 2 ^ w, fl := flagDZ } else { v := wrapTo w (x.tmod y) }

/-- Shifts at a width: counts at or above it give 0, or every bit equal to the sign (R294, R319). -/
def shiftLeft (w a n : Nat) : Nat := if w ≤ n then 0 else a * 2 ^ n % 2 ^ w
def shiftRight (w a n : Nat) : Nat := if w ≤ n then 0 else a % 2 ^ w / 2 ^ n
def shiftArith (w a n : Nat) : Nat := wrapTo w (intOf w true a / 2 ^ (if w ≤ n then w else n))

/-! Floating-point formats (R59 to R61, R79). -/

/-- Exponent and fraction widths. -/
structure Fmt where
  e : Nat
  f : Nat
deriving DecidableEq, Repr

def f24 : Fmt := ⟨8, 15⟩
def f48 : Fmt := ⟨11, 36⟩
def binary32 : Fmt := ⟨8, 23⟩
def binary64 : Fmt := ⟨11, 52⟩

/-- The format of a floating or host type code; other codes have none and read as F24. -/
def fmtOf (t : BitVec 4) : Fmt :=
  match t.toNat with
  | 7 => f48 | 10 => binary32 | 11 => binary64 | _ => f24

/-- The bias B. -/
def Fmt.bias (m : Fmt) : Nat := 2 ^ (m.e - 1) - 1

/-- The all-ones exponent E. -/
def Fmt.top (m : Fmt) : Nat := 2 ^ m.e - 1

/-- The sign bit of an encoding. -/
def Fmt.sign (m : Fmt) (x : Nat) : Bool := x / 2 ^ (m.e + m.f) % 2 == 1

/-- The biased exponent of an encoding. -/
def Fmt.exp (m : Fmt) (x : Nat) : Nat := x / 2 ^ m.f % 2 ^ m.e

/-- The fraction of an encoding. -/
def Fmt.frac (m : Fmt) (x : Nat) : Nat := x % 2 ^ m.f

/-- An encoding from its three fields. -/
def Fmt.pack (m : Fmt) (s : Bool) (e f : Nat) : Nat := cond s (2 ^ (m.e + m.f)) 0 + e * 2 ^ m.f + f

def Fmt.isNan (m : Fmt) (x : Nat) : Bool := m.exp x == m.top && m.frac x != 0
def Fmt.isSnan (m : Fmt) (x : Nat) : Bool := m.isNan x && m.frac x < 2 ^ (m.f - 1)
def Fmt.isInf (m : Fmt) (x : Nat) : Bool := m.exp x == m.top && m.frac x == 0
def Fmt.isZero (m : Fmt) (x : Nat) : Bool := m.exp x == 0 && m.frac x == 0

/-- The default NaN (R62). -/
def Fmt.defaultNan (m : Fmt) : Nat := m.pack false m.top (2 ^ (m.f - 1))

/-- Infinity, zero and the largest finite value with a sign (R62). -/
def Fmt.inf (m : Fmt) (s : Bool) : Nat := m.pack s m.top 0
def Fmt.zero (m : Fmt) (s : Bool) : Nat := m.pack s 0 0
def Fmt.max (m : Fmt) (s : Bool) : Nat := m.pack s (m.top - 1) (2 ^ m.f - 1)

/-- A NaN quieted by setting f[p − 1] (R63). -/
def Fmt.quiet (m : Fmt) (x : Nat) : Nat := if m.isSnan x then x + 2 ^ (m.f - 1) else x

/-- An operand under denormals-are-zero (R66). -/
def Fmt.read (m : Fmt) (daz : Bool) (x : Nat) : Nat :=
  if daz ∧ m.exp x = 0 then m.zero (m.sign x) else x

/-- The significand of a finite encoding: its value is the significand × 2^(its exponent) (R61). -/
def Fmt.sig (m : Fmt) (x : Nat) : Nat := if m.exp x = 0 then m.frac x else 2 ^ m.f + m.frac x

/-- The exponent that goes with `Fmt.sig`. -/
def Fmt.scale (m : Fmt) (x : Nat) : Int := (if m.exp x = 0 then 1 else m.exp x : Nat) - (m.bias : Int) - m.f

/-- An exact finite value: (−1)^s × m × 2^e. -/
structure Dyadic where
  s : Bool
  m : Nat
  e : Int
deriving DecidableEq, Repr

/-- The exact value of a finite encoding. -/
def Fmt.value (m : Fmt) (x : Nat) : Dyadic := ⟨m.sign x, m.sig x, m.scale x⟩

/-! Rounding (R64, R365, R367). -/

/-- A value rounded to a multiple of 2^q under a mode: the multiple, and whether it is inexact. A reserved code of R64
names no mode: it is refused before it is used, and one that an image or a record restores rounds as truncation (DESIGN CHOICE, log 134). -/
def roundAt (rm : BitVec 3) (v : Dyadic) (q : Int) : Nat × Bool :=
  if q ≤ v.e then (v.m * 2 ^ (v.e - q).toNat, false)
  else
    let d := (q - v.e).toNat
    let k := v.m / 2 ^ d
    let r := v.m % 2 ^ d
    let half := 2 ^ (d - 1)
    let up : Bool := match rm.toNat with
      | 0 => half < r || (r == half && k % 2 == 1)
      | 2 => !v.s && r != 0
      | 3 => v.s && r != 0
      | 4 => half ≤ r
      | _ => false
    (if up then k + 1 else k, r != 0)

/-- The result of an overflow under a mode (R365). -/
def Fmt.overflow (m : Fmt) (rm : BitVec 3) (s : Bool) : Nat :=
  if rm = 1 ∨ (rm = 2 ∧ s) ∨ (rm = 3 ∧ ¬ s) then m.max s else m.inf s

/-- A non-zero exact value rounded once into a format (R65, R66, R365, R367). -/
def Fmt.round (m : Fmt) (md : FMode) (v : Dyadic) : Out :=
  let eMin : Int := 1 - (m.bias : Int)
  let top : Int := v.e + Nat.log2 v.m
  let free := roundAt md.rm v (top - m.f)
  let er : Int := if free.1 = 2 ^ (m.f + 1) then top + 1 else top
  if (m.bias : Int) < er then { v := m.overflow md.rm v.s, fl := flagOF ||| flagNX }
  else
    let tiny : Bool := er < eMin
    if tiny ∧ md.ftz then { v := m.zero v.s, fl := flagUF ||| flagNX }
    else
      let q : Int := if top < eMin then eMin - m.f else top - m.f
      let r := roundAt md.rm v q
      { v := m.pack v.s 0 0 + ((q - (eMin - m.f)).toNat * 2 ^ m.f + r.1)
        fl := (if r.2 then flagNX else 0) ||| (if tiny && r.2 then flagUF else 0) }

/-- An exact value delivered in a format, a zero with the sign it carries (R363). -/
def Fmt.deliver (m : Fmt) (md : FMode) (v : Dyadic) : Out := if v.m = 0 then { v := m.zero v.s } else m.round md v

/-- The exact sum of two values, with the sign of R363 when it is zero. -/
def addDyadic (rm : BitVec 3) (a b : Dyadic) : Dyadic :=
  if a.m = 0 ∧ b.m = 0 then ⟨if a.s = b.s then a.s else rm == 3, 0, 0⟩
  else
    let e := if a.e ≤ b.e then a.e else b.e
    let val := fun x : Dyadic =>
      let n : Int := (x.m * 2 ^ (x.e - e).toNat : Nat)
      if x.s then -n else n
    let t := val a + val b
    if t = 0 then ⟨rm == 3, 0, 0⟩ else ⟨decide (t < 0), t.natAbs, e⟩

/-- The exact product of two values. -/
def mulDyadic (a b : Dyadic) : Dyadic := ⟨a.s != b.s, a.m * b.m, a.e + b.e⟩

/-- The quotient to at least `p + 3` bits, its lowest bit standing for what is left. -/
def divDyadic (p : Nat) (a b : Dyadic) : Dyadic :=
  let k := p + 5 + Nat.log2 b.m - Nat.log2 a.m
  let n := a.m * 2 ^ k
  ⟨a.s != b.s, 2 * (n / b.m) + (if n % b.m = 0 then 0 else 1), a.e - b.e - k - 1⟩

/-- The integer square root, from a root of the bits above bit `k`. -/
def rootBits (n : Nat) : Nat → Nat → Nat
  | 0, r => r
  | k + 1, r => if (r + 2 ^ k) * (r + 2 ^ k) ≤ n then rootBits n k (r + 2 ^ k) else rootBits n k r

/-- The square root to at least `p + 3` bits, its lowest bit standing for what is left. -/
def sqrtDyadic (p : Nat) (a : Dyadic) : Dyadic :=
  let k := 2 * (p + 5) + (if a.e % 2 = 0 then 0 else 1)
  let n := a.m * 2 ^ k
  let r := rootBits n (Nat.log2 n / 2 + 1) 0
  ⟨false, 2 * r + (if r * r = n then 0 else 1), (a.e - k) / 2 - 1⟩

/-! Operations (R63, R291 to R293, R364). -/

/-- The NV flag that NaN operands raise by themselves (R63). -/
def Fmt.nanFlag (m : Fmt) (l : List Nat) : FFlags := if l.any m.isSnan then flagNV else 0

/-- The first NaN operand, quieted (R63), if any. -/
def Fmt.nanOf (m : Fmt) (l : List Nat) : Option Out :=
  (l.find? m.isNan).map (fun x => { v := m.quiet x, fl := m.nanFlag l })

/-- An invalid operation on operands that are not NaN (R364). -/
def Fmt.invalid (m : Fmt) : Out := { v := m.defaultNan, fl := flagNV }

/-- `x` with its sign inverted. -/
def Fmt.negate (m : Fmt) (x : Nat) : Nat :=
  if m.sign x then x - 2 ^ (m.e + m.f) else x + 2 ^ (m.e + m.f)

/-- Sum of two operands that are not NaN. -/
def Fmt.sum (m : Fmt) (md : FMode) (a b : Nat) : Out :=
  if m.isInf a ∧ m.isInf b then (if m.sign a = m.sign b then { v := a } else m.invalid)
  else if m.isInf a then { v := a }
  else if m.isInf b then { v := b }
  else m.deliver md (addDyadic md.rm (m.value a) (m.value b))

/-- A + B. -/
def Fmt.add (m : Fmt) (md : FMode) (a0 b0 : Nat) : Out :=
  let a := m.read md.daz a0
  let b := m.read md.daz b0
  (m.nanOf [a, b]).getD (m.sum md a b)

/-- A − B. -/
def Fmt.sub (m : Fmt) (md : FMode) (a0 b0 : Nat) : Out :=
  let a := m.read md.daz a0
  let b := m.read md.daz b0
  (m.nanOf [a, b]).getD (m.sum md a (m.negate b))

/-- A × B. -/
def Fmt.mul (m : Fmt) (md : FMode) (a0 b0 : Nat) : Out :=
  let a := m.read md.daz a0
  let b := m.read md.daz b0
  (m.nanOf [a, b]).getD
    (if (m.isInf a ∧ m.isZero b) ∨ (m.isZero a ∧ m.isInf b) then m.invalid
     else if m.isInf a ∨ m.isInf b then { v := m.inf (m.sign a != m.sign b) }
     else m.deliver md (mulDyadic (m.value a) (m.value b)))

/-- A / B. -/
def Fmt.div (m : Fmt) (md : FMode) (a0 b0 : Nat) : Out :=
  let a := m.read md.daz a0
  let b := m.read md.daz b0
  let s := m.sign a != m.sign b
  (m.nanOf [a, b]).getD
    (if (m.isInf a ∧ m.isInf b) ∨ (m.isZero a ∧ m.isZero b) then m.invalid
     else if m.isInf a then { v := m.inf s }
     else if m.isZero b then { v := m.inf s, fl := flagDZ }
     else if m.isZero a ∨ m.isInf b then { v := m.zero s }
     else m.deliver md (divDyadic m.f (m.value a) (m.value b)))

/-- Square root of A. -/
def Fmt.sqrt (m : Fmt) (md : FMode) (a0 : Nat) : Out :=
  let a := m.read md.daz a0
  (m.nanOf [a]).getD
    (if m.isZero a then { v := a }
     else if m.sign a then m.invalid
     else if m.isInf a then { v := a }
     else m.deliver md (sqrtDyadic m.f (m.value a)))

/-- ±(A × B) ± C with one rounding: `np` negates the product, `nc` negates C; NaN operands keep their signs. `order` lists
the operands as R63 numbers them. -/
def Fmt.fused (m : Fmt) (md : FMode) (np nc : Bool) (order : Nat → Nat → Nat → List Nat) (a0 b0 c0 : Nat) : Out :=
  let a := m.read md.daz a0
  let b := m.read md.daz b0
  let c := m.read md.daz c0
  let s := (m.sign a != m.sign b) != np
  let zeroInf : Bool := (m.isInf a && m.isZero b) || (m.isZero a && m.isInf b)
  let cv := if nc then m.negate c else c
  if zeroInf then
    { v := if m.isNan c && !m.isSnan c then c else m.defaultNan, fl := flagNV }
  else (m.nanOf (order a b c)).getD
    (if m.isInf a ∨ m.isInf b then
       (if m.isInf c ∧ m.sign cv ≠ s then m.invalid else { v := m.inf s })
     else if m.isInf c then { v := cv }
     else
       let p := mulDyadic (m.value a) (m.value b)
       m.deliver md (addDyadic md.rm { p with s := s } (m.value cv)))

/-- The operand order of R291: A, B, C; and of a dot-product step, the accumulator first. -/
def orderABC (a b c : Nat) : List Nat := [a, b, c]
def orderCAB (a b c : Nat) : List Nat := [c, a, b]

/-- The order of two operands that are not NaN, −0 below +0. -/
def Fmt.key (m : Fmt) (x : Nat) : Int :=
  let n : Int := (x % 2 ^ (m.e + m.f) : Nat)
  if m.sign x then -n - 1 else n

/-- Minimum or maximum (R292). -/
def Fmt.minMax (m : Fmt) (md : FMode) (wantMax : Bool) (a0 b0 : Nat) : Out :=
  let a := m.read md.daz a0
  let b := m.read md.daz b0
  if m.isNan a ∧ m.isNan b then (m.nanOf [a, b]).getD { v := a }
  else if m.isNan a then { v := b, fl := m.nanFlag [a] }
  else if m.isNan b then { v := a, fl := m.nanFlag [b] }
  else { v := if (decide (m.key a ≤ m.key b)) != wantMax then a else b }

/-- A predicate on two ordered values, by their difference (R276). -/
def predicate (c : BitVec 3) (lt eq : Bool) : Bool :=
  match c.toNat with
  | 0 => eq | 1 => !eq | 2 => lt | 3 => lt || eq | 4 => !(lt || eq) | 5 => !lt | _ => false

/-- A floating compare (R293). -/
def Fmt.compare (m : Fmt) (md : FMode) (c : BitVec 3) (a0 b0 : Nat) : Out :=
  let a := m.read md.daz a0
  let b := m.read md.daz b0
  let any := m.isNan a || m.isNan b
  let ordered : Bool := c == 2 || c == 3 || c == 4 || c == 5
  let fl := if any && ordered then flagNV else m.nanFlag [a, b]
  if any then { v := if c = 1 ∨ c = 6 then 1 else 0, fl }
  else
    let eq := (m.isZero a && m.isZero b) || a == b
    { v := if predicate c (!eq && decide (m.key a < m.key b)) eq then 1 else 0, fl }

/-! Conversions (R79 to R81, R285). -/

/-- A NaN carried from one format to another: sign kept, quieted, the fraction padded or cut (R80). -/
def convertNan (src dst : Fmt) (x : Nat) : Out :=
  let q := src.frac (src.quiet x)
  let f := if src.f ≤ dst.f then q * 2 ^ (dst.f - src.f) else q / 2 ^ (src.f - dst.f)
  { v := dst.pack (src.sign x) dst.top f, fl := src.nanFlag [x] }

/-- Between floating formats, honouring the options of `md` (R79 to R81). -/
def convertFloat (src dst : Fmt) (md : FMode) (x0 : Nat) : Out :=
  let x := src.read md.daz x0
  if src.isNan x then convertNan src dst x
  else if src.isInf x then { v := dst.inf (src.sign x) }
  else dst.deliver md (src.value x)

/-- An operand widened exactly, its NaN kept as it is: what a widening operation reads (R291, R366). -/
def widen (src dst : Fmt) (daz : Bool) (x0 : Nat) : Nat :=
  let x := src.read daz x0
  if src.isNan x then dst.pack (src.sign x) dst.top (src.frac x * 2 ^ (dst.f - src.f))
  else if src.isInf x then dst.inf (src.sign x)
  else (dst.deliver {} (src.value x)).v

/-- An integer into a floating format (R284). -/
def intToFloat (dst : Fmt) (md : FMode) (i : Int) : Out := dst.deliver md ⟨decide (i < 0), i.natAbs, 0⟩

/-- A floating value into an integer of `w` bits (R285). -/
def floatToInt (src : Fmt) (w : Nat) (signed : Bool) (md : FMode) (x0 : Nat) : Out :=
  let x := src.read md.daz x0
  let lo := minOf w signed
  let hi := maxOf w signed
  if src.isNan x then { v := 0, fl := flagNV }
  else if src.isInf x then { v := wrapTo w (if src.sign x then lo else hi), fl := flagNV }
  else
    let r := roundAt md.rm (src.value x) 0
    let i : Int := if src.sign x then -(r.1 : Int) else r.1
    if i < lo then { v := wrapTo w lo, fl := flagNV }
    else if hi < i then { v := wrapTo w hi, fl := flagNV }
    else { v := wrapTo w i, fl := if r.2 then flagNX else 0 }

/-! Element operations, shared by pumps and short vectors (R276 to R285, R298). -/

/-- The element operations of the ALU, MUL, FMA, DIV/SQRT and CONVERT groups. -/
inductive ElemOp where
  | add | sub | min | max | abs | neg | and | or | xor | andn | shl | shr | sar
  | cmp (c : BitVec 3) | sel | mul | mulh | mulw | fma | fms | fnma | fnms | div | rem | sqrt
  | cvt (tt : BitVec 4) (zero : Bool) | mov
deriving DecidableEq, Repr

/-- The next wider type (R277, R281). -/
def nextWider (t : BitVec 4) : BitVec 4 := if isInt t then t + 2 else 7

/-- The result type of an element operation (R276 to R284). -/
def ElemOp.result (op : ElemOp) (t : BitVec 4) : BitVec 4 :=
  match op with
  | .cmp _ => 8
  | .mulw => nextWider t
  | .cvt tt _ => tt
  | _ => t

/-- A conversion between element types (R284). -/
def convertElem (t tt : BitVec 4) (zero sat : Bool) (md : FMode) (a : Nat) : Out :=
  let m : FMode := if zero then { md with rm := 1 } else md
  if t = 8 then { v := a % 2 }
  else if tt = 8 then { v := if a % 2 ^ typeBits t = 0 then 0 else 1 }
  else if isInt t ∧ isInt tt then reduceInt tt (sat && decide (typeBits tt ≤ typeBits t)) (valOf t a)
  else if isInt t then intToFloat (fmtOf tt) m (valOf t a)
  else if isInt tt then floatToInt (fmtOf t) (typeBits tt) (isSigned tt) m a
  else if tt = 10 ∨ tt = 11 then convertFloat (fmtOf t) (fmtOf tt) { m with ftz := false, daz := false } a
  else convertFloat (fmtOf t) (fmtOf tt) m a

/-- An integer element operation of type `t`. -/
def intElem (op : ElemOp) (t : BitVec 4) (sat : Bool) (a b c : Nat) : Out :=
  let w := typeBits t
  let x := valOf t a
  let y := valOf t b
  let z := valOf t c
  match op with
  | .add => reduceInt t sat (x + y)
  | .sub => reduceInt t sat (x - y)
  | .min => { v := if x ≤ y then a else b }
  | .max => { v := if x ≤ y then b else a }
  | .abs => reduceInt t sat (if x < 0 then -x else x)
  | .neg => reduceInt t sat (-x)
  | .and => { v := a &&& b }
  | .or => { v := a ||| b }
  | .xor => { v := a ^^^ b }
  | .andn => { v := a &&& (b ^^^ (2 ^ w - 1)) }
  | .shl => { v := shiftLeft w a b }
  | .shr => { v := shiftRight w a b }
  | .sar => { v := shiftArith w a b }
  | .cmp p => { v := if predicate p (decide (x < y)) (decide (x = y)) then 1 else 0 }
  | .mul => reduceInt t sat (x * y)
  | .mulh => { v := wrapTo w (x * y / 2 ^ w) }
  | .mulw => { v := wrapTo (typeBits (nextWider t)) (x * y) }
  | .fma => reduceInt t sat (x * y + z)
  | .fms => reduceInt t sat (x * y - z)
  | .fnma => reduceInt t sat (z - x * y)
  | .fnms => reduceInt t sat (-(x * y) - z)
  | .div => divInt w (isSigned t) sat a b
  | .rem => remInt w (isSigned t) a b
  | _ => { v := a }

/-- A floating element operation of format `m`. -/
def floatElem (op : ElemOp) (m : Fmt) (md : FMode) (a b c : Nat) : Out :=
  match op with
  | .add => m.add md a b
  | .sub => m.sub md a b
  | .min => m.minMax md false a b
  | .max => m.minMax md true a b
  | .abs => { v := if m.sign a then m.negate a else a }
  | .neg => { v := m.negate a }
  | .cmp p => m.compare md p a b
  | .mul => m.mul md a b
  | .mulw => f48.mul { md with ftz := false, daz := false } (widen f24 f48 md.daz a) (widen f24 f48 md.daz b)
  | .fma => m.fused md false false orderABC a b c
  | .fms => m.fused md false true orderABC a b c
  | .fnma => m.fused md true false orderABC a b c
  | .fnms => m.fused md true true orderABC a b c
  | .div => m.div md a b
  | .sqrt => m.sqrt md a
  | _ => { v := a }

/-- Element `i` of the result from elements `i` of the operands; `t` is OT. -/
def elemOp (op : ElemOp) (t : BitVec 4) (sat : Bool) (md : FMode) (a b c : Nat) : Out :=
  match op with
  | .sel => { v := if c % 2 = 1 then a else b }
  | .cvt tt z => convertElem t tt z sat md a
  | .mov => { v := a }
  | _ => if isFloat t then floatElem op (fmtOf t) md a b c else intElem op t sat a b c

/-! Reductions and dot products (R249, R281, R282, R300). -/

/-- The operations of REDUCE/DOT. -/
inductive RedOp where
  | sum | min | max | dot | count
deriving DecidableEq, Repr

/-- The accumulator type (R281). -/
def RedOp.acc (op : RedOp) (t : BitVec 4) (aw : BitVec 3) : BitVec 4 :=
  match op with
  | .count => 4
  | _ => (accType t aw).getD t

/-- One step between two accumulators, or the initial value and the result; `p` is the first operand (R249, R282, R291). -/
def redStep (op : RedOp) (at' : BitVec 4) (sat : Bool) (md : FMode) (p q : Nat) : Out :=
  match op with
  | .min => elemOp .min at' false md p q 0
  | .max => elemOp .max at' false md p q 0
  | _ => elemOp .add at' sat md p q 0

/-- An operand of a reduction as its accumulator type reads it: a floating one widened exactly (R281, R291, R368). -/
def redOperand (t at' : BitVec 4) (daz : Bool) (x : Nat) : Nat :=
  if isFloat t then (if t = at' then (fmtOf t).read daz x else widen (fmtOf t) (fmtOf at') daz x)
  else wrapTo (typeBits at') (valOf t x)

/-- Term `i` taken into an accumulator: placed in an empty one, or one step (R249). Of the options only
denormals-are-zero acts on a term of VRSUM, VRMIN or VRMAX placed in an empty one (DEDUCED, log 179). -/
def redTerm (op : RedOp) (t at' : BitVec 4) (sat : Bool) (md : FMode) (acc : Option Nat) (a b : Nat) : Out :=
  let x := redOperand t at' md.daz a
  let y := redOperand t at' md.daz b
  match op with
  | .count => { v := acc.getD 0 + a % 2 }
  | .dot =>
    if isFloat t then
      match acc with
      | none => (fmtOf at').mul md x y
      | some c => (fmtOf at').fused md false false orderCAB x y c
    else reduceInt at' sat (valOf t a * valOf t b + valOf at' (acc.getD 0))
  | _ =>
    match acc with
    | none => { v := x }
    | some c => redStep op at' sat md c x

/-- The next level of the combining tree of R249: pairs `width` apart, an empty operand passing the other through. -/
def treeLevel (step : Nat → Nat → Out) (width : Nat) (l : List (Option Nat) × FFlags × Bool) :
    List (Option Nat) × FFlags × Bool :=
  ((List.range 16).filter (fun k => k % (2 * width) == 0)).foldl (fun x k =>
    match x.1.getD k none, x.1.getD (k + width) none with
    | some p, some q =>
      let o := step p q
      (x.1.set k (some o.v), x.2.1 ||| o.fl, x.2.2 || o.sat)
    | none, some q => (x.1.set k (some q), x.2)
    | _, none => x) l

/-- The result of a reduction from its accumulators and the initial value (R249). -/
def redResult (op : RedOp) (at' : BitVec 4) (sat : Bool) (md : FMode) (acc : List (Option Nat)) (init : Option Nat) : Out :=
  let step := redStep op at' sat md
  let x := [1, 2, 4, 8].foldl (fun l w => treeLevel step w l) (acc, (0 : FFlags), false)
  match init, x.1.getD 0 none with
  | none, none => { v := 0, fl := x.2.1, sat := x.2.2 }
  | none, some r => { v := r, fl := x.2.1, sat := x.2.2 }
  | some i, none => { v := i, fl := x.2.1, sat := x.2.2 }
  | some i, some r =>
    let o := step i r
    { v := o.v, fl := x.2.1 ||| o.fl, sat := x.2.2 || o.sat }

end Sys2Proof.Machine
end

