-- ==== Sys2Proof/Machine/Stream.lean ====
section
/-! DEFINITION. Stream instructions and splices before they run: encodings (R264 to R271), descriptors (R214 to R217),
the checks at the closing instruction (R220 to R223, R268, R270, R464), spans and overlap (R216, R236, R240 to R243), shares
(R226), and the issue of a splice (R218). -/

namespace Sys2Proof.Machine

/-! Encodings (R266). -/

/-- A stream or short-vector instruction taken apart. -/
structure SIns where
  opc : BitVec 8
  fn : BitVec 7
  f : StreamFields
deriving DecidableEq, Repr

/-- The 48 bits of an instruction of the layout of R266. -/
def SIns.word (x : SIns) : W48 :=
  BitVec.ofNat 48 (2 ^ 40 * x.opc.toNat + 2 ^ 35 * x.f.dst.toNat + 2 ^ 30 * x.f.sa.toNat + 2 ^ 25 * x.f.sb.toNat +
    2 ^ 20 * x.f.sc.toNat + 2 ^ 19 * x.f.ch.toNat + 2 ^ 15 * x.f.ot.toNat + 2 ^ 13 * x.f.msk.toNat + 2 ^ 12 * x.f.sat.toNat +
    2 ^ 5 * x.fn.toNat + x.f.mreg.toNat)

/-- The fields of such an instruction. -/
def SIns.ofWord (w : W48) : SIns :=
  { opc := bits w 40 8, fn := bits w 5 7,
    f := { dst := bits w 35 5, sa := bits w 30 5, sb := bits w 25 5, sc := bits w 20 5, ch := bit w 19, ot := bits w 15 4,
           msk := bits w 13 2, sat := bit w 12, mreg := bits w 0 5 } }

/-- What a stream instruction does (R264, R276 to R288, R339). -/
inductive VOp where
  | elem (o : ElemOp)
  | red (o : RedOp) (aw : BitVec 3)
  | compress
  | expand (merge : Bool)
  | perm
  | gather
  | scatter
  | ext (e : BitVec 4)
deriving DecidableEq, Repr

/-- The ALU function codes (R276). -/
def aluOp (fn : BitVec 7) : ElemOp :=
  match fn.toNat with
  | 0 => .add | 1 => .sub | 2 => .min | 3 => .max | 4 => .abs | 5 => .neg | 8 => .and | 9 => .or | 10 => .xor
  | 11 => .andn | 12 => .shl | 13 => .shr | 14 => .sar | 24 => .sel | _ => .cmp (bits fn 0 3)

/-- The REDUCE/DOT function codes (R281). -/
def redOp (fn : BitVec 7) : RedOp :=
  match (bits fn 0 4).toNat with
  | 0 => .sum | 1 => .min | 2 => .max | 3 => .dot | _ => .count

/-- The CONVERT/PERMUTE function codes (R283). -/
def cvtOp (fn : BitVec 7) : VOp :=
  let tt : BitVec 4 := bits fn 0 4
  match (bits fn 4 3).toNat with
  | 0 => .elem (.cvt tt false) | 1 => .elem (.cvt tt true) | 2 => .elem .mov | 3 => .compress
  | 4 => .expand false | 5 => .expand true | _ => .perm

/-- The operation of group `g` of R264 with function code `fn`. -/
def groupOp (g : Nat) (fn : BitVec 7) : VOp :=
  match g with
  | 0 => .elem (aluOp fn)
  | 1 => .elem (match fn.toNat with | 0 => .mul | 1 => .mulh | _ => .mulw)
  | 2 => .elem (match fn.toNat with | 0 => .fma | 1 => .fms | 2 => .fnma | _ => .fnms)
  | 3 => .elem (match fn.toNat with | 0 => .div | 1 => .rem | _ => .sqrt)
  | 4 => .red (redOp fn) (bits fn 4 3)
  | 5 => cvtOp fn
  | 6 => .gather
  | _ => .scatter

/-- What an instruction does. -/
def SIns.op (x : SIns) : VOp :=
  if 0xE0 ≤ x.opc.toNat then .ext (bits x.opc 0 4) else groupOp (x.opc.toNat % 8) x.fn

/-- The type of an instruction's result (R276 to R288, R281). -/
def SIns.result (x : SIns) : BitVec 4 :=
  match x.op with
  | .elem o => o.result x.f.ot
  | .red o aw => o.acc x.f.ot aw
  | _ => x.f.ot

/-- The operand fields. -/
inductive Role where
  | d | a | b | c | m
deriving DecidableEq, Repr

def Role.all : List Role := [.d, .a, .b, .c, .m]

/-- The reference that a field holds; 0b11111 for none, which DST writes 0b10000 (R266, R267, R269). -/
def SIns.ref (x : SIns) : Role → BitVec 5
  | .d => if x.f.dst = 16 then 31 else x.f.dst
  | .a => x.f.sa
  | .b => x.f.sb
  | .c => x.f.sc
  | .m => if x.f.msk = 0 then 31 else x.f.mreg

/-- A descriptor as a splice names it: its VD number, 16 more as a destination. -/
def SIns.key (x : SIns) (r : Role) : Option (BitVec 5) :=
  let v := x.ref r
  if v.toNat < 16 then some (if r = .d then v + 16 else v) else none

/-- The instruction whose result a field takes (R267). -/
def SIns.link (x : SIns) (r : Role) : Option Nat :=
  let v := (x.ref r).toNat
  if r ≠ .d ∧ 16 ≤ v ∧ v < 24 then some (v - 16) else none

/-- The descriptors that instructions name, in order of first naming (R247). Within one instruction DST, SA, SB, SC, MK is taken, and a
VD named as a source and as a destination is two descriptors, each with its range register and its place in the record (R240; DESIGN
CHOICE, log 126). -/
def namings (ins : List SIns) : List (BitVec 5) :=
  (ins.flatMap (fun x => Role.all.filterMap x.key)).foldl (fun l k => if k ∈ l then l else l ++ [k]) []

/-! Descriptors (R214 to R217). -/

abbrev Desc := BitVec 144

def Desc.base (d : Desc) : Addr := bits d 0 40
def Desc.type (d : Desc) : BitVec 4 := bits d 40 4
def Desc.gen (d : Desc) : BitVec 2 := bits d 44 2
def Desc.ord (d : Desc) : Bool := bit d 46
def Desc.adv (d : Desc) : Bool := bit d 47
def Desc.stride (d : Desc) : Int := (bits d 72 36).toInt
def Desc.len (d : Desc) : Nat := (bits d 108 36).toNat

/-- A constant descriptor (R215). -/
def Desc.constant (d : Desc) : Bool := d.gen == 1

/-- B1, H32 and H64 descriptors are dense (R215). -/
def denseType (t : BitVec 4) : Bool := t == 8 || t == 10 || t == 11

/-- The ply stride (R90); 0 for a constant. -/
def Desc.sigma (d : Desc) : Int :=
  if d.constant ∨ denseType d.type then 0 else d.stride * (typePlies d.type : Int)

/-- Where element `i` lies: its ply address, the first bit in that ply, and its bits (R70, R76, R215). -/
def Desc.locate (d : Desc) (i : Nat) : Int × Nat × Nat :=
  let j := if d.constant then 0 else i
  let b : Int := d.base.toNat
  if d.type = 8 then (b + (j / 12 : Nat), j % 12, 1)
  else if d.type = 10 ∨ d.type = 11 then
    let off := j * typeBits d.type
    (b + (off / 12 : Nat), off % 12, typeBits d.type)
  else (b + j * d.sigma, 0, typeBits d.type)

/-- The span of elements `from` to LENGTH − 1: first and last ply (R216, R241). -/
def Desc.spanFrom (d : Desc) (start : Nat) : Option (Int × Int) :=
  if d.constant then
    let p := d.locate 0
    some (p.1, p.1 + ((p.2.1 + p.2.2 - 1) / 12 : Nat))
  else if d.len ≤ start then none
  else
    let p := d.locate start
    let q := d.locate (d.len - 1)
    let hi := fun x : Int × Nat × Nat => x.1 + ((x.2.1 + x.2.2 - 1) / 12 : Nat)
    some (if p.1 ≤ q.1 then p.1 else q.1, if hi p ≤ hi q then hi q else hi p)

/-- The whole span (R216). -/
def Desc.span (d : Desc) : Option (Int × Int) := d.spanFrom 0

/-- Two spans meet. -/
def spansMeet (a b : Option (Int × Int)) : Bool :=
  match a, b with
  | some x, some y => x.1 ≤ y.2 && y.1 ≤ x.2
  | _, _ => false

/-- The regions in which a pump works: cisterns, the interleaved deep store, the sump channel (R217). -/
def pumpRegion (a : Int) : Option Region :=
  if a < 0 then none
  else match regionOf a.toNat with
    | some (.cistern n) => some (.cistern n)
    | some .deep => some .deep
    | some .sump => some .sump
    | _ => none

/-- A span lies within one region of R217. -/
def spanOk (x : Option (Int × Int)) : Bool :=
  match x with
  | none => true
  | some (a, b) => (pumpRegion a).isSome && pumpRegion a == pumpRegion b

/-! Types and pipes (R210, R270 to R288, R464). -/

/-- Plies `p` to `p + n − 1` of the vector control store as a number (R36, R456). -/
def storePlies (s : State) (p n : Nat) : Nat :=
  (List.range n).foldl (fun v i =>
    v + (wordPly (memAt s (0x50000000 + 6 * ((p + i) / 6))).data ((p + i) % 6)).toNat * 2 ^ (12 * i)) 0

/-- The words of the vector control store that plies `p` to `p + n − 1` lie in are read by a sequencer (R472, R473): whether one of them is
poisoned, and the state after. -/
def readPlies (s : State) (p n : Nat) (master : Byte) : Bool × State :=
  let k := p / 6
  (List.range ((p + n - 1) / 6 - k + 1)).foldl (fun x i =>
    let y := controlRead x.2 false (k + i) master
    (x.1 || y.1.poison, y.2)) (false, s)

/-- The ply of the vector control store at which entry `e` of the dispatch table begins (R462). -/
def dispatchPly (e : Nat) : Nat := 16 * (12224 + e / 4) + 4 * (e % 4)

/-- The keys of the words that hold plies `p` to `p + n − 1` of the vector control store. -/
def plyKeys (p n : Nat) : List Nat := (List.range ((p + n - 1) / 6 - p / 6 + 1)).map (fun i => 0x50000000 + 6 * (p / 6 + i))

/-- A reader that a poisoned word of a control store stops has used it: the first poisoned one of `keys` is logged (R165, R474). -/
def microUsed (s : State) (keys : List Nat) (master : Byte) : State :=
  match keys.find? (fun k => (cellAt s k).poison) with
  | some k => poisonUsed s k false master
  | none => s

/-- The dispatch entries of instructions are read, one after another: whether a word of them is poisoned. -/
def readEntries (s : State) (ins : List SIns) (master : Byte) : Bool × State :=
  ins.foldl (fun x i =>
    let y := readPlies x.2 (dispatchPly i.opc.toNat) 4 master
    (x.1 || y.1, y.2)) (false, s)

/-- Entry `e` of the dispatch table (R462). -/
def dispatchEntry (s : State) (e : Nat) : W48 := BitVec.ofNat 48 (storePlies s (dispatchPly e) 4)

/-- The dispatch entry of an extension instruction. -/
def SIns.entry (s : State) (x : SIns) : W48 := dispatchEntry s x.opc.toNat

/-- The operation type is one that the operation accepts (R276 to R288, R284, R464). VMOV of H32 and H64, which R283 lists and R77
refuses, is refused (DEDUCED, log 127). -/
def SIns.accepts (s : State) (x : SIns) : Bool :=
  let t := x.f.ot
  let same := bits x.fn 0 4 == t
  match x.op with
  | .elem o =>
    match o with
    | .and | .or | .xor | .andn => isInt t || t == 8
    | .shl | .shr | .sar | .mulh | .rem => isInt t
    | .cmp c => if c = 6 then isFloat t else isInt t || isFloat t
    | .mulw => t.toNat < 4 || t == 6
    | .sqrt => isFloat t
    | .cvt tt _ => cvtPair t tt
    | .mov => same && !(t == 10 || t == 11)
    | _ => isInt t || isFloat t
  | .red o _ => if o = .count then t == 8 else isInt t || isFloat t
  | .compress => same && !(t == 10 || t == 11)
  | .expand _ => same && !(t == 10 || t == 11)
  | .perm => same && !denseType t
  | .gather => !denseType t
  | .scatter => !denseType t
  | .ext _ =>
    let e := x.entry s
    bit e (28 + t.toNat) && (x.f.msk == 0 || bits e 40 2 == 1 || (bits e 40 2 == 2 && x.f.msk == 2))

/-- An operand matches an expected type (R270). -/
def matches' (want have' : BitVec 4) : Bool :=
  if isInt want && isInt have' then typeBits want == typeBits have' else want == have'

/-- The expected type of a field; none for an index (R270 to R288). -/
def SIns.expected (x : SIns) (r : Role) : Option (BitVec 4) :=
  match r, x.op with
  | .m, _ => some 8
  | .d, .scatter => some x.f.ot
  | .d, _ => some x.result
  | .b, .perm => none
  | .b, .gather => none
  | .b, .scatter => none
  | .c, .elem .sel => some 8
  | .c, .compress => some 8
  | .c, .expand _ => some 8
  | .c, .red _ _ => some x.result
  | _, _ => some x.f.ot

/-- The pipes that an instruction names: 0 to 5 the arithmetic pipes in the order of R210, 6 INDEX for a gather, 7 INDEX for a
scatter: a splice may hold one of each (R220, R223). -/
def SIns.pipes (s : State) (x : SIns) : List Nat :=
  match x.op with
  | .ext _ => (List.range 6).filter (fun i => bit (x.entry s) (16 + i)) ++ (if bit (x.entry s) 42 then [6] else [])
  | .gather => [6]
  | .scatter => [7]
  | _ => [x.opc.toNat % 8]

/-- The field receives or starts a REDUCE/DOT result, so it does not fix n (R221). -/
def SIns.single (s : State) (x : SIns) (r : Role) : Bool :=
  match x.op with
  | .red _ _ => r == .d || r == .c
  | .ext _ => r == .d && bit (x.entry s) 20
  | _ => false

/-- A chained reference that R268 refuses, in instruction number `i` after `prev`. -/
def badLink (s : State) (prev : List SIns) (i : Nat) (x : SIns) : Bool :=
  Role.all.any (fun r =>
    match x.link r with
    | none => false
    | some j =>
      i ≤ j || (match prev[j]? with
        | none => true
        | some y => match y.op with
          | .scatter => true
          | .red _ _ => true
          | .compress => true
          | .expand m => m
          | .ext _ => (y.pipes s).contains 4
          | _ => false) ||
      (r == .a && (match x.op with
        | .expand _ => true
        | .perm => true
        | .gather => true
        | .ext _ => bit (x.entry s) 42
        | _ => false)) ||
      (r == .c && (match x.op with | .red _ _ => true | _ => false)))

/-! Shares (R226). -/

/-- The weight of an owner code as a fraction; the denominator is not 0. -/
def weightOf (s : State) (o : OwnerCode) : Nat × Nat :=
  if 8 ≤ o.toNat then (0, 1)
  else
    let p := codePart o
    let w := (rdF s .pmpShare (4 * p) 4).toNat
    let wa := (rdF s (.pmpSplit p) 0 4).toNat
    let ws := (rdF s (.pmpSplit p) 4 4).toNat
    if wa + ws = 0 then (0, 1) else (w * (if codeSafety o then ws else wa), wa + ws)

/-! The checks at the closing instruction (R223). -/

/-- The descriptors of a splice: key and content. -/
abbrev Captured := List (BitVec 5 × Desc)

/-- The captured descriptor of a key. -/
def capturedAt (l : Captured) (k : BitVec 5) : Desc := ((l.find? (fun x => x.1 == k)).map (fun x => x.2)).getD 0

/-- The type of the operand in a field; none where the field refers to no instruction. -/
def operandType (ins : List SIns) (l : Captured) (x : SIns) (r : Role) : Option (BitVec 4) :=
  match x.key r with
  | some k => some (capturedAt l k).type
  | none => (x.link r).bind (fun j => ins[j]?.map SIns.result)

/-- The types that an extension instruction is given, its mask apart, which is B1 (R272): OT and those of its operands. -/
def SIns.given (x : SIns) (ins : List SIns) (l : Captured) : List (BitVec 4) :=
  x.f.ot :: [Role.d, .a, .b, .c].filterMap (operandType ins l x)

/-- A pipe that an extension instruction declares is given K48, which only CONVERT/PERMUTE and INDEX accept (R75), or H32 or H64, which only
CONVERT/PERMUTE accepts, and beside F24 or F48 only (R77, R464; log 125). -/
def SIns.extClash (s : State) (x : SIns) (ins : List SIns) (l : Captured) : Bool :=
  let ts := x.given ins l
  let pipes := x.pipes s
  let half := fun t : BitVec 4 => t == 10 || t == 11
  (ts.contains 9 && pipes.any (· < 5)) ||
    (ts.any half && (pipes != [5] || !ts.all (fun t => half t || isFloat t) || !ts.any isFloat))

/-- Some operand or OT of an instruction does not match (R270). -/
def typeClash (s : State) (ins : List SIns) (l : Captured) (x : SIns) : Bool :=
  !x.accepts s || (match x.op with
    | .ext _ => x.extClash s ins l || (operandType ins l x .m).any (· != 8)
    | _ => Role.all.any (fun r =>
      match operandType ins l x r, x.expected r with
      | none, _ => false
      | some t, none => !isInt t
      | some t, some w => !matches' w t))

/-- The lengths that fix n (R221). -/
def fixingLengths (s : State) (ins : List SIns) (l : Captured) : List Nat :=
  ins.flatMap (fun x => Role.all.filterMap (fun r =>
    match x.key r with
    | some k =>
      let d := capturedAt l k
      if x.single s r ∨ d.constant then none else some d.len
    | none => none))

/-- The element count n of a splice (R221). -/
def elementCount (s : State) (ins : List SIns) (l : Captured) : Nat := (fixingLengths s ins l).headD 0

/-- R221 is not met. A constant
descriptor as the destination of a REDUCE/DOT result passes whatever its LENGTH (DEDUCED, log 177). -/
def badLength (s : State) (ins : List SIns) (l : Captured) : Bool :=
  let f := fixingLengths s ins l
  f.isEmpty || f.any (fun n => n != f.headD 0) ||
    ins.any (fun x => Role.all.any (fun r =>
      match x.key r with
      | some k => x.single s r && !(capturedAt l k).constant && (capturedAt l k).len != 1
      | none => false))

/-- The reasons of R223 that are checked at the closing instruction, with their codes in order. -/
def issueReasons (s : State) (o : OwnerCode) (ins : List SIns) (l : Captured) : List (Bool × BitVec 8) :=
  let pipes := ins.flatMap (SIns.pipes s)
  let arith := pipes.filter (· < 6)
  let sources := (l.filter (fun x => x.1.toNat < 16)).length
  let last := ins.length - 1
  [ (l.any (fun x => !typeOk x.2.type), 0x01),
    (l.any (fun x => 2 ≤ x.2.gen.toNat || bits x.2 48 24 != 0 || (x.2.adv && (x.2.constant || denseType x.2.type))), 0x02),
    (ins.any (typeClash s ins l), 0x03),
    (4 < arith.dedup.length, 0x04),
    (pipes.dedup.length != pipes.length, 0x05),
    (3 < sources, 0x06),
    (2 < l.length - sources, 0x07),
    (badLength s ins l, 0x08),
    (l.any (fun x => !spanOk x.2.span), 0x09),
    (o != 8 && (weightOf s o).1 == 0, 0x0A),
    (match ins[last]? with | some x => badLink s ins last x | none => false, 0x0C) ]

/-- The lowest reason that applies; 0 for none. -/
def issueReason (s : State) (o : OwnerCode) (ins : List SIns) (l : Captured) : BitVec 8 :=
  (((issueReasons s o ins l).find? (fun x => x.1)).map (fun x => x.2)).getD 0

/-! Overlap (R236). -/

/-- The descriptor is a gather or scatter target somewhere in the splice. -/
def isTarget (s : State) (ins : List SIns) (k : BitVec 5) : Bool :=
  ins.any (fun x => match x.op with
    | .gather => x.key .a == some k
    | .scatter => x.key .d == some k
    | .ext _ => bit (x.entry s) 42 && x.key .a == some k
    | _ => false)

/-- An exact alias (R236). -/
def exactAlias (s : State) (ins : List SIns) (a b : BitVec 5 × Desc) : Bool :=
  let strided := fun d : Desc => !d.constant && !denseType d.type
  strided a.2 && strided b.2 && a.2.base == b.2.base && a.2.sigma == b.2.sigma && typeBits a.2.type == typeBits b.2.type &&
    a.2.len == b.2.len && !isTarget s ins a.1 && !isTarget s ins b.1

/-- A splice overlaps and runs in ordered mode (R236). -/
def overlaps (s : State) (ins : List SIns) (l : Captured) : Bool :=
  let dsts := l.filter (fun x => 16 ≤ x.1.toNat)
  let srcs := l.filter (fun x => x.1.toNat < 16)
  l.any (fun x => x.2.ord) ||
    dsts.any (fun d => srcs.any (fun t => spansMeet d.2.span t.2.span && !exactAlias s ins d t)) ||
    dsts.any (fun d => dsts.any (fun e => d.1 != e.1 && spansMeet d.2.span e.2.span))

/-! Splices in flight. -/

/-- The instructions of a splice. -/
def Splice.instrs (p : Splice) : List SIns := p.ins.map SIns.ofWord

/-- The element count of a splice. -/
def Splice.count (s : State) (p : Splice) : Nat := elementCount s p.instrs p.descs

/-- The descriptor's remaining span does not shrink (R241). -/
def wholeSpan (s : State) (p : Splice) (k : BitVec 5) : Bool :=
  isTarget s p.instrs k || p.instrs.any (fun x => Role.all.any (fun r => x.single s r && x.key r == some k))

/-- The remaining spans of a splice, each with whether it is a destination's (R240, R241). Those of a VCMPR destination and of an expand
source begin at element ELEM too, not at the packed position that R286 and R287 reach (DESIGN CHOICE, log 148). -/
def Splice.spans (s : State) (p : Splice) : List (Option (Int × Int) × Bool) :=
  (p.descs.filter (fun x => !(Desc.constant x.2))).map (fun x =>
    (Desc.spanFrom x.2 (if wholeSpan s p x.1 then 0 else p.elem), decide (16 ≤ x.1.toNat)))

/-- Every span of a splice, constants included. -/
def Splice.allSpans (p : Splice) : List (Option (Int × Int) × Bool) :=
  p.descs.map (fun x => (Desc.span x.2, decide (16 ≤ x.1.toNat)))

/-- Range registers that a splice holds (R240). -/
def Splice.ranges (p : Splice) : Nat := (p.descs.filter (fun x => !(Desc.constant x.2))).length

/-- Range registers of core `c` in use (R240). -/
def rangesUsed (s : State) (c : Nat) : Nat := ((s.splices.list.filter (fun p => p.core == c)).map Splice.ranges).sum

/-- `q` may not start before the earlier splice `p` of its context is final (R243). -/
def mustFollow (q p : Splice) : Bool :=
  p.cid == q.cid && p.id < q.id &&
    (q.allSpans.any (fun x => p.allSpans.any (fun y => y.2 && spansMeet x.1 y.1)) ||
     q.allSpans.any (fun x => x.2 && p.allSpans.any (fun y => spansMeet x.1 y.1)))

/-- The dispatcher may start or resume the splice now (R227, R243, R555). -/
def eligible (s : State) (q : Splice) : Bool :=
  (match q.phase with | .waiting => true | .saved _ => true | _ => false) &&
    inRun s && phase s == 0 && !s.splices.list.any (mustFollow q)

/-- A scalar access of context `cid` to ply `a` must wait for a splice of its own (R242). -/
def waitsForSplice (s : State) (cid a : Nat) (k : Kind) : Bool :=
  s.splices.list.any (fun p => p.cid == cid && (p.spans s).any (fun x =>
    (x.2 || k == .write) && spansMeet x.1 (some ((a : Int), (a : Int)))))

/-- The trail of a context. -/
def trailOf (s : State) (cid : Nat) : Trail := s.splices.trails.get cid {}

/-- It takes a value. -/
def setTrail (s : State) (cid : Nat) (t : Trail) : State :=
  { s with splices := { s.splices with trails := s.splices.trails.put cid t {} } }

/-- The task slot of core `c` that is resident in bank `b` (R442, R452). -/
def slotOfBank (s : State) (c b : Nat) : Option Nat :=
  (List.range 64).find? (fun t => rdB s (.capTsk c t 3) 3 && (rdF s (.capTsk c t 3) 4 5).toNat == b)

/-- The address of the task control block of a slot (R452). -/
def tcbOf (s : State) (c t : Nat) : Nat := (rd s (.capTsk c t 0)).toNat + (rdF s (.capTsk c t 1) 0 16).toNat * 2 ^ 24

/-- The lazy area of the running context: words 16 to 79 of the task control block (R443); 0 where there is none. -/
def lazyAreaOf (s : State) (c : Nat) : Nat :=
  if c = 4 then 0
  else match slotOfBank s c (bankOf s c) with
    | some t => tcbOf s c t + 96
    | none => 0

/-- The descriptors that instructions name, as the running context of core `c` holds them (R218). -/
def capture (s : State) (c : Nat) (ins : List SIns) : Captured :=
  (namings ins).map (fun k => (k, (ctxOf s c).vdr (k.toNat % 16)))

/-- BASE of each named descriptor with ADV = 1 advances (R218). -/
def advance (x : Ctx) (l : Captured) : Ctx :=
  (l.map (fun d => d.1.toNat % 16)).dedup.foldl (fun y n =>
    let d : Desc := y.vdr n
    if d.adv then y.setVdr n (setBits d 0 (BitVec.ofInt 40 (d.base.toNat + d.len * d.sigma))) else y) x

/-- A splice is issued: descriptors, mode and options are captured, descriptors advance, and it waits (R218, R251, R253). -/
def issueSplice (s : State) (c : Nat) (ins : List SIns) : State :=
  let x := ctxOf s c
  let l := capture s c ins
  let t := trailOf s x.cid
  let ordered := overlaps s ins l
  let p : Splice := {
    id := s.splices.next, core := c, bank := bankOf s c, cid := x.cid, owner := coreCode s c, safety := x.safety, sup := x.sup,
    lazyArea := lazyAreaOf s c, seq := t.seq, ins := ins.map SIns.word, descs := l, rm := bits x.stw 6 3, ftz := bit x.stw 9,
    daz := bit x.stw 10, ordered := ordered, status := if ordered then 0x20 else 0,
    acc := if ins.any (fun i => (i.pipes s).contains 4) then List.replicate 16 none else [] }
  let s1 := setTrail s x.cid { t with seq := t.seq + 1 }
  let s2 := { s1 with splices := { s1.splices with list := s1.splices.list ++ [p], next := s1.splices.next + 1 } }
  setCtx s2 c { advance (ctxOf s2 c) l with chain := [], chainPc := 0 }

end Sys2Proof.Machine
end

