-- ==== Sys2Proof/Machine/Micro.lean ====
section
/-! DEFINITION. Extension instructions: microwords (R456, R458), the sequencer (R459 to R461) and what the pipe slots of a
group routine compute on the lanes of a group (R458, R464). -/

namespace Sys2Proof.Machine

/-- One lane of a group: a value and its poison mark. -/
structure Lane where
  v : Nat := 0
  p : Bool := false
deriving DecidableEq, Repr

/-- Microword `m`, whether a coded word of it is poisoned, and the state after its read (R456). -/
def microRead (s : State) (m : Nat) (master : Byte) : BitVec 192 × Bool × State :=
  let r := readPlies s (16 * m) 16 master
  (BitVec.ofNat 192 (storePlies r.2 (16 * m) 16), r.1, r.2)

/-- Explicit mode of the page of microword `a` (R459). -/
def explicitPage (s : State) (a : Nat) : Bool := storePlies s (16 * 12223) 2 / 2 ^ (a / 1024) % 2 == 1

/-- What the conditions of R458 see: the last group, the mask bits all 0 and all 1, FN. -/
structure Conds where
  last : Bool
  none : Bool
  all : Bool
  fn : BitVec 7

/-- The condition that COND selects (R458). -/
def Conds.holds (c : Conds) (cond : BitVec 5) : Bool :=
  match cond.toNat with
  | 0 => true | 1 => false | 2 => c.last | 3 => c.none | 4 => c.all
  | n => if 8 ≤ n ∧ n ≤ 14 then bit c.fn (n - 8) else false

/-- The microwords that a group routine runs, in order, from address `a` with call stack `stack`; whether it reached a
poisoned word, whose use is logged (R165); and the state after the reads (R460, R461, R474). RET with an empty
stack goes to 0, a fifth CALL drops the oldest return address, and SQ 6 and 7 end the routine (DESIGN CHOICE, log 183); GEND looks at the last
group alone, whatever COND selects (DEDUCED, log 184). -/
def microPath (c : Conds) (master : Byte) : Nat → State → Nat → List Nat → List (BitVec 192) × Bool × State
  | 0, s, _, _ => ([], false, s)
  | fuel + 1, s, a, stack =>
    let r := microRead s a master
    let w := r.1
    if r.2.1 then ([], true, microUsed r.2.2 (plyKeys (16 * a) 16) master)
    else
      let na := (bits w 0 14).toNat
      let ok := c.holds (bits w 14 5)
      let confine := fun n : Nat => if 12288 ≤ a then 12288 + n % 4096 else n % 16384
      let go := fun (n : Nat) (st : List Nat) =>
        let t := microPath c master fuel r.2.2 (confine n) st
        (w :: t.1, t.2.1, t.2.2)
      let paged := fun (next : State → Nat) =>
        match readPlies r.2.2 (16 * 12223) 2 master with
        | (true, u) => ([], true, microUsed u (plyKeys (16 * 12223) 2) master)
        | (false, u) =>
          let t := microPath c master fuel u (confine (next u)) stack
          (w :: t.1, t.2.1, t.2.2)
      match (bits w 19 3).toNat with
      | 0 => paged (fun u => if explicitPage u a then na else a + 1)
      | 1 => paged (fun u => if explicitPage u a then na / 2 * 2 + cond ok 1 0 else if ok then na else a + 1)
      | 2 => go na ((a + 1) :: stack.take 3)
      | 3 => go (stack.headD 0) stack.tail
      | 4 => go (na + (bits c.fn 0 4).toNat) stack
      | _ => ([w], false, r.2.2)

/-- What a group routine has computed: results of the slots, temporaries, the lanes sent to the instruction's destination stream, by groups
ahead and with whether each is written, flags, saturation and index failures by lane, the terms it hands to REDUCE/DOT with whether the
mask applies to them, and how many groups each stream has advanced. -/
structure XState where
  res : List (List Lane) := []
  tmp : List (List Lane) := []
  outs : Tab (List (Lane × Bool)) := Tab.empty
  fl : List FFlags := []
  sat : List Bool := []
  bad : List Bool := []
  red : Option (RedOp × BitVec 3 × BitVec 4 × Bool × Bool × List Lane × List Lane) := none
  adv : List Nat := [0, 0, 0]
  dadv : Nat := 0
  free : Nat := 0

/-- The lanes that a source field names; a source stream shows the group to which it has advanced (R458). -/
def XState.source (x : XState) (streams : Nat → Nat → List Lane) (f : BitVec 4) : List Lane :=
  let n := f.toNat
  if n < 3 then streams n (x.adv.getD n 0)
  else if 4 ≤ n ∧ n < 8 then x.res.getD (n - 4) []
  else if 8 ≤ n ∧ n < 12 then x.tmp.getD (n - 8) []
  else []

/-- One lane of a slot's result: value and flags, poison, index failure, and whether a destination stream takes it. -/
structure SlotOut where
  out : Out := { v := 0 }
  p : Bool := false
  bad : Bool := false
  put : Bool := true

/-- The lanes below `i` that a selector selects, poisoned bits included (R275, R286). -/
def selectedBelow (c : List Lane) (i : Nat) : List Nat :=
  (List.range i).filter (fun j => (c.getD j {}).v % 2 == 1 || (c.getD j {}).p)

/-- Some selector bit below `i` is poisoned (R275). -/
def shakenBelow (c : List Lane) (i : Nat) : Bool := (List.range i).any (fun j => (c.getD j {}).p)

/-- One lane of a slot's operation. VCMPR, VEXPZ, VEXPM and VPERM work within the lanes of the group (DEDUCED, log 128); a lane that VCMPR or
VEXPM does not write has a free value. `width` is the number of lanes. -/
def slotLane (op : VOp) (t : BitVec 4) (sat : Bool) (md : FMode) (free : Nat → Nat) (width : Nat) (a b c : List Lane)
    (i : Nat) : SlotOut :=
  let x := a.getD i {}
  let y := b.getD i {}
  let z := c.getD i {}
  let open' : SlotOut := { out := { v := free i % 2 ^ typeBits t }, put := false }
  match op with
  | .elem o => { out := elemOp o t sat md x.v y.v z.v, p := x.p || y.p || z.p }
  | .perm =>
    let j := (valOf t y.v % 64).toNat
    let u := a.getD j {}
    { out := { v := u.v }, p := u.p || y.p, bad := decide (width ≤ j) }
  | .compress => match (selectedBelow c width)[i]? with
    | some j => { out := { v := (a.getD j {}).v }, p := (a.getD j {}).p || shakenBelow c (j + 1) }
    | none => open'
  | .expand merge =>
    if z.v % 2 = 1 ∨ z.p then
      let u := a.getD (selectedBelow c i).length {}
      { out := { v := u.v }, p := u.p || shakenBelow c (i + 1) }
    else if merge then open' else {}
  | _ => open'

/-- Pipe slot `j` of a microword acts on the lanes of a group (R458); `act` is the mask by lane, `zero` zero mode. A result for destination
stream 1, which no instruction names, goes nowhere (DEDUCED, log 128). -/
def slotStep (md : FMode) (streams : Nat → Nat → List Lane) (act : List Bool) (zero : Bool) (free : Nat → Nat)
    (w : BitVec 192) (x : XState) (j : Nat) : XState :=
  let f : BitVec 32 := bits w (32 * j + 24) 32
  let pipe := (bits f 0 3).toNat
  if pipe = 0 ∨ pipe = 7 then x
  else
    let t : BitVec 4 := bits f 10 4
    let sat := bit f 14
    let op := groupOp (pipe - 1) (bits f 3 7)
    let a := x.source streams (bits f 15 4)
    let b := x.source streams (bits f 19 4)
    let c := x.source streams (bits f 23 4)
    let width := act.length
    match op with
    | .red o aw => { x with red := some (o, aw, t, sat, bit f 31, a, b), res := x.res.set j (List.replicate width {}) }
    | _ =>
      let on := fun i => !bit f 31 || act.getD i true
      let outs := (List.range width).map (slotLane op t sat md (fun i => free (x.free + i)) width a b c)
      let at' := fun i => outs.getD i {}
      let lanes := (List.range width).map (fun i =>
        if on i then ({ v := (at' i).out.v, p := (at' i).p } : Lane) else if zero then {} else a.getD i {})
      let sent := (List.range width).map (fun i => (lanes.getD i {}, if on i then (at' i).put else zero))
      let dst := (bits f 27 4).toNat
      { x with
        res := x.res.set j lanes
        tmp := if 8 ≤ dst ∧ dst < 12 then x.tmp.set (dst - 8) lanes else x.tmp
        outs := if dst = 0 then x.outs.insert x.dadv sent else x.outs
        fl := (List.range width).map (fun i => x.fl.getD i 0 ||| (if on i then (at' i).out.fl else 0))
        sat := (List.range width).map (fun i => x.sat.getD i false || (on i && (at' i).out.sat))
        bad := (List.range width).map (fun i => x.bad.getD i false || (on i && (at' i).bad))
        free := x.free + width }

/-- SADV and DADV advance the streams after the microword (R458). -/
def advanceStreams (w : BitVec 192) (x : XState) : XState :=
  { x with
    adv := (List.range 3).map (fun i => x.adv.getD i 0 + cond (bit w (184 + i)) 1 0)
    dadv := x.dadv + cond (bit w 187) 1 0 }

/-- A group routine acts on the lanes of its source streams, `streams i k` those of stream `i` in the group `k` ahead (R458, R464). -/
def routine (md : FMode) (streams : Nat → Nat → List Lane) (act : List Bool) (zero : Bool) (free : Nat → Nat)
    (path : List (BitVec 192)) : XState :=
  let empty := List.replicate 4 (List.replicate act.length ({} : Lane))
  path.foldl (fun x w => advanceStreams w ([0, 1, 2, 3].foldl (slotStep md streams act zero free w) x)) { res := empty, tmp := empty }

/-- Some slot of a path computes a lane whatever the mask says (R458). -/
def maskless (path : List (BitVec 192)) : Bool :=
  path.any (fun w => [0, 1, 2, 3].any (fun j =>
    let f : BitVec 32 := bits w (32 * j + 24) 32
    bits f 0 3 != 0 && !bit f 31))

end Sys2Proof.Machine
end

