-- ==== Sys2Proof/Machine/Splice.lean ====
section
/-! DEFINITION. How a splice runs: elements read with their poison (R58, R147, R275), masks (R272, R273), results (R276 to
R289), reductions (R249), writes (R55, R71, R238), and where it stops (R116, R252, R254, R474). -/

namespace Sys2Proof.Machine

/-- What a group has written to a word and not yet handed to its target. -/
structure Over where
  mask : Word72 := 0
  data : Word72 := 0
  poison : Bool := false
deriving DecidableEq, Repr

/-- Why an element does not complete: an access is held (R124, R179), or a cause of R253 with the descriptor's index, and the status bits
(R251) of every cause that failed at it. -/
inductive Stop where
  | held
  | fail (cause : BitVec 3) (desc : Nat) (causes : BitVec 24)
deriving DecidableEq, Repr

/-- The status bit of a cause of R253; 0 is a complete run. -/
def causeBit (cause : BitVec 3) : BitVec 24 :=
  match cause.toNat with
  | 1 => 2 | 2 => 8 | 3 => 0x80 | 4 => 0x100 | 5 => 0x200 | _ => 0

/-- A group in progress. -/
structure Run where
  s : State
  /-- The words that the group has fetched (R93). -/
  cache : Tab Word := Tab.empty
  /-- The words whose write check has been made. -/
  writable : Tab Bool := Tab.empty
  outs : Tab Over := Tab.empty
  acc : List (Option Nat) := []
  tainted : List Nat := []
  taken : Nat := 0
  fl : FFlags := 0
  st : BitVec 24 := 0
  stop : Option Stop := none

/-- What stays the same while a group runs. -/
structure Env where
  p : Splice
  ins : List SIns
  who : Who
  n : Nat
  md : FMode
  /-- The first element of the group and the number of its elements. -/
  lo : Nat
  width : Nat
  /-- The path of each extension instruction's group routine. -/
  paths : List (List (BitVec 192))

/-- A failure is noted: the lowest DESC is kept with its cause (R253), and the status bit of every cause (R251). -/
def Run.fail (r : Run) (cause : BitVec 3) (d : Nat) (causes : BitVec 24 := 0) : Run :=
  let all := causeBit cause ||| causes
  match r.stop with
  | none => { r with stop := some (.fail cause d all) }
  | some .held => r
  | some (.fail c e b) => { r with stop := some (if d < e then .fail cause d (b ||| all) else .fail c e (b ||| all)) }

/-- What stopped the element before an instruction of it, together with what that instruction met (R253). -/
def Run.after (r : Run) (before : Option Stop) : Run :=
  match r.stop with
  | none => { r with stop := before }
  | some .held => r
  | some (.fail c d b) => { r with stop := before }.fail c d b

/-- The check of a pump's access to a word: the regions of R217, then R32 and the wait for a tag (R97). -/
def checkPump (s : State) (w : Who) (a : Nat) (k : Kind) : Verdict × State :=
  if (pumpRegion a).isSome then admitted s w a 6 k else (.refused, s)

/-- The DESC index of a descriptor (R253). -/
def Env.descIndex (e : Env) (k : BitVec 5) : Nat := e.p.descs.findIdx (fun x => x.1 == k)

/-- The captured content of a descriptor. -/
def Env.desc (e : Env) (k : BitVec 5) : Desc := capturedAt e.p.descs k

/-- The parts of a run of bits in words: word address, lowest bit in the word, number of bits, offset in the value (R52). -/
def partsOf (ply bit0 n : Nat) : List (Nat × Nat × Nat × Nat) :=
  let off := plyOffset ply
  let start := 12 * off + bit0
  let k0 := start / 72
  (List.range ((start + n - 1) / 72 - k0 + 1)).map (fun j =>
    let k := k0 + j
    let lo := if start ≤ 72 * k then 72 * k else start
    let hi := if start + n ≤ 72 * (k + 1) then start + n else 72 * (k + 1)
    (ply - off + 6 * k, lo - 72 * k, hi - lo, lo - start))

/-- The group's word at `wb`: fetched once, checked, its refusal noted when an active element uses it (R32, R93, R273). -/
def Run.word (e : Env) (r : Run) (wb : Nat) (active : Bool) (d : Nat) : Option Word × Run :=
  match r.cache.find wb with
  | some w => (some w, r)
  | none =>
    match checkPump r.s e.who wb .read with
    | (.ok, s1) =>
      let x := readWord s1 wb e.who.master
      (some x.1, { r with s := x.2, cache := r.cache.insert wb x.1 })
    | (.held, _) => (none, { r with stop := some .held })
    | (.refused, s1) => if active then (none, { r with s := countFailure s1 }.fail 1 d) else (none, r)

/-- The value of a run of bits, with the results that lower elements of the group have left there (R237), and its poison
(R58): plies that lower elements have written are not read from memory, so their word is neither fetched nor checked for them, and its
poison stays with its other plies (log 130). A masked-off element of a refused word gives a free value and takes no poison (R273). A ply taken from a lower element comes poisoned where another such
element has poisoned its word (DEDUCED, log 178). -/
def Run.readBits (e : Env) (r : Run) (loc : Int × Nat × Nat) (active : Bool) (d : Nat) : Lane × Run :=
  if loc.1 < 0 then ({}, if active then r.fail 1 d else r)
  else
    (partsOf loc.1.toNat loc.2.1 loc.2.2).foldl (fun x q =>
      let o := x.2.outs.get q.1 {}
      let mine : Word72 := (BitVec.ofNat 72 (2 ^ q.2.2.1 - 1)) <<< q.2.1
      let part := fun v : Word72 => (v.toNat / 2 ^ q.2.1 % 2 ^ q.2.2.1) * 2 ^ q.2.2.2
      if o.mask &&& mine = mine then ({ v := x.1.v + part o.data, p := x.1.p || (o.poison && active) }, x.2)
      else match x.2.word e q.1 active d with
      | (none, r1) =>
        (({ v := x.1.v + (Config.spliceNat e.p.id q.1 q.2.1 % 2 ^ q.2.2.1) * 2 ^ q.2.2.2, p := x.1.p } : Lane), r1)
      | (some w, r1) =>
        let v : Word72 := (w.data &&& ~~~o.mask) ||| (o.data &&& o.mask)
        let p := w.poison || (o.poison && (e.p.ordered || (o.mask &&& mine) != 0))
        (({ v := x.1.v + part v, p := x.1.p || (p && active) } : Lane), r1))
      (({} : Lane), r)

/-- One element to be written: where, its value and poison, the destination's DESC, and whether it is active under its mask. -/
structure Put where
  loc : Int × Nat × Nat
  lane : Lane
  desc : Nat
  act : Bool

/-- The write check of the words of an element (R115, R176); a refusal is counted once for each word. The refusal of a word in which only
masked-off elements have been written has no effect (R273). -/
def Run.mayPut (e : Env) (r : Run) (q : Put) : Run :=
  if q.loc.1 < 0 then (if q.act then r.fail 1 q.desc else r)
  else
    (partsOf q.loc.1.toNat q.loc.2.1 q.loc.2.2).foldl (fun x y =>
      match x.writable.find y.1 with
      | some true => x
      | some false => if q.act then x.fail 1 q.desc else x
      | none =>
        match checkPump x.s e.who y.1 .write with
        | (.ok, s1) => { x with s := s1, writable := x.writable.insert y.1 true }
        | (.held, _) => { x with stop := some .held }
        | (.refused, s1) =>
          if q.act then { x with s := countFailure s1, writable := x.writable.insert y.1 false }.fail 1 q.desc
          else { x with s := s1 }) r

/-- The element's bits are placed in the words that pass (R116, R238). -/
def Run.place (r : Run) (q : Put) : Run :=
  if q.loc.1 < 0 then r
  else
    (partsOf q.loc.1.toNat q.loc.2.1 q.loc.2.2).foldl (fun x y =>
      if x.writable.get y.1 false then
        let o := x.outs.get y.1 {}
        let m : Word72 := (BitVec.ofNat 72 (2 ^ y.2.2.1 - 1)) <<< y.2.1
        let d : Word72 := (BitVec.ofNat 72 (q.lane.v / 2 ^ y.2.2.2 % 2 ^ y.2.2.1)) <<< y.2.1
        { x with outs := x.outs.insert y.1 (Over.mk (o.mask ||| m) ((o.data &&& ~~~m) ||| d) (o.poison || q.lane.p)) }
      else x) r

/-- The operand in a field at element `i`: a chained result, or an element of its descriptor (R268). -/
def Run.operand (e : Env) (r : Run) (x : SIns) (role : Role) (i : Nat) (results : List Lane) (active : Bool) : Lane × Run :=
  match x.key role with
  | some k => r.readBits e ((e.desc k).locate i) active (e.descIndex k)
  | none =>
    match x.link role with
    | some j =>
      let l := results.getD j {}
      ({ l with p := l.p && active }, r)
    | none => ({}, r)

/-- What an instruction writes at element `i` of its destination, if it names one. -/
def Env.put (e : Env) (x : SIns) (i : Nat) (l : Lane) (act : Bool := true) : List Put :=
  match x.key .d with
  | some k => [{ loc := (e.desc k).locate i, lane := l, desc := e.descIndex k, act }]
  | none => []

/-- The flags that an element operation of type `t` can raise (R64, R285, R291, R294). -/
def raisable (o : ElemOp) (t : BitVec 4) : FFlags :=
  match o with
  | .and | .or | .xor | .andn | .shl | .shr | .sar | .sel | .mov | .abs | .neg => 0
  | .div | .rem => if isFloat t then 31 else flagDZ
  | .cvt _ _ => 31
  | _ => if isFloat t then 31 else 0

/-- Status and flags that a result contributes (R251, R290). The spec states no value for a poisoned operand, so the flags,
of those in `can`, and the saturation, where SAT asks for one, that a poisoned result contributes are free (log 17), the same for
element `i` of instruction `q` in every run of the splice (R250). -/
def Run.note (e : Env) (i q : Nat) (r : Run) (fl : FFlags) (sat poison : Bool) (can : FFlags := 0) (clamp : Bool := false) : Run :=
  let n := Config.poisonNote e.p.id i q
  if poison then
    { r with
      fl := r.fl ||| (bits n 0 5 &&& can)
      st := r.st ||| (if clamp && bit n 5 then 0x10 else 0) ||| 4 }
  else { r with fl := r.fl ||| fl, st := r.st ||| (if sat then 0x10 else 0) }

/-- The type with which an index operand is read (R270). -/
def Env.indexType (e : Env) (x : SIns) : BitVec 4 := (operandType e.ins e.p.descs x .b).getD 0

/-- The index of an operand's descriptor in field SA or DST, for a RANGE failure (R253). -/
def Env.roleIndex (e : Env) (x : SIns) (r : Role) : Nat := ((x.key r).map e.descIndex).getD 0

/-- The element count that bounds an index (R289). -/
def Env.bound (e : Env) (x : SIns) (r : Role) : Nat :=
  match x.key r with
  | some k => if (e.desc k).constant then e.n else (e.desc k).len
  | none => e.n

/-- A selector or mask position depends on a poisoned selector bit (R275). -/
def Run.shaky (r : Run) : Bool := r.tainted.contains 16

/-- The result of an instruction at an element that fails, and a chained stream past its group, of which the spec states no value: free
(DESIGN CHOICE, log 172). -/
def Env.unread (e : Env) (i q : Nat) : Lane := { v := Config.spliceNat e.p.id i q % 2 ^ 48 }

/-- Active element `i` of an instruction other than an extension: its result, what it writes, the group after it. An access that a refused
selector or index would decide is not made (DEDUCED, log 171). -/
def Run.active (e : Env) (r0 : Run) (q : Nat) (x : SIns) (i : Nat) (results : List Lane) (mp : Bool) : Lane × List Put × Run :=
  match x.op with
  | .elem o =>
    let a := r0.operand e x .a i results true
    let b := a.2.operand e x .b i results true
    let c := b.2.operand e x .c i results true
    let out := elemOp o x.f.ot x.f.sat e.md a.1.v b.1.v c.1.v
    let l : Lane := { v := out.v, p := mp || a.1.p || b.1.p || c.1.p }
    (l, e.put x i l, c.2.note e i q out.fl out.sat l.p (raisable o x.f.ot) x.f.sat)
  | .red o aw =>
    let a := r0.operand e x .a i results true
    let b := a.2.operand e x .b i results true
    let t := o.acc x.f.ot aw
    let out := redTerm o x.f.ot t x.f.sat e.md (b.2.acc.getD (i % 16) none) a.1.v b.1.v
    let p := mp || a.1.p || b.1.p
    let r1 := { b.2 with
      acc := b.2.acc.set (i % 16) (some out.v)
      tainted := if p then i % 16 :: b.2.tainted else b.2.tainted }
    ({}, [], r1.note e i q out.fl out.sat p (if isFloat t then 31 else 0) x.f.sat)
  | .compress =>
    let c := r0.operand e x .c i results true
    if c.2.stop.isSome then (e.unread i q, [], c.2)
    else if c.1.v % 2 = 1 ∨ c.1.p then
      let a := c.2.operand e x .a i results true
      let r1 := { a.2 with
        taken := a.2.taken + 1
        tainted := if c.1.p then 16 :: a.2.tainted else a.2.tainted }
      let l : Lane := { v := a.1.v, p := a.1.p || r1.shaky }
      (l, e.put x a.2.taken l, r1.note e i q 0 false l.p)
    else ({}, [], c.2)
  | .expand merge =>
    let c := r0.operand e x .c i results true
    if c.2.stop.isSome then (e.unread i q, [], c.2)
    else if c.1.v % 2 = 1 ∨ c.1.p then
      let a := c.2.operand e x .a c.2.taken results true
      let r1 := { a.2 with
        taken := a.2.taken + 1
        tainted := if c.1.p then 16 :: a.2.tainted else a.2.tainted }
      let l : Lane := { v := a.1.v, p := a.1.p || r1.shaky }
      (l, e.put x i l, r1.note e i q 0 false l.p)
    else if merge then ({}, [], c.2) else ({}, e.put x i {}, c.2)
  | .perm =>
    let b := r0.operand e x .b i results true
    let j := 64 * (i / 64) + (valOf (e.indexType x) b.1.v % 64).toNat
    if b.2.stop.isSome then (e.unread i q, [], b.2)
    else if e.n ≤ j then (e.unread i q, [], b.2.fail 2 (e.roleIndex x .a))
    else
      let a := b.2.operand e x .a j results true
      let l : Lane := { v := a.1.v, p := mp || a.1.p || b.1.p }
      (l, e.put x i l, a.2.note e i q 0 false l.p)
  | .gather =>
    let b := r0.operand e x .b i results true
    let k := valOf (e.indexType x) b.1.v
    if b.2.stop.isSome then (e.unread i q, [], b.2)
    else if k < 0 ∨ (e.bound x .a : Int) ≤ k then (e.unread i q, [], b.2.fail 2 (e.roleIndex x .a))
    else
      let a := b.2.operand e x .a k.toNat results true
      let l : Lane := { v := a.1.v, p := mp || a.1.p || b.1.p }
      (l, e.put x i l, a.2.note e i q 0 false l.p)
  | .scatter =>
    let b := r0.operand e x .b i results true
    let k := valOf (e.indexType x) b.1.v
    let a := b.2.operand e x .a i results true
    if b.2.stop.isSome then ({}, [], a.2)
    else if k < 0 ∨ (e.bound x .d : Int) ≤ k then ({}, [], a.2.fail 2 (e.roleIndex x .d))
    else
      let l : Lane := { v := a.1.v, p := mp || a.1.p || b.1.p }
      ({}, e.put x k.toNat l, a.2.note e i q 0 false l.p)
  | .ext _ => ({}, [], r0)

/-- The mask bit of element `k` for an instruction, a poisoned one active (R275): read with no effect. -/
def Run.maskBit (e : Env) (r : Run) (x : SIns) (k : Nat) (results : List Lane) : Bool :=
  let m := (Run.operand e { r with stop := none } x .m k results true).1
  x.f.msk == 0 || m.v % 2 == 1 || m.p

/-- The mask bits of a group for an instruction (R458). -/
def maskLanes (e : Env) (r : Run) (x : SIns) (group : List (List Lane)) : List Bool :=
  (List.range e.width).map (fun j => r.maskBit e x (e.lo + j) (group.map (fun (l : List Lane) => l.getD j {})))

/-- The operands SA, SB and SC of an extension instruction at element `k`; SA at the index in SB when INDEX is declared (R462), but at `k` for
an element that is not active under the mask, whose index addresses nothing (R272, R308). The element is used when `mine`. -/
def Run.streams (e : Env) (r : Run) (x : SIns) (k : Nat) (results : List Lane) (mine act : Bool) : (Lane × Lane × Lane) × Run :=
  let b := r.operand e x .b k results mine
  let a :=
    if bit (x.entry r.s) 42 && act then
      let idx := valOf (e.indexType x) b.1.v
      if b.2.stop.isSome then (e.unread k 0, b.2)
      else if idx < 0 ∨ (e.bound x .a : Int) ≤ idx then (e.unread k 0, if mine then b.2.fail 2 (e.roleIndex x .a) else b.2)
      else b.2.operand e x .a idx.toNat results mine
    else b.2.operand e x .a k results (mine && (act || !bit (x.entry r.s) 42))
  let c := a.2.operand e x .c k results mine
  ((a.1, b.1, c.1), c.2)

/-- Element `i` of an extension instruction: its group routine on the lanes of the group, of which lane `i` counts. `group`
holds the results of the earlier instructions on every lane; of a chained stream that SADV has advanced past its group the lanes are free
(log 172). A routine that sends nothing to the destination stream has a free result. -/
def Run.extension (e : Env) (r0 : Run) (q : Nat) (x : SIns) (i : Nat) (results : List Lane) (group : List (List Lane))
    (act mp : Bool) : Lane × List Put × Run :=
  let path := e.paths.getD q []
  let used := act || maskless path
  let own := r0.streams e x i results used act
  let j := i - e.lo
  let mask := (maskLanes e r0 x group).set j act
  let mine := fun k : Nat => decide (k < e.lo + e.width)
  let resultsAt := fun k : Nat => group.mapIdx (fun n (l : List Lane) => if mine k then l.getD (k - e.lo) {} else e.unread k n)
  let actAt := fun k : Nat => if mine k then mask.getD (k - e.lo) true else own.2.maskBit e x k (resultsAt k)
  let peek := fun k : Nat =>
    if k = i then own.1
    else if k < e.n then (Run.streams e { own.2 with stop := none } x k (resultsAt k) true (actAt k)).1
    else ({}, {}, {})
  let lanesOf := fun (n ahead : Nat) => (List.range e.width).map (fun m =>
    let l := peek (e.lo + 64 * ahead + m)
    if n = 0 then l.1 else if n = 1 then l.2.1 else l.2.2)
  let y := routine e.md lanesOf mask (x.f.msk == 2) (Config.spliceNat e.p.id i) path
  let r2 := if y.bad.getD j false then own.2.fail 2 (e.roleIndex x .a) else own.2
  let sent := fun k : Nat => ((y.outs.get k []).getD j (({ v := Config.spliceNat e.p.id i q % 2 ^ typeBits x.f.ot } : Lane), false))
  let l : Lane := { v := (sent 0).1.v, p := (sent 0).1.p || (mp && used) }
  match y.red with
  | some (o, aw, t, sat, masked, a, b) =>
    if act || !masked then
      let out := redTerm o t (o.acc t aw) sat e.md (r2.acc.getD (i % 16) none) (a.getD j {}).v (b.getD j {}).v
      let p := mp || (a.getD j {}).p || (b.getD j {}).p
      (l, [], ({ r2 with
        acc := r2.acc.set (i % 16) (some out.v)
        tainted := if p then i % 16 :: r2.tainted else r2.tainted }.note e i q out.fl out.sat p 31 sat).note e i q (y.fl.getD j 0)
          (y.sat.getD j false) false)
    else (l, [], r2.note e i q (y.fl.getD j 0) (y.sat.getD j false) false)
  | none =>
    let puts := y.outs.entries.flatMap (fun z =>
      let w := sent z.1
      if w.2 && decide (i + 64 * z.1 < e.n) then
        e.put x (i + 64 * z.1) { v := w.1.v, p := w.1.p || (mp && used) } used
      else [])
    (l, puts, r2.note e i q (y.fl.getD j 0) (y.sat.getD j false) (used && l.p) 31 x.f.sat)

/-- Element `i` of instruction number `q` (R272, R273, R275). The chained result of a masked-off element in merge mode is element `i` of
operand A as its bits stand, also where the result type differs from A's (DESIGN CHOICE, log 152). -/
def Run.instruction (e : Env) (r0 : Run) (q : Nat) (x : SIns) (i : Nat) (results : List Lane) (group : List (List Lane)) :
    Lane × List Put × Run :=
  let m := r0.operand e x .m i results true
  let act : Bool := x.f.msk == 0 || m.1.v % 2 == 1 || m.1.p
  let mp := x.f.msk != 0 && m.1.p
  if m.2.stop.isSome then (e.unread i q, [], m.2)
  else match x.op with
  | .ext _ => m.2.extension e q x i results group act mp
  | _ =>
    if act then m.2.active e q x i results mp
    else match x.op with
      | .red _ _ => ({}, [], m.2)
      | .scatter => ({}, [], m.2)
      | _ =>
        if x.f.msk = 2 then ({}, e.put x i {} false, m.2)
        else
          let a := m.2.operand e x .a i results false
          ({ a.1 with p := false }, [], a.2)

/-- The operand fields whose values decide which other accesses an instruction makes: its mask, selector and index. -/
def SIns.deciding (x : SIns) (s : State) : List Role :=
  (if x.f.msk = 0 then [] else [.m]) ++
  (match x.op with
  | .perm | .gather | .scatter => [.b]
  | .compress | .expand _ => [.c]
  | .ext _ => if bit (x.entry s) 42 then [.b] else []
  | _ => [])

/-- One of some fields of an instruction chains the result of an instruction that has none (`lost`). -/
def SIns.chainsTo (x : SIns) (lost : List Bool) (roles : List Role) : Bool :=
  roles.any (fun r => match x.link r with | some j => lost.getD j false | none => false)

/-- The instructions of a splice at element `i`, in chain order: what they write, the group after them. All that fail at the element are met
(R253); `lost` tells the instructions without a result, by a failure of theirs or of one that they chain, and an instruction whose mask,
selector or index chains one of them makes no access (DEDUCED, log 171). -/
def Run.chain (e : Env) (i : Nat) (group : List (List Lane)) :
    List SIns → Nat → List Lane → List Bool → List Put → Run → List Put × Run
  | [], _, _, _, puts, r => (puts, r)
  | x :: t, q, results, lost, puts, r =>
    if r.stop = some .held then (puts, r)
    else if x.chainsTo lost (x.deciding r.s) then Run.chain e i group t (q + 1) (results ++ [e.unread i q]) (lost ++ [true]) puts r
    else
      let y := Run.instruction e { r with stop := none } q x i results group
      Run.chain e i group t (q + 1) (results ++ [y.1]) (lost ++ [y.2.2.stop.isSome || x.chainsTo lost [.a, .b, .c, .m]]) (puts ++ y.2.1)
        (y.2.2.after r.stop)

/-- Element `i`: read, computed, checked, and placed when nothing fails; a straddling write that fails its check in part
places the words that pass (R116). The writes of an element of which a read has failed are not checked (DEDUCED, log 171). -/
def Run.element (e : Env) (group : List (List Lane)) (r0 : Run) (i : Nat) : Run :=
  let r := { r0 with fl := 0, st := 0, stop := none }
  let y := Run.chain e i group e.ins 0 [] [] [] r
  match y.2.stop with
  | some _ => { y.2 with acc := r0.acc, tainted := r0.tainted, taken := r0.taken }
  | none =>
    let r1 := y.1.foldl (fun z q => z.mayPut e q) y.2
    let r2 := if r1.stop = some .held then r1 else y.1.foldl Run.place r1
    if r2.stop.isSome then { r2 with acc := r0.acc, tainted := r0.tainted, taken := r0.taken } else r2

/-- The results of every instruction on every lane of a group, for the routines of extension instructions: computed on
the words as they stand, with no effect. -/
def groupLanes (e : Env) (r : Run) : List (List Lane) :=
  if e.ins.any (fun x => match x.op with | .ext _ => true | _ => false) then
    (e.ins.foldl (fun (x : List (List Lane) × Nat) y =>
      let lanes := (List.range e.width).map (fun j =>
        let results := x.1.map (fun l => l.getD j {})
        ({ r with stop := none }.instruction e x.2 y (e.lo + j) results x.1).1)
      (x.1 ++ [lanes], x.2 + 1)) ([], 0)).1
  else []

/-- The words of a group go to their targets (R55, R147). -/
def commit (s : State) (e : Env) (outs : Tab Over) : State :=
  outs.entries.foldl (fun t x =>
    if x.2.mask = 0 then t
    else if x.2.poison then writePoison t x.1
    else writeMasked t x.1 x.2.mask x.2.data e.who.master) s

/-- Where a run of a splice ended: an element, a cause of R253, a DESC, and the status bits of every cause there (R251). -/
structure Ended where
  elem : Nat
  cause : BitVec 3
  desc : Nat
  causes : BitVec 24 := causeBit cause
deriving DecidableEq, Repr

/-- A splice after a stretch of its run; `held` when an access of it waits, so that nothing of the stretch happens. -/
structure Progress where
  s : State
  p : Splice
  ended : Option Ended := none
  held : Bool := false

/-- The words of the vendor's microwords, and the page-mode word, that the built-in instructions of a splice reach in the group that begins at
`lo`: one that does not read clean is corrected or repaired (R472, R473), and the first that is poisoned is answered (R474). The path of vendor
microcode is not published, so which it reaches is free (log 140). An extension instruction reaches what its own path does. -/
def vendorWords (s : State) (id lo : Nat) (ins : List SIns) (master : Byte) : Option Nat × State :=
  let own := (List.range ins.length).filter (fun q => match ins[q]? with | some x => (match x.op with | .ext _ => false | _ => true) | none => false)
  reachWords false master (fun k t => (own.any (fun q => Config.vendorReach id q lo k), t)) (damaged s 0x50000000 (0x50000000 + 16 * 12224)) s

/-- The paths of the extension instructions of a group; whether one reaches a poisoned word (R460, R474). -/
def groupPaths (s : State) (e : Env) : List (List (BitVec 192)) × Bool × State :=
  e.ins.foldl (fun x y =>
    match y.op with
    | .ext _ =>
      let e1 := { e with paths := x.1 }
      let r : Run := { s := x.2.2, acc := [] }
      let group := groupLanes { e1 with ins := e.ins.take x.1.length } r
      let act := maskLanes e1 r y group
      let c : Conds := { last := decide (e.n ≤ e.lo + e.width), none := act.all (fun b => !b), all := act.all id, fn := y.fn }
      let t := microPath c e.who.master 64 x.2.2 (bits (y.entry x.2.2) 0 14).toNat []
      (x.1 ++ [t.1], x.2.1 || t.2.1, t.2.2)
    | _ => (x.1 ++ [[]], x.2)) ([], false, s)

/-- Status bits of flags (R251). -/
def flagBits (fl : FFlags) : BitVec 24 := (fl.setWidth 24) <<< 10

/-- The elements of a group, ascending: those before the first that fails contribute status; later ones of an overlap-free
group may be written (R252). Accumulates the run, the status and the end. -/
def groupElements (e : Env) (group : List (List Lane)) (pick : BitVec 64) :
    List Nat → Run → BitVec 24 → Option Ended → Run × BitVec 24 × Option Ended
  | [], r, st, z => (r, st, z)
  | i :: t, r, st, some z =>
    if e.p.ordered ∨ ¬ bit pick (i % 64) then groupElements e group pick t r st (some z)
    else
      let y := r.element e group i
      groupElements e group pick t { y with acc := r.acc, tainted := r.tainted, taken := r.taken } st (some z)
  | i :: t, r, st, none =>
    let y := r.element e group i
    match y.stop with
    | some .held => (y, st, none)
    | some (.fail c d b) => groupElements e group pick t y st (some ⟨i, c, d, b⟩)
    | none => groupElements e group pick t y (st ||| y.st ||| flagBits y.fl) none

/-- The pump's accessor for a splice (R31, R114). -/
def spliceWho (p : Splice) (pump : Nat) : Who :=
  if p.core = 4 then { code := 8, safety := true, sup := true, master := BitVec.ofNat 8 pump }
  else { code := p.owner, safety := p.safety, sup := p.sup, master := BitVec.ofNat 8 pump }

/-- A splice's environment for the group that begins at its next element. -/
def groupEnv (s : State) (p : Splice) (pump : Nat) : Env :=
  let n := p.count s
  { p, ins := p.instrs, who := spliceWho p pump, n, md := { rm := p.rm, ftz := p.ftz, daz := p.daz }, lo := p.elem,
    width := if n ≤ p.elem + 64 then n - p.elem else 64, paths := [] }

/-- One group of a splice; a poisoned microword that it reaches ends it, and its use is logged (R165, R474). -/
def runGroup (g : Progress) (pump : Nat) : Progress :=
  let e0 := groupEnv g.s g.p pump
  let d := readEntries g.s e0.ins e0.who.master
  let w :=
    if d.1 then ([], true, microUsed d.2 (e0.ins.flatMap (fun x => plyKeys (dispatchPly x.opc.toNat) 4)) e0.who.master)
    else match vendorWords d.2 g.p.id g.p.elem e0.ins e0.who.master with
      | (some k, t) => ([], true, poisonUsed t k false e0.who.master)
      | (none, t) => groupPaths t e0
  if w.2.1 then { g with s := w.2.2, ended := some { elem := g.p.elem, cause := 4, desc := 0 } }
  else
    let e := { e0 with paths := w.1 }
    let r : Run := {
      s := w.2.2
      acc := g.p.acc.map (fun a => a.map BitVec.toNat)
      tainted := g.p.tainted
      taken := g.p.taken }
    let y := groupElements e (groupLanes e r) (Config.lateElements g.p.id e.lo) (List.range' e.lo e.width) r 0 none
    if y.1.stop = some .held then { g with held := true }
    else
      { s := commit y.1.s e y.1.outs
        p := { g.p with
          elem := match y.2.2 with | some z => z.elem | none => e.lo + e.width
          status := g.p.status ||| y.2.1
          acc := y.1.acc.map (fun a => a.map (BitVec.ofNat 48))
          tainted := y.1.tainted.dedup
          taken := y.1.taken }
        ended := y.2.2 }

/-- The REDUCE/DOT instruction of a splice: its operation, accumulator type, SAT, the descriptor of its result and of its
initial value. For an extension instruction they stand in the slot that its routine hands to REDUCE/DOT. -/
def reduction (s : State) (e : Env) : Option (RedOp × BitVec 4 × Bool × Option (BitVec 5) × Option (BitVec 5)) :=
  (e.ins.findSome? (fun x =>
    match x.op with
    | .red o aw => some (o, o.acc x.f.ot aw, x.f.sat, x.key .d, x.key .c)
    | .ext _ =>
      if bit (x.entry s) 20 then
        let c : Conds := { last := true, none := false, all := true, fn := x.fn }
        let y := routine e.md (fun _ _ => [{}]) [true] false (fun _ => 0)
          (microPath c e.who.master 64 s (bits (x.entry s) 0 14).toNat []).1
        y.red.map (fun z => (z.1, z.1.acc z.2.2.1 z.2.1, z.2.2.2.1, x.key .d, none))
      else none
    | _ => none))

/-- The result of a reduction, element n of the splice, after its last group (R238, R249, R282). -/
def reduce (g : Progress) (pump : Nat) : Progress :=
  let e := groupEnv g.s g.p pump
  match reduction g.s e with
  | none => g
  | some (o, t, sat, dst, ini) =>
    let r0 : Run := { s := g.s }
    let i := match ini with
      | some k => let y := r0.readBits e ((e.desc k).locate 0) true (e.descIndex k); (some y.1, y.2)
      | none => (none, r0)
    let out := redResult o t sat e.md (g.p.acc.map (fun a => a.map BitVec.toNat)) (i.1.map (fun l => l.v))
    let p := g.p.tainted.any (fun k => decide (k < 16)) || i.1.any (fun l => l.p)
    let puts : List Put := match dst with
      | some k => [{ loc := (e.desc k).locate 0, lane := { v := out.v, p }, desc := e.descIndex k, act := true }]
      | none => []
    let r1 := if i.2.stop.isSome then i.2 else puts.foldl (fun z q => z.mayPut e q) i.2
    match r1.stop with
    | some .held => { g with held := true }
    | some (.fail c d b) => { g with s := r1.s, ended := some ⟨e.n, c, d, b⟩ }
    | none =>
      let r2 := (puts.foldl Run.place r1).note e e.n 0 out.fl out.sat p (if isFloat t then 31 else 0) sat
      { g with
        s := commit r2.s e r2.outs
        p := { g.p with status := g.p.status ||| flagBits r2.fl ||| r2.st } }

/-- Groups of a splice, until `limit` elements are done, it ends, or an access is held. -/
def runGroups (pump limit : Nat) : Nat → Progress → Progress
  | 0, g => g
  | k + 1, g =>
    if g.ended.isSome ∨ g.held ∨ limit ≤ g.p.elem then g else runGroups pump limit k (runGroup g pump)

/-- A splice runs on a pump to element `limit`, or to its end when that is n. -/
def runTo (s : State) (p : Splice) (pump limit : Nat) : Progress :=
  let g := runGroups pump limit (limit / 64 + 1) { s, p }
  if g.ended.isSome ∨ g.held ∨ limit < p.count s then g else reduce g pump

/-- A group boundary that a running splice may have reached: at least `least` groups after its next element and, unless
`whole`, before its end, drawn freely where the spec does not fix how far the pump has come (log 1); the beginning of the last group where
fewer groups than that are left. -/
def boundary (s : State) (p : Splice) (least : Nat) (whole : Bool := true) : Nat × State :=
  let n := p.count s
  let groups := (n - p.elem + 63) / 64
  let d := drawNat s
  let k := if groups + cond whole 1 0 ≤ least then groups - 1 else least + d.1 % (groups + cond whole 1 0 - least)
  (if n ≤ p.elem + 64 * k then n else p.elem + 64 * k, d.2)

end Sys2Proof.Machine
end

