-- ==== Sys2Proof/Machine/Pumps.lean ====
section
/-! DEFINITION. Pumps and the dispatcher: the ending of splices (R251 to R253), choice and acceptance (R225 to R229), preemption,
records and resumption (R228, R246 to R248), pump faults and the lifeline pump (R254, R256), kills (R257), and writes to the
PMP_ and SPL_ registers (R261, R263). -/

namespace Sys2Proof.Machine

/-- A write judged by R19 first: registers whose fields are RWS. -/
def storeOnce (s : State) (r : Rg) (v : Reg24) : Written := judge [(writtenOnce s r v, .writtenOnce)] (store s r v)

/-! Status registers (R260, R262). -/

/-- STATE of PMP_STAT_i: 0 idle, 1 running, 2 saving, 3 failed. -/
def pumpState (s : State) (i : Nat) : BitVec 2 := rdF s (.pmpStat i) 0 2

/-- PMP_STAT_i shows a state and the splice on the pump; a failed pump stays failed (R254). -/
def showPump (s : State) (i : Nat) (st : BitVec 2) (p : Option Splice) : State :=
  if pumpFailed s i then s
  else
    let ll := ofBool 24 (rdB s (.pmpStat i) 2) <<< 2
    match p with
    | none => wr s (.pmpStat i) (ll ||| 0x7F0 ||| st.setWidth 24)
    | some q => wr s (.pmpStat i) (ll ||| st.setWidth 24 ||| (ofBool 24 q.ordered <<< 3) |||
        (q.owner.setWidth 24 <<< 4) ||| (BitVec.ofNat 24 q.core <<< 8) ||| (BitVec.ofNat 24 q.bank <<< 11))

/-- SPL_STAT_i, SPL_ELEML_i and SPL_ELEMH_i show a status, an element and a sequence number (R262). -/
def showRun (s : State) (i : Nat) (x : BitVec 24 × Nat × BitVec 12) : State :=
  wr (wr (wr s (.splStat i) x.1) (.splEleml i) (BitVec.ofNat 24 x.2.1))
    (.splElemh i) (BitVec.ofNat 24 (x.2.1 / 2 ^ 24 % 2 ^ 12) ||| (x.2.2.setWidth 24 <<< 12))

/-- They describe the splice that runs on pump `i` (R262). -/
def showSplice (s : State) (i : Nat) (p : Splice) : State := showRun s i (p.status, p.elem, p.seq)

/-- They describe the last splice that ended on pump `i`, which a saved one has not (R262). -/
def showLast (s : State) (i : Nat) : State := showRun s i (s.splices.last.get i (0, 0, 0))

/-- A splice has ended on pump `i` with a status (R262). -/
def showEnded (s : State) (i : Nat) (p : Splice) (status : BitVec 24) : State :=
  let x := (status, p.elem, p.seq)
  showRun { s with splices := { s.splices with last := s.splices.last.insert i x } } i x

/-- A splice takes a new value in the list. -/
def putSplice (s : State) (p : Splice) : State :=
  { s with splices := { s.splices with list := s.splices.list.map (fun q => if q.id = p.id then p else q) } }

/-- A splice leaves the list; its range registers are free (R240). -/
def dropSplice (s : State) (p : Splice) : State :=
  { s with splices := { s.splices with list := s.splices.list.filter (fun q => q.id != p.id) } }

/-! Endings (R251 to R253). -/

/-- The vector fault record of an ending (R253). -/
def faultRecord (p : Splice) (cause : BitVec 3) (d : Nat) : Word72 :=
  let vd := ((p.descs[d]?).map (fun x => x.1.toNat % 16)).getD 0
  let named := cause = 1 ∨ cause = 2
  BitVec.ofNat 72 (p.elem % 2 ^ 36 + p.seq.toNat * 2 ^ 36 + (if named then d % 8 * 2 ^ 48 + vd * 2 ^ 51 else 0) +
    cause.toNat * 2 ^ 55 + 2 ^ 58)

/-- The bank that holds a context, if any does. -/
def bankOfCid (s : State) (c cid : Nat) : Option Nat :=
  (List.range (if c = 4 then 1 else 32)).find? (fun b => (ctxAt s (ctxKey c b)).cid == cid)

/-- A fault record reaches the VFR of its context, or waits for the context to have a bank (R253, log 41). -/
def writeVfr (s : State) (p : Splice) (v : Word72) : State :=
  match bankOfCid s p.core p.cid with
  | some b => setCtxAt s (ctxKey p.core b) { ctxAt s (ctxKey p.core b) with vfr := v }
  | none => setTrail s p.cid { trailOf s p.cid with record := some v }

/-- The status of a splice is final, with the bit of its cause and of the other `causes` that failed at its last element: its context's trail
and VFR take it, its pump is idle, its ranges are free (R240, R244, R251, R253). -/
def endSplice (s : State) (p : Splice) (pump : Option Nat) (cause : BitVec 3) (d : Nat) (causes : BitVec 24 := 0) : State :=
  let status := p.status ||| 1 ||| causeBit cause ||| causes
  let t := trailOf s p.cid
  let first := cause != 0 && !t.taken
  let s1 := setTrail s p.cid { t with
    ended := t.ended ||| status
    count := BitVec.ofNat 24 (satAdd 16777215 t.count.toNat 1)
    taken := t.taken || cause != 0 }
  let s2 := if first then writeVfr s1 p (faultRecord p cause d) else s1
  let s3 := dropSplice s2 p
  match pump with
  | some i => showPump (showEnded s3 i p status) i 0 none
  | none => s3

/-- What a stretch of a run has come to: held, ended by a cause, complete, or still to go on. -/
def settle (s : State) (g : Progress) (pump : Nat) (goOn : State → Splice → State) : State :=
  if g.held then s
  else match g.ended with
    | some z => endSplice g.s { g.p with elem := z.elem } (some pump) z.cause z.desc z.causes
    | none => if g.p.count g.s ≤ g.p.elem then endSplice g.s g.p (some pump) 0 0 else goOn g.s g.p

/-! Choice and acceptance (R225 to R229). -/

/-- A shared pump that has not failed. -/
def sharedPump (s : State) (i : Nat) : Bool := !isLifelinePump s i && !pumpFailed s i

/-- A pump that can take a splice: idle and not frozen (R227, R608). -/
def idlePump (s : State) (i : Nat) : Bool := pumpState s i == 0 && !frozen s i

/-- The number of pumps that run splices of an owner code: H (R227); one that still saves a splice runs none (DESIGN CHOICE, log 147). -/
def running (s : State) (o : OwnerCode) : Nat :=
  (s.splices.list.filter (fun p => p.core != 4 && p.owner == o && (match p.phase with | .running _ => true | _ => false))).length

/-- The active owner codes, ascending (R226). -/
def activeCodes (s : State) : List OwnerCode :=
  ((List.range 8).map (BitVec.ofNat 4)).filter (fun o => s.splices.list.any (fun p => p.core != 4 && p.owner == o))

/-- The weight of an owner code over a denominator common to all partitions (R226). -/
def weightNat (s : State) (o : OwnerCode) : Nat :=
  (weightOf s o).1 * ((List.range 4).filter (fun p => p != codePart o)).foldl (fun a p => a * (weightOf s (ownerCode p false)).2) 1

/-- The sum of the weights of the active codes. -/
def weightSum (s : State) : Nat := ((activeCodes s).map (weightNat s)).sum

/-- P of R226. -/
def sharedPumps (s : State) : Nat := ((List.range 16).filter (sharedPump s)).length

/-- Code `a` is chosen before code `b`: the smaller H / w, then the lower code (R227); a code whose weight has become 0 after its splices were
issued comes after every code with weight (DESIGN CHOICE, log 144). -/
def before (s : State) (a b : OwnerCode) : Bool :=
  let x := running s a * weightNat s b
  let y := running s b * weightNat s a
  if weightNat s a = 0 then weightNat s b == 0 && a.toNat < b.toNat
  else weightNat s b == 0 || x < y || (x == y && a.toNat < b.toNat)

/-- The best of a list under a relation, the earlier of equals. -/
def best {α : Type} (lt : α → α → Bool) : List α → Option α
  | [] => none
  | x :: t => some (t.foldl (fun b y => if lt y b then y else b) x)

/-- A saved splice. -/
def Splice.isSaved (p : Splice) : Bool := match p.phase with | .saved _ => true | _ => false

/-- Within an owner code: saved splices first, oldest preemption first, then waiting ones in order of issue (R227). A preemption is dated by
the instant at which the pump receives it (R246; DEDUCED, log 145). -/
def sooner (p q : Splice) : Bool :=
  if p.isSaved then !q.isSaved || p.stamp < q.stamp else !q.isSaved && p.id < q.id

/-- The splice that the dispatcher chooses for a shared pump. -/
def chosen (s : State) : Option Splice :=
  let ready := s.splices.list.filter (fun p => p.core != 4 && eligible s p)
  (best (before s) ((activeCodes s).filter (fun o => ready.any (fun p => p.owner == o)))).bind (fun o =>
    best sooner (ready.filter (fun p => p.owner == o)))

/-- A splice starts on a pump. -/
def startOn (s : State) (p : Splice) (i : Nat) : State :=
  let q := { p with phase := .running i, ran := 0, stamp := s.splices.stamp }
  let s1 := putSplice { s with splices := { s.splices with stamp := s.splices.stamp + 1 } } q
  showPump (showSplice s1 i q) i 1 (some q)

/-! Records (R247, R248, R287). -/

/-- The address of the record in half `h` of a lazy area. -/
def recordAt (p : Splice) (h : Nat) : Nat := p.lazyArea + 192 * h

/-- The descriptor whose copy in a record has its BASE moved: the destination of VCMPR, the source of an expand (R287). -/
def movedKey (p : Splice) : Option (BitVec 5) :=
  p.instrs.findSome? (fun x => match x.op with
    | .compress => x.key .d
    | .expand _ => x.key .a
    | _ => none)

/-- The BASE that the record holds for that descriptor: the ply of the next element. -/
def movedBase (p : Splice) (d : Desc) : Addr := BitVec.ofInt 40 (d.locate p.taken).1

/-- The descriptors as the record holds them. -/
def recordDescs (p : Splice) : List Desc :=
  p.descs.map (fun x => if some x.1 = movedKey p then setBits x.2 0 (movedBase p x.2) else x.2)

/-- A list of 48-bit values in one number, the first lowest. -/
def packed48 (l : List W48) : Nat := l.foldr (fun v n => v.toNat + 2 ^ 48 * n) 0

/-- `n` words of a number, the lowest first. -/
def wordsOf : Nat → Nat → List Word72
  | 0, _ => []
  | n + 1, v => BitVec.ofNat 72 v :: wordsOf n (v / 2 ^ 72)

/-- The number that words hold, the first lowest. -/
def natOfWords (l : List Word72) : Nat := l.foldr (fun v n => v.toNat + 2 ^ 72 * n) 0

/-- The 32 words of a record (R247). -/
def recordWords (p : Splice) : List Word72 :=
  let empty := (List.range 16).foldl (fun n k => n + (if ((p.acc.getD k none).isSome) then 0 else 2 ^ k)) 0
  [ BitVec.ofNat 72 (p.elem + p.owner.toNat * 2 ^ 36 + p.rm.toNat * 2 ^ 40 + cond p.ftz (2 ^ 43) 0 + cond p.daz (2 ^ 44) 0 +
      cond p.ordered (2 ^ 45) 0 + p.ins.length % 8 * 2 ^ 46 + p.descs.length % 8 * 2 ^ 49),
    BitVec.ofNat 72 (p.status.toNat + empty * 2 ^ 24 + p.seq.toNat * 2 ^ 40 + 2 ^ 52) ] ++
  wordsOf 4 (packed48 p.ins) ++
  wordsOf 11 (packed48 (p.acc.map (fun a => a.getD 0))) ++
  (wordsOf 10 ((recordDescs p).foldr (fun d n => d.toNat + 2 ^ 144 * n) 0)) ++ wordsOf 5 0

/-- A splice as its record gives it back: mode, status, accumulators, instructions and descriptors; the dispatcher's own
ELEM, SEQ and owner code stay (R248). A reserved rounding-mode code comes back as it stands (DESIGN CHOICE, log 134). -/
def ofRecord (p : Splice) (w : List Word72) : Splice :=
  let w0 := w.getD 0 0
  let w1 := w.getD 1 0
  let ins := natOfWords ((w.drop 2).take 4)
  let acc := natOfWords ((w.drop 6).take 11)
  let desc := natOfWords ((w.drop 17).take 10)
  let count := (bits w0 46 3).toNat
  { p with
    rm := bits w0 40 3
    ftz := bit w0 43
    daz := bit w0 44
    ordered := bit w0 45
    status := bits w1 0 24
    ins := (List.range count).map (fun j => BitVec.ofNat 48 (ins / 2 ^ (48 * j)))
    acc := if p.acc = [] then [] else (List.range 16).map (fun k =>
      if bit w1 (24 + k) then none else some (BitVec.ofNat 48 (acc / 2 ^ (48 * k))))
    descs := (List.range p.descs.length).map (fun d =>
      let old := p.descs.getD d (0, 0)
      let new : Desc := BitVec.ofNat 144 (desc / 2 ^ (144 * d))
      (old.1, if some old.1 = movedKey p then setBits new 0 (Desc.base old.2 + new.base - movedBase p old.2) else new)) }

/-- The verdict of an access to every word of a record, with the lookups made. -/
def checkRecord (s : State) (w : Who) (a : Nat) (k : Kind) : Verdict × State :=
  (List.range 32).foldl (fun x i =>
    match x.1 with
    | .ok => checkPump x.2 w (a + 6 * i) k
    | v => (v, x.2)) (.ok, s)

/-- The half of the lazy area of the splice's context that its record takes: one that holds no saved splice, the lowest of two (R228, R247;
DESIGN CHOICE, log 149). -/
def freeHalf (s : State) (p : Splice) : Option Nat :=
  if p.lazyArea = 0 then none
  else
    let busy := s.splices.list.filter (fun q => q.cid == p.cid && q.id != p.id &&
      (match q.phase with | .saved _ => true | .saving _ => true | _ => false))
    if 2 ≤ busy.length then none
    else [0, 1].find? (fun h => !busy.any (fun q => q.phase == .saved h))

/-- VALID of a saved splice's record becomes 0 (R248, R257): the dispatcher's own act, which no owner check can stop (DEDUCED, log 131). -/
def clearValid (s : State) (p : Splice) (pump : Nat) : State :=
  match p.phase with
  | .saved h => writeMasked s (recordAt p h + 6) ((1 : Word72) <<< 52) 0 (BitVec.ofNat 8 pump)
  | _ => s

/-- A saved splice resumes on a pump: its record is read and VALID cleared (R248); a held word makes it wait. -/
def resumeOn (s : State) (p : Splice) (h i : Nat) : State :=
  let who := spliceWho p i
  match checkRecord s who (recordAt p h) .read with
  | (.held, _) => s
  | (.refused, s1) => endSplice (countFailure s1) p (some i) 5 0
  | (.ok, s1) =>
    let r := (List.range 32).foldl (fun (x : List Word × State) k =>
      let y := readWord x.2 (recordAt p h + 6 * k) who.master
      (x.1 ++ [y.1], y.2)) ([], s1)
    if r.1.any (fun w => w.poison) then endSplice r.2 { p with status := p.status ||| 4 } (some i) 5 0
    else startOn (clearValid r.2 p i) (ofRecord p (r.1.map (fun w => w.data))) i

/-- A saving pump has come to its group boundary with `p` as it stands there: the record is written and the pump is idle,
or the splice ends SAVE (R246, R247, R258). -/
def writeRecord (s : State) (p : Splice) (i : Nat) : State :=
  match freeHalf s p with
  | none => endSplice s p (some i) 3 0
  | some h =>
    let q := { p with status := p.status ||| 0x40 }
    match checkRecord s (spliceWho p i) (recordAt p h) .write with
    | (.held, _) => s
    | (.refused, s1) => endSplice (countFailure s1) p (some i) 5 0
    | (.ok, s1) =>
      let s2 := (List.zip (List.range 32) (recordWords q)).foldl (fun t x =>
        writeMasked t (recordAt p h + 6 * x.1) (BitVec.allOnes 72) x.2 (BitVec.ofNat 8 i)) s1
      let s3 := putSplice s2 { q with phase := .saved h }
      showPump (showLast s3 i) i 0 none

/-- The dispatcher gives a waiting or saved splice to a pump (R225, R227, R248). -/
def accept (s : State) : State :=
  let mine := if isLifelinePump s (llPump s) ∧ idlePump s (llPump s) then
    best sooner (s.splices.list.filter (fun p => p.core == 4 && eligible s p)) else none
  match mine with
  | some p => startOn s p (llPump s)
  | none =>
    match (List.range 16).find? (fun i => sharedPump s i && idlePump s i), chosen s with
    | some i, some p =>
      match p.phase with
      | .saved h => resumeOn s p h i
      | _ => startOn s p i
    | _, _ => s

/-! Running, preemption, faults (R228, R230, R246, R254, R256). -/

/-- The splice of a pump runs to its end and its status becomes final (R230); a frozen pump holds it (R608). -/
def completeOn (s : State) (i : Nat) : State :=
  match spliceOn s i with
  | none => s
  | some p =>
    if frozen s i ∨ p.phase ≠ .running i then s
    else settle s (runTo s p i (p.count s)) i (fun t _ => t)

/-- The splice of pump `i` is stopped at a group boundary that it may have reached, before its end, and ends there with a cause, unless its
own run has ended it before; when an access of that stretch is held, it ends where it last stood (R254, R257, R258). -/
def stopOn (s : State) (p : Splice) (i least : Nat) (cause : BitVec 3) : State :=
  let b := boundary s p least false
  let g := runGroups i b.1 (b.1 / 64 + 1) { s := b.2, p }
  if g.held then endSplice s p (some i) cause 0
  else match g.ended with
    | some z => endSplice g.s { g.p with elem := z.elem } (some i) z.cause z.desc z.causes
    | none => endSplice g.s g.p (some i) cause 0

/-- A running splice is preempted: its pump saves it at its next group boundary; without a free record it stays as it is
when `keep`, and otherwise ends ABORTED (R246, R256, R258). -/
def preemptOn (s : State) (i : Nat) (keep : Bool) : State :=
  match spliceOn s i with
  | none => s
  | some p =>
    if p.phase ≠ .running i then s
    else if (freeHalf s p).isSome then
      let s1 := { s with splices := { s.splices with stamp := s.splices.stamp + 1 } }
      showPump (putSplice s1 { p with phase := .saving i, stamp := s.splices.stamp }) i 2 (some p)
    else if keep then s
    else
      let b := boundary s p 0
      let g := runTo b.2 p i b.1
      if g.held then endSplice s p (some i) 3 0 else settle s g i (fun t q => endSplice t q (some i) 3 0)

/-- The preempted splice of a pump reaches its group boundary (R246, R258). -/
def completePreemption (s : State) (i : Nat) : State :=
  match spliceOn s i with
  | none => s
  | some p =>
    if frozen s i ∨ p.phase ≠ .saving i then s
    else
      let b := boundary s p 1
      settle s (runTo b.2 p i b.1) i (fun t q => writeRecord t q i)

/-- An owner code's entitlement less its running pumps, over the common denominator: P × w − H × Σw (R226, R228). -/
def credit (s : State) (o : OwnerCode) : Int :=
  (sharedPumps s * weightNat s o : Nat) - (running s o * weightSum s : Nat)

/-- The splice that a check of the dispatcher preempts for shares, with its pump (R228). A splice of a context without a free record is passed
over for the next that has run longest (R247; DEDUCED, log 146). -/
def victim (s : State) : Option (Splice × Nat) :=
  let q := (rdF s .pmpQuantum 0 12).toNat
  let wanting := (activeCodes s).any (fun o => decide ((weightSum s : Int) ≤ credit s o) &&
    s.splices.list.any (fun p => p.core != 4 && p.owner == o && eligible s p))
  if q = 0 ∨ (List.range 16).any (fun i => sharedPump s i && idlePump s i) ∨ ¬ wanting then none
  else
    let rich := (activeCodes s).filter (fun o => credit s o < 0)
    (best (fun a b => credit s a < credit s b || (credit s a == credit s b && b.toNat < a.toNat)) rich).bind (fun v =>
      (best (fun (a b : Splice × Nat) => a.1.stamp < b.1.stamp)
        (s.splices.list.filterMap (fun p => match p.phase with
          | .running i =>
            if p.core ≠ 4 ∧ p.owner = v ∧ q < p.ran ∧ (freeHalf s p).isSome ∧ ¬ isLifelinePump s i then some (p, i) else none
          | _ => none))))

/-- The splice of pump `i` has come to a group boundary before its end, or has ended in a group that fails: which groups are done at an instant
no rule fixes (R230, R241; log 154). -/
def advanceOn (s : State) (i : Nat) : State :=
  match spliceOn s i with
  | none => s
  | some p =>
    if frozen s i ∨ p.phase ≠ .running i then s
    else
      let b := boundary s p 0 false
      let g := runGroups i b.1 (b.1 / 64 + 1) { s := b.2, p }
      if g.held then s
      else match g.ended with
        | some z => endSplice g.s { g.p with elem := z.elem } (some i) z.cause z.desc z.causes
        | none => showSplice (putSplice g.s g.p) i g.p

/-- The check of the dispatcher every 256 pump clocks (R228), in which the running splices have gone on (log 154). -/
def preemptCheck (s : State) : State :=
  let s0 := { s with splices := { s.splices with list := s.splices.list.map (fun p => match p.phase with
    | .running i => if frozen s i then p else { p with ran := p.ran + 1 }
    | _ => p) } }
  let s1 := (List.range 16).foldl advanceOn s0
  if phase s1 ≠ 0 ∨ ¬ inRun s1 then s1
  else match victim s1 with
    | some (_, i) => preemptOn s1 i true
    | none => s1

/-- Pump `j` becomes the lifeline pump: LL and PUMP show it, and a shared splice on it is preempted (R225, R256, R407). -/
def takeLifelinePump (s : State) (j : Nat) : State :=
  let s1 := (List.range 16).foldl (fun t i => wrB t (.pmpStat i) 2 (i == j)) s
  preemptOn (wrF s1 .llStat 9 (BitVec.ofNat 4 j)) j false

/-- The pump that serves as lifeline pump at enable: pump 15, or the highest-numbered that has not failed (R407). -/
def highestPump (s : State) : Option Nat := ((List.range 16).filter (fun i => !pumpFailed s i)).getLast?

/-- A pump is marked failed until the next start, and the lifeline pump is replaced while lifeline counts as enabled for it (R254, R256,
R652); with no pump left there is no lifeline pump, and PUMP of LL_STAT stays (DESIGN CHOICE, log 150). -/
def failPump (s : State) (i : Nat) : State :=
  let was := isLifelinePump s i
  let s1 := report (wr s (.pmpStat i) (0x7F3 ||| (ofBool 24 (rdB s (.pmpStat i) 2) <<< 2)))
  if was then
    match highestPump s1 with
    | some j => takeLifelinePump s1 j
    | none => wrB s1 (.pmpStat i) 2 false
  else s1

/-- A group check of a pump fails: the splice ends PUMP_FAULT at the first element of that group (R254); while it is being saved, at the
ELEM of step 2 of R246, the next group's (R258). -/
def pumpFault (s : State) (i : Nat) : State :=
  match spliceOn s i with
  | none => s
  | some p =>
    if pumpFailed s i then s
    else failPump (stopOn s p i (cond (p.phase == .saving i) 1 0) 4) i

/-- Splices that `pick` names end ABORTED: running ones at a group boundary, waiting and saved ones at once, their records
invalid (R257, R258, R439). -/
def abortSplices (s : State) (pick : Splice → Bool) : State :=
  (s.splices.list.filter pick).foldl (fun t p =>
    match p.phase with
    | .waiting => endSplice t p none 3 0
    | .saved _ => endSplice (clearValid t p 0) p none 3 0
    | .running i => stopOn t p i 0 3
    | .saving i => stopOn t p i 0 3) s

/-! Kills (R257, R263). -/

/-- A write of SPL_KILL. -/
def writeSplKill (s : State) (a : Auth) (v : Reg24) : Written :=
  let o : OwnerCode := bits v 0 4
  judge [ (!(a.anySafSup || a.lifeline), .notPermitted),
      (rdB s .splCmd 0, .busy),
      (o == 0xF || reservedCode o, .reservedCode),
      (!(if o = 8 then a.lifeline else a.safSup (codePart o)), .notPermitted) ]
    (wrB { s with splices := { s.splices with kill := some (o, s.splices.next) } } .splCmd 0 true)

/-- The splice is of owner code `o` and was issued before the kill numbered `k` (R257); one issued between the write and the completion is
spared (DESIGN CHOICE, log 151). -/
def killed (o : OwnerCode) (k : Nat) (p : Splice) : Bool := (if p.core = 4 then (8 : OwnerCode) else p.owner) == o && decide (p.id < k)

/-- The splices of the lifeline. -/
def lifelineSplice (p : Splice) : Bool := p.core == 4

/-- Step 2 of R403 and of R408: the lifeline splices end ABORTED within the time of R257, and while DISABLING the lifeline pump becomes a
shared pump (R652). -/
def endLifelineSplices (s : State) : State :=
  if llState s = 3 then abortSplices s lifelineSplice
  else if llState s = 4 then
    (List.range 16).foldl (fun t i => if rdB t (.pmpStat i) 2 then wrB t (.pmpStat i) 2 false else t) (abortSplices s lifelineSplice)
  else s

/-- The killed splices have ended (R257), and those of a lifeline in RECOVERING or DISABLING (R403, R408; log 129). -/
def completeKill (s : State) : State :=
  let s0 := endLifelineSplices s
  match s0.splices.kill with
  | none => s0
  | some (o, k) =>
    let s1 := abortSplices s0 (killed o k)
    wrB (wrB { s1 with splices := { s1.splices with kill := none } } .splCmd 0 false) .splCmd 1 true

/-- Writes to the PMP_ and SPL_ registers (R260 to R263). -/
def writePumpBlock (s : State) (a : Auth) (r : Rg) (v : Reg24) : Written :=
  match r with
  | .pmpShare => storeOnce s r v
  | .pmpQuantum => storeOnce s r v
  | .pmpSplit p => judge [(!a.safeOf p, .notPermitted), (bits v 0 8 == 0, .reservedCode)] (store s r v)
  | .splKill => writeSplKill s a v
  | _ => .ok (store s r v)

end Sys2Proof.Machine
end

