-- ==== Sys2Proof/Machine/Lanes.lean ====
section
/-! DEFINITION. Sample lanes (R496 to R508, R515), and the writers of the registers of chapter 13 that hold an OWNER (R477,
R478). -/

namespace Sys2Proof.Machine

/-! Writers (R477). -/

/-- The writers of the fields other than OWNER of a resource owned by `o` (R477). -/
def mayField (a : Auth) (o : OwnerCode) : Bool :=
  if o = 8 then a.lifeline else decide (o.toNat < 8) && a.sup && a.code == o

/-- The reasons against a change of OWNER from `o` to `new` of a resource of home partition `home` (R178, R477, R652). -/
def ownReasons (s : State) (a : Auth) (o : OwnerCode) (home : Nat) (new : OwnerCode) : List (Bool × Reject) :=
  [ (!a.safe, .notPermitted),
    (disablingBusy s a o home new, .busy),
    (reservedCode new, .reservedCode),
    (!mayOwn s a o home new, .notPermitted) ]

/-- A write of fields other than OWNER: `busy` and `bad` are the reasons of the register beside the writer's (R477, R650). -/
def writeField (s : State) (a : Auth) (o : OwnerCode) (busy : Bool) (bad : List (Bool × Reject)) (t : State) : Written :=
  judge ([(!a.sup, .notPermitted), (busy, .busy)] ++ bad ++ [(!mayField a o, .notPermitted)])
    (if mayField a o then t else s)

/-! Frames (R497). -/

/-- The frame of a tag and a sample with its parities (R497). -/
def sampleFrame (tag : BitVec 4) (sample : BitVec 12) : BitVec 20 :=
  let f : BitVec 20 := setBits (setBits (setBits 0 18 (2 : BitVec 2)) 14 tag) 2 sample
  let odd := fun lo => decide (popCount (bits f lo 9) % 2 = 1)
  setBit (setBit f 1 (odd 11)) 0 (odd 2)

/-- SYNC of a frame is right (R499). -/
def syncOk (f : BitVec 20) : Bool := bits f 18 2 == 2

/-- Both parities of a frame hold (R497). -/
def parityOk (f : BitVec 20) : Bool :=
  (popCount (bits f 11 9) + (ofBool 1 (bit f 1)).toNat) % 2 == 0 && (popCount (bits f 2 9) + (ofBool 1 (bit f 0)).toNat) % 2 == 0

/-! Output lanes (R504 to R507). -/

/-- An output lane beside its registers. -/
def laneOf (s : State) (n : Nat) : LaneSt := s.lanes.get n {}

/-- It takes a value. -/
def setLane (s : State) (n : Nat) (x : LaneSt) : State := { s with lanes := s.lanes.put n x {} }

/-- OWNER of output lane `n`. -/
def txOwner (s : State) (n : Nat) : OwnerCode := rdF s (.txCfg n) 0 4

/-- EN of output lane `n`. -/
def txEn (s : State) (n : Nat) : Bool := rdB s (.txCfg n) 4

/-- SAFE_ACT of output lane `n`. -/
def safeAct (s : State) (n : Nat) : Bool := rdB s (.txSafe n) 16

/-- SPEND of output lane `n`: bit c − 1 for cause c. -/
def spend (s : State) (n : Nat) : BitVec 5 := rdF s (.txStat n) 9 5

/-- The pending cause with the lowest code; 0 with none. -/
def lowestCause (s : State) (n : Nat) : Nat :=
  match (List.range 5).find? (fun i => bit (spend s n) i) with
  | some i => i + 1
  | none => 0

/-- SCAUSE shows the lowest pending cause, or `last` when none is pending (R506). -/
def showCause (s : State) (n last : Nat) : State :=
  let c := lowestCause s n
  wrF s (.txSafe n) 17 (BitVec.ofNat 3 (if c = 0 then last else c))

/-- The safe frame goes out next, unless EN is 0 (R506). -/
def sendSafe (s : State) (n : Nat) : State := setLane s n { laneOf s n with safeNext := txEn s n }

/-- Safe cause `c` becomes pending at output lane `n` (R506); cause 0b100 always sends the safe frame once (R508). -/
def setSafeCause (s : State) (n c : Nat) : State :=
  let was := safeAct s n
  let s1 := showCause (wrB s (.txStat n) (8 + c) true) n c
  if was then (if c = 4 then sendSafe s1 n else s1)
  else
    let s2 := wrB s1 (.txSafe n) 16 true
    setLane s2 n { laneOf s2 n with waiting := false, safeNext := txEn s2 n, asked := false }

/-- Safe cause `c` ends at output lane `n` (R507). -/
def endSafeCause (s : State) (n c : Nat) : State :=
  if bit (spend s n) (c - 1) then showCause (wrB s (.txStat n) (8 + c) false) n c else s

/-- The output lanes that `pick` names go safe for cause `c`. -/
def lanesSafe (s : State) (pick : Nat → Bool) (c : Nat) : State :=
  ((List.range 16).filter pick).foldl (fun t n => setSafeCause t n c) s

/-- Cause `c` ends at every output lane that `pick` names. -/
def lanesEnd (s : State) (pick : Nat → Bool) (c : Nat) : State :=
  ((List.range 16).filter pick).foldl (fun t n => endSafeCause t n c) s

/-- Every output lane goes safe because the device leaves RUN and READY depth 1 (R506, R508). -/
def leaveFast (s : State) : State := lanesSafe s (fun _ => true) 4

/-- The device is in RUN or READY depth 1 again: cause 0b100 ends, and a lane still safe sends its safe frame at once
(R506, R507). -/
def returnFast (s : State) : State :=
  let s1 := lanesEnd s (fun _ => true) 4
  ((List.range 16).filter (safeAct s1)).foldl sendSafe s1

/-- The lanes of the lifeline that are safe while it recovers (R506). -/
def recoveringLane (s : State) (n : Nat) : Bool := txOwner s n == 8 && rdB s (.txCfg n) 5

/-- A frame goes into the transmit register (R504): held while the lanes are frozen (R608) or a safe cause is pending, and
otherwise the write that ends a safe state (R506, R507). -/
def placeFrame (s : State) (n : Nat) (v : BitVec 16) : State :=
  let s0 := wrF s (.tx n) 0 v
  if frozen s0 19 then setLane s0 n { laneOf s0 n with heldWrite := some v }
  else if safeAct s0 n ∧ spend s0 n ≠ 0 then s0
  else
    let s1 := if safeAct s0 n then wrF (wrB s0 (.txSafe n) 16 false) (.txSafe n) 17 (0 : BitVec 3) else s0
    if txEn s1 n then
      let s2 := if (laneOf s1 n).waiting then tally s1 (.txStat n) 0 8 1 else s1
      setLane s2 n { laneOf s2 n with waiting := true }
    else s1

/-- The sample lanes are released from a freeze: the last held write of each is sent (R608). -/
def releaseLanes (s : State) : State :=
  (List.range 16).foldl (fun t n =>
    match (laneOf t n).heldWrite with
    | some v => placeFrame (setLane t n { laneOf t n with heldWrite := none }) n v
    | none => t) s

/-- The next entry of a ring (R505). -/
def ringNext (s : State) (d : Nat) : State :=
  let i := (rdF s (.didx d) 0 20).toNat + 1
  wrF s (.didx d) 0 (BitVec.ofNat 20 (if ringLen s d = 0 then 0 else i % ringLen s d))

/-- The address of the entry at IDX (R505). -/
def ringEntry (s : State) (d : Nat) : Nat := ringBase s d + 2 * (rdF s (.didx d) 0 20).toNat

/-- The plies of a D24 entry at an address, as a mask of its word. -/
def entryMask (a : Nat) : BitVec 6 := (3 : BitVec 6) <<< plyInWord a

/-- A transmit event at output lane `n` (R480, R505): counted when a frame waits, and otherwise entry IDX is read and sent as
a write of SMP_TX_n. Outside RUN and READY depth 1 the lane does not run (R508). -/
def transmitRing (s : State) (n : Nat) : State :=
  let d := 16 + n
  if ¬ ringRuns s d ∨ frozen s 20 ∨ ¬ fastEvents s then s
  else if (laneOf s n).waiting then tally s (.txStat n) 0 8 1
  else
    let a := ringEntry s d
    match (if crossbarGated s (.smpDma (Fin.ofNat 32 d)) then (.held, s) else admitted s (ringWho s d) a 2 .read) with
    | (.held, s1) => setLane s1 n { laneOf s1 n with asked := true }
    | (.refused, s1) => ringError (countFailure s1) d
    | (.ok, s1) =>
      match fetchWord s1 a 22 with
      | (w, s2) =>
        if w.poison then setSafeCause (ringError (poisonUsed s2 (wordBase (remapped s2 a)) false 22) d) n 3
        else placeFrame (ringNext s2 d) n (bits w.data (12 * plyInWord a) 16)

/-- A transmit event that finds the read of an earlier one still held counts as refused. -/
def transmitEvent (s : State) (n : Nat) : State :=
  if (laneOf s n).asked then tally s (.txStat n) 0 8 1 else transmitRing s n

/-- A lane that may send its transmit register now (R403, R508). -/
def maySend (s : State) (n : Nat) : Bool :=
  txEn s n && fastEvents s && !safeAct s n && !(txOwner s n == 8 && llState s == 3)

/-- The serialiser of output lane `n` is idle: a held ring read is tried again, unless the ring is frozen (R608); the safe frame or the waiting
frame enters it and is sent with its parities, the safe frame only where SOUT carries frames (R567); with neither the lane idles (R497, R504,
R506). -/
def loadSerialiser (s : State) (n : Nat) : State :=
  let s0 := if (laneOf s n).asked ∧ ¬ frozen s 20 then transmitRing (setLane s n { laneOf s n with asked := false }) n else s
  let x := laneOf s0 n
  let busy := fun t => wrB t (.txStat n) 8 true
  if x.safeNext ∧ sampleOutputs s0 = .driven then
    let f := sampleFrame (rdF s0 (.txSafe n) 12 4) (rdF s0 (.txSafe n) 0 12)
    busy (send (setLane s0 n { x with safeNext := false }) (.frame n f))
  else if x.waiting ∧ maySend s0 n then
    let f := sampleFrame (rdF s0 (.tx n) 12 4) (rdF s0 (.tx n) 0 12)
    busy (send (setLane s0 n { x with waiting := false }) (.frame n f))
  else wrB s0 (.txStat n) 8 false

/-- The REPEAT interval of a safe lane passes: the safe frame is sent again, unless cause 0b100 is pending (R506). -/
def repeatSafe (s : State) (n : Nat) : State :=
  if safeAct s n ∧ txEn s n ∧ rdF s (.txCfg n) 15 8 ≠ 0 ∧ ¬ bit (spend s n) 3 ∧ fastEvents s then sendSafe s n else s

/-! Input lanes (R499 to R503). -/

/-- An accepted frame is written to the receive ring (R501, R505). -/
def receiveRing (s : State) (n : Nat) (v : BitVec 24) : State :=
  if ¬ ringRuns s n ∨ frozen s 20 then s
  else
    let a := ringEntry s n
    request (ringNext s n)
      { master := .smpDma (Fin.ofNat 32 n), addr := a,
        write := some (entryMask a, v.setWidth 72 <<< (12 * plyInWord a)) }

/-- The receive timeout of input lane `n` restarts (R502). -/
def restartTimeout (s : State) (n : Nat) : State := { s with rxSince := s.rxSince.insert n (s.clock, s.events.now) }

/-- A frame is accepted: its timeout restarts and its tag entry acts (R501, R502). -/
def acceptFrame (s0 : State) (n : Nat) (f : BitVec 20) : State :=
  let s := restartTimeout s0 n
  let tag : BitVec 4 := bits f 14 4
  let sample : BitVec 12 := bits f 2 12
  let e := rd s (.tag n tag.toNat)
  let seq : BitVec 8 := rdF s (.rx n) 16 8 + (if bit e 9 then 1 else 0)
  let v : Reg24 := setBits (setBits (setBits 0 0 sample) 12 tag) 16 seq
  let s1 := if bit e 9 then wr s (.rx n) v else s
  let s2 := assertIf s1 (bit e 8) (bits e 0 8).toNat (rdF s1 (.rxCfg n) 0 4)
  if bit e 10 then receiveRing s2 n v else s2

/-- A frame arrives at input lane `n` (R499, R500, R508, R608). -/
def receiveFrame (s : State) (n : Nat) (f : BitVec 20) : State :=
  if ¬ rdB s (.rxCfg n) 4 ∨ ¬ fastEvents s ∨ frozen s 19 then s
  else if syncOk f ∧ parityOk f then acceptFrame s n f
  else
    let s1 := if syncOk f then s else tally s (.rxStat n) 0 8 1
    let s2 := if parityOk f then s1 else tally s1 (.rxStat n) 8 8 1
    assertIf s2 (rdB s2 (.rxCfg n) 22) (rdF s2 (.rxCfg n) 14 8).toNat (rdF s2 (.rxCfg n) 0 4)

/-- The receive timeout of input lane `n` expires, and restarts (R502, R508); in a tick in which it has restarted, the restart stands
(R503). -/
def receiveTimeout (s : State) (n : Nat) : State :=
  if rdF s (.rxTout n) 0 16 = 0 ∨ ¬ fastEvents s ∨ s.rxSince.find n = some (s.clock, s.events.now) then s
  else
    let s1 := setFlag (restartTimeout s n) (.rxStat n) 16
    assertIf s1 (rdB s1 (.rxCfg n) 13) (rdF s1 (.rxCfg n) 5 8).toNat (rdF s1 (.rxCfg n) 0 4)

/-! Writes (R477, R478, R515). -/

/-- An owner change of an input lane takes effect: EN and every tag entry are 0 (R478). -/
def moveRx (s : State) (n : Nat) (o : OwnerCode) : State :=
  (List.range 16).foldl (fun t k => wr t (.tag n k) 0) (wrB (wrF s (.rxCfg n) 0 o) (.rxCfg n) 4 false)

/-- A write of SMP_RXCFG_n: a change of owner waits for the end of the tick (R477, R478). -/
def writeRxCfg (s : State) (a : Auth) (n : Nat) (v : Reg24) : Written :=
  let o := rdF s (.rxCfg n) 0 4
  let new : OwnerCode := bits v 0 4
  if new = o then writeField s a o false [] (store s (.rxCfg n) v)
  else judge (ownReasons s a o (homeOf s 0x12 n) new) (changeOwner s (.rxLane (Fin.ofNat 16 n)) new)

/-- EN of an output lane becomes 0: nothing more is sent (R506). -/
def silence (s : State) (n : Nat) : State :=
  setLane s n { laneOf s n with waiting := false, safeNext := false, asked := false, heldWrite := none }

/-- An owner change of an output lane takes effect: EN is 0 (R478). -/
def moveTx (s : State) (n : Nat) (o : OwnerCode) : State := silence (wrB (wrF s (.txCfg n) 0 o) (.txCfg n) 4 false) n

/-- A write of SMP_TXCFG_n: a change of owner waits for the end of the tick; EN written to 1 in the safe state sends the safe frame
(R477, R478, R506). -/
def writeTxCfg (s : State) (a : Auth) (n : Nat) (v : Reg24) : Written :=
  let o := txOwner s n
  let new : OwnerCode := bits v 0 4
  let was := txEn s n
  if new = o then
    let s1 := store s (.txCfg n) v
    writeField s a o false [] (if ¬ bit v 4 then silence s1 n else if ¬ was ∧ safeAct s1 n then sendSafe s1 n else s1)
  else judge (ownReasons s a o (homeOf s 0x13 n) new) (changeOwner s (.txLane (Fin.ofNat 16 n)) new)

/-- The ring lies within one cistern, the interleaved deep store or the sump channel (R515). -/
def ringOk (base len : Nat) : Bool :=
  (pumpRegion base).isSome && pumpRegion base == pumpRegion ((base + 2 * len - 1 : Nat) : Int)

/-- A write of SMP_DLEN_d: RUN written 1 restarts the ring and ends safe cause 0b011 (R505, R507, R515). -/
def writeRingLen (s : State) (a : Auth) (d : Nat) (v : Reg24) : Written :=
  let len : BitVec 20 := bits v 0 20
  let s1 := store s (.dlen d) v
  let bad := len = 0 || (bit v 20 && !ringOk (ringBase s d) len.toNat)
  writeField s a (ringOwner s d) false [(bad, .reservedCode)]
    (if bit v 20 ∧ 16 ≤ d then endSafeCause s1 (d - 16) 3 else s1)

/-- A write of SMP_GRP_g (R496, R515). -/
def writeGroup (s : State) (_a : Auth) (g : Nat) (v : Reg24) : Written :=
  judge [ (writtenOnce s (.grp g) v, .writtenOnce),
      (decide (5 ≤ (bits v 0 3).toNat) || (decide (4 ≤ g) && decide ((bits v 3 5).toNat < 2)), .reservedCode) ]
    (store s (.grp g) v)

/-- Writes to the SMP_ registers. -/
def writeLaneBlock (s : State) (a : Auth) (r : Rg) (v : Reg24) : Written :=
  match r with
  | .rxCfg n => writeRxCfg s a n v
  | .rxTout n => writeField s a (rdF s (.rxCfg n) 0 4) false [] (restartTimeout (store s r v) n)
  | .tag n _ => writeField s a (rdF s (.rxCfg n) 0 4) false [] (store s r v)
  | .txCfg n => writeTxCfg s a n v
  | .txSafe n => writeField s a (txOwner s n) false [] (store s r v)
  | .tx n => writeField s a (txOwner s n) false [] (placeFrame s n (bits v 0 16))
  | .grp g => writeGroup s a g v
  | .dbl d => writeField s a (ringOwner s d) false [(bit v 0, .reservedCode)] (store s r v)
  | .dbh d => writeField s a (ringOwner s d) false [] (store s r v)
  | .dlen d => writeRingLen s a d v
  | .didx d => writeField s a (ringOwner s d) (ringRuns s d) [] (store s r v)
  | _ => .ok (store s r v)

end Sys2Proof.Machine
end

