-- ==== Sys2Proof/Machine/Timers.lean ====
section
/-! DEFINITION. Timer channels and captures (R487 to R495), watchdogs (R509, R510, R565, R609), and writes to the TMR_
registers (R477, R478, R514). -/

namespace Sys2Proof.Machine

/-! Timer channels. -/

/-- The active values of a channel (R490). -/
def timerOf (s : State) (n : Nat) : TimerSt := s.timers.get n {}

/-- They take values. -/
def setTimer (s : State) (n : Nat) (x : TimerSt) : State := { s with timers := s.timers.put n x {} }

/-- OWNER of a channel and its capture input. -/
def timerOwner (s : State) (n : Nat) : OwnerCode := rdF s (.tmrOwn n) 0 4

/-- A channel's active compare value `k`; the value at reset is 0. -/
def TimerSt.compare (x : TimerSt) (k : Nat) : Reg24 := x.cmp.get k 0

/-- The values in the registers become active (R490). -/
def activate (s : State) (n : Nat) : State :=
  let x := timerOf s n
  setTimer s n { x with
    period := rd s (.tmrPer n)
    cmp := (List.range 4).foldl (fun t k => t.put k (rd s (.tmrCmp n k)) 0) x.cmp }

/-- The line of event `e` of a channel: compares 0 to 3, 4 the boundary, 5 the capture (R514). -/
def timerLine (s : State) (n e : Nat) : Nat :=
  if e < 3 then (rdF s (.tmrEva n) (8 * e) 8).toNat else (rdF s (.tmrEvb n) (8 * (e - 3)) 8).toNat

/-- Event `e` of a channel asserts its line when enabled (R489). -/
def timerEvent (s : State) (n e : Nat) : State := assertIf s (rdB s (.tmrEve n) e) (timerLine s n e) (timerOwner s n)

/-- The next count of a channel, whether that tick is a period boundary, and whether it then counts down (R488, R492);
`p` is the active PERIOD and `q` the one that a boundary makes active. -/
def nextCount (mode : Nat) (p q c : Reg24) (down : Bool) : Reg24 × Bool × Bool :=
  match mode with
  | 0 => if c < p then (c + 1, false, false) else (0, true, false)
  | 1 => if c = 0 then (q, true, true) else (c - 1, false, true)
  | _ =>
    if down ∧ c ≠ 0 then (c - 1, c == 1, c != 1)
    else if c < p then (c + 1, false, false)
    else (c - 1, c == 1, c != 1)

/-- One counting tick of a channel: its count, its matches and its boundary (R488 to R490); true for a boundary. -/
def countOne (s : State) (n : Nat) : Bool × State :=
  let x := timerOf s n
  match nextCount (rdF s (.tmrCtl n) 0 2).toNat x.period (rd s (.tmrPer n)) (rd s (.tmrCnt n)) (rdB s (.tmrStat n) 1) with
  | (c, boundary, down) =>
    let s1 := wrB (wr s (.tmrCnt n) c) (.tmrStat n) 1 down
    let hit := fun k => c == x.compare k && x.compare k ≤ x.period
    let s2 := ((List.range 4).filter hit).foldl (fun t k => timerEvent t n k) s1
    (boundary, if boundary then activate (timerEvent s2 n 4) n else s2)

/-- A source pulse of a channel whose source is a boundary or a capture: every (PSC + 1)-th is a counting tick (R487). -/
def pulse (s : State) (n : Nat) : Bool × State :=
  let x := timerOf s n
  if (rdF s (.tmrCtl n) 4 8).toNat ≤ x.pulses then (true, setTimer s n { x with pulses := 0 })
  else (false, setTimer s n { x with pulses := x.pulses + 1 })

/-- A counting tick of a channel, and of the channels that count its boundaries in the same tick (R493). -/
def countChain : Nat → State → Nat → State
  | 0, s, _ => s
  | fuel + 1, s, n =>
    match countOne s n with
    | (false, s1) => s1
    | (true, s1) =>
      if n + 1 < 16 ∧ rdB s1 (.tmrCtl (n + 1)) 12 ∧ rdF s1 (.tmrCtl (n + 1)) 2 2 = 2 then
        match pulse s1 (n + 1) with
        | (true, s2) => countChain fuel s2 (n + 1)
        | (false, s2) => s2
      else s1

/-- A counting tick of a channel whose source is an event tick (R487, R608). -/
def countingTick (s : State) (n : Nat) : State :=
  let clk := rdF s (.tmrCtl n) 2 2
  if ¬ rdB s (.tmrCtl n) 12 ∨ frozen s 17 ∨ 2 ≤ clk.toNat ∨ (clk = 1 ∧ ¬ fastEvents s) then s
  else countChain 16 s n

/-- A capture edge: a channel that counts them counts first, then the count is captured (R487, R495, R511). -/
def captureEdge (s : State) (n : Nat) : State :=
  if rdF s (.tmrCapcfg n) 12 2 = 0 ∨ frozen s 17 then s
  else
    let s1 :=
      if rdB s (.tmrCtl n) 12 ∧ rdF s (.tmrCtl n) 2 2 = 3 then
        match pulse s n with
        | (true, t) => countChain 16 t n
        | (false, t) => t
      else s
    let s2 := wr s1 (.tmrCapv n) (rd s1 (.tmrCnt n))
    let s3 := setFlag s2 (.tmrStat n) (if rdB s2 (.tmrStat n) 2 then 3 else 2)
    timerEvent s3 n 5

/-- A trigger event of a channel acts by TACT (R494). -/
def timerTrigger (s : State) (n : Nat) : State :=
  match (rdF s (.tmrEve n) 15 2).toNat with
  | 1 => wrB s (.tmrCtl n) 12 true
  | 2 => wrB s (.tmrCtl n) 12 false
  | 3 =>
    let s1 := activate s n
    let down := rdF s1 (.tmrCtl n) 0 2 == 1
    wrB (wrB (wr s1 (.tmrCnt n) (if down then rd s1 (.tmrPer n) else 0)) (.tmrStat n) 1 down) (.tmrCtl n) 12 true
  | _ => s

/-- A write of TMR_CTL_n (R487, R488, R514). -/
def writeTimerCtl (s : State) (a : Auth) (n : Nat) (v : Reg24) : Written :=
  let m : BitVec 2 := bits v 0 2
  let s1 := store s (.tmrCtl n) v
  writeField s a (timerOwner s n) false [(m == 3 || (bits v 2 2 == 2 && n == 0), .reservedCode)]
    (if m = 2 then s1 else wrB s1 (.tmrStat n) 1 (m == 1))

/-- An owner change of a channel takes effect: the channel stops and every event enable is 0 (R478). -/
def moveTimer (s : State) (n : Nat) (o : OwnerCode) : State :=
  wrF (wrB (wrF s (.tmrOwn n) 0 o) (.tmrCtl n) 12 false) (.tmrEve n) 0 (0 : BitVec 6)

/-- A write of TMR_OWN_n: a change of owner waits for the end of the tick (R477, R478). -/
def writeTimerOwn (s : State) (a : Auth) (n : Nat) (v : Reg24) : Written :=
  let o := timerOwner s n
  let new : OwnerCode := bits v 0 4
  if new = o then writeField s a o false [] s
  else judge (ownReasons s a o (homeOf s 0x11 n) new) (changeOwner s (.timer (Fin.ofNat 16 n)) new)

/-- A write of PERIOD: to the shadow, or active at once, setting PERIOD_SHORT where the counter is cut short (R488, R490,
R492). -/
def writePeriod (s : State) (a : Auth) (n : Nat) (v : Reg24) : Written :=
  let s1 := store s (.tmrPer n) v
  let up := rdF s (.tmrCtl n) 0 2 == 0 || (rdF s (.tmrCtl n) 0 2 == 2 && !rdB s (.tmrStat n) 1)
  let s2 := setTimer s1 n { timerOf s1 n with period := v }
  let s3 := if up ∧ v < rd s (.tmrCnt n) then setFlag s2 (.tmrStat n) 0 else s2
  writeField s a (timerOwner s n) false [(v == 0, .reservedCode)] (if rdB s (.tmrCtl n) 13 then s3 else s1)

/-- A write of a compare value: to the shadow, or active at once (R490, R491). -/
def writeCompare (s : State) (a : Auth) (n k : Nat) (v : Reg24) : Written :=
  let s1 := store s (.tmrCmp n k) v
  let x := timerOf s1 n
  writeField s a (timerOwner s n) false []
    (if rdB s (.tmrCtl n) 13 then setTimer s1 n { x with cmp := x.cmp.put k v 0 } else s1)

/-! Watchdogs (R509, R510). -/

/-- A watchdog beside its registers. -/
def dogOf (s : State) (x : Nat) : DogSt := s.dogs.get x {}

/-- It takes a value. -/
def setDog (s : State) (x : Nat) (d : DogSt) : State := { s with dogs := s.dogs.put x d {} }

/-- EN of a watchdog. -/
def dogEn (s : State) (x : Nat) : Bool := rdB s (.wdCfg x) 16

/-- The full interval of a watchdog in slow event ticks: TIMEOUT × 100 µs. -/
def dogFull (s : State) (x : Nat) : Nat := 4000 * (rdF s (.wdCfg x) 0 16).toNat

/-- A core of the watchdog's partition is halted (R609). -/
def dogHalted (s : State) (x : Nat) : Bool :=
  if x = 4 then halted s 4 else (List.range 4).any (fun c => partOf s c == x && halted s c)

/-- The owner code that a watchdog's event carries (R479). -/
def dogCode (x : Nat) : OwnerCode := if x = 4 then 8 else ownerCode x true

/-- The output lanes that a watchdog makes safe (R510). -/
def dogLane (s : State) (x n : Nat) : Bool :=
  if x = 4 then txOwner s n == 8 else (txOwner s n).toNat < 8 && codePart (txOwner s n) == x

/-- The count of a watchdog starts again with its full interval. -/
def restartDog (s : State) (x : Nat) : State :=
  setDog s x { counting := true, left := dogFull s x, paused := !inRun s || dogHalted s x }

/-- A watchdog expires (R510). -/
def expireDog (s : State) (x : Nat) : State :=
  let s1 := setFlag s (.wdStat x) 16
  let s2 := assertIf s1 (rdB s1 (.wdEvt x) 8) (rdF s1 (.wdEvt x) 0 8).toNat (dogCode x)
  report (setDog (lanesSafe s2 (dogLane s2 x) 2) x { dogOf s2 x with counting := false, left := 0 })

/-- The interval of a counting watchdog passes without a valid kick (R509, R510); in the tick of a halt that pauses it the expiry stands
(R614). -/
def watchdogExpire (s : State) (x : Nat) : State :=
  let d := dogOf s x
  if dogEn s x ∧ d.counting ∧ (¬ d.paused ∨ d.haltAt = some (s.clock, s.events.now)) then expireDog s x else s

/-- Every watchdog pauses when the device leaves RUN (R565). -/
def pauseDogs (s : State) : State :=
  (List.range 5).foldl (fun t x => if dogEn t x then setDog t x { dogOf t x with paused := true, haltAt := none } else t) s

/-- A watchdog that is enabled and has not expired restarts from its full interval when the device enters RUN (R565). -/
def runDogs (s : State) : State :=
  (List.range 5).foldl (fun t x =>
    if dogEn t x then
      (if (dogOf t x).counting then restartDog t x else setDog t x { dogOf t x with paused := dogHalted t x })
    else t) s

/-- The watchdog of a core: 4 for the lifeline core. -/
def dogOfCore (s : State) (c : Nat) : Nat := if c = 4 then 4 else partOf s c

/-- A halt of a core pauses its watchdog, and the tick in which it does so is kept (R609, R614). -/
def pauseDogOf (s : State) (c : Nat) : State :=
  let x := dogOfCore s c
  let d := dogOf s x
  if dogEn s x ∧ ¬ d.paused then setDog s x { d with paused := true, haltAt := some (s.clock, s.events.now) } else s

/-- The last halt of a partition's cores has ended: its watchdog goes on with at least 4,096 ticks (R609). -/
def resumeDogOf (s : State) (c : Nat) : State :=
  let x := dogOfCore s c
  let d := dogOf s x
  if dogHalted s x ∨ ¬ dogEn s x then s
  else setDog s x { d with
    left := if d.counting ∧ d.left < 4096 then 4096 else d.left
    paused := !inRun s
    haltAt := none }

/-- The partition is a steward of LL_CFG (R406). -/
def steward (s : State) (a : Auth) : Bool := a.anySafSup && rdB s .llCfg a.part

/-- The writers of TMR_WDCFG_x, TMR_WDEVT_x and TMR_WDSTAT_x (R509). -/
def mayDog (s : State) (a : Auth) (x : Nat) : Bool := if x = 4 then steward s a else a.safSup x

/-- A writer of a kind that a watchdog's registers never admit. -/
def wrongDogKind (a : Auth) (x : Nat) : Bool := !(if x = 4 then a.anySafSup else a.safSup x)

/-- A write of TMR_WDCFG_x (R509, R514): EN starts the count. -/
def writeDogCfg (s : State) (a : Auth) (x : Nat) (v : Reg24) : Written :=
  let was := dogEn s x
  let s1 := store s (.wdCfg x) v
  judge [ (wrongDogKind a x, .notPermitted), (writtenOnce s (.wdCfg x) v, .writtenOnce),
      (bits v 0 16 == 0, .reservedCode), (!mayDog s a x, .notPermitted) ]
    (if ¬ was ∧ dogEn s1 x then restartDog s1 x else s1)

/-- A write of TMR_WDKICK_x (R509, R510): a valid kick restarts the count and ends safe cause 0b010. -/
def writeDogKick (s : State) (a : Auth) (x : Nat) (v : Reg24) : Written :=
  judge [(!(if x = 4 then a.lifeline else a.safety && a.code == ownerCode x true), .notPermitted)]
    (if ¬ dogEn s x then s
     else if bits v 0 16 = (0xA5C3 : BitVec 16) then lanesEnd (restartDog s x) (dogLane s x) 2
     else expireDog s x)

/-- Writes to the TMR_ registers. -/
def writeTimerBlock (s : State) (a : Auth) (r : Rg) (v : Reg24) : Written :=
  match r with
  | .tmrCtl n => writeTimerCtl s a n v
  | .tmrOwn n => writeTimerOwn s a n v
  | .tmrPer n => writePeriod s a n v
  | .tmrCnt n => writeField s a (timerOwner s n) (rdB s (.tmrCtl n) 12) [] (store s r v)
  | .tmrCmp n k => writeCompare s a n k v
  | .tmrEva n => writeField s a (timerOwner s n) false [] (store s r v)
  | .tmrEvb n => writeField s a (timerOwner s n) false [] (store s r v)
  | .tmrEve n => writeField s a (timerOwner s n) false [] (store s r v)
  | .tmrCapcfg n => writeField s a (timerOwner s n) false [] (store s r v)
  | .wdCfg x => writeDogCfg s a x v
  | .wdEvt x => judge [(wrongDogKind a x, .notPermitted), (!mayDog s a x, .notPermitted)] (store s r v)
  | .wdKick x => writeDogKick s a x v
  | .wdStat x => judge [(wrongDogKind a x, .notPermitted), (!mayDog s a x, .notPermitted)] (report (store s r v))
  | _ => .ok (store s r v)

end Sys2Proof.Machine
end

