-- ==== Sys2Proof/Machine/Modes.lean ====
section
/-! DEFINITION. Modes: the combined request (R551 to R553), holds and depths (R557, R558), entry and wake (R554 to R559, R565,
R607), and the beginning of a start (R19, R29, R550, R554, R560). -/

namespace Sys2Proof.Machine

/-! Requests (R551, R558). -/

/-- The stored value of an object is replaced. -/
def setOd (s : State) (index sub : Nat) (v : List Byte) : State := { s with od := s.od.insert (odKey index sub) v }

/-- The subindices of the bindings and of the layout. -/
def layoutKeys : List (Nat × Nat) :=
  (List.range 9).map (fun i => (0x2010, i + 1)) ++ (List.range 19).map (fun i => (0x2011, i + 1))

/-- The stored bindings and layout, as they take effect at a start (R29). -/
def storedLayout (s : State) : Tab (List Byte) :=
  layoutKeys.foldl (fun t k => t.put (odKey k.1 k.2) (odBytes s k.1 k.2) (odDefault (odKey k.1 k.2))) Tab.empty

/-- The mode that partition `p` requests in 0x2001. -/
def requestOf (s : State) (p : Nat) : Byte := (odBytes s 0x2001 (p + 1)).headD 6

/-- The wake-latency budget of partition `p` in µs. -/
def budgetOf (s : State) (p : Nat) : Nat := leNat (odBytes s 0x2100 (p + 1))

/-- The bound partitions (R551). -/
def boundParts (s : State) : List Nat := (List.range 4).filter (bound s)

/-- The combined request: 6 RUN, 7 RECOVERY, 3 READY, 1 STANDBY (R551). -/
def combined (s : State) : BitVec 8 :=
  let r := (boundParts s).map (requestOf s)
  if r.isEmpty then 6
  else if r.all (fun v => v == 7) then 7
  else if r.any (fun v => v == 6) then 6
  else if r.any (fun v => v == 3) then 3
  else 1

/-- The smallest budget among the bound partitions. -/
def smallestBudget (s : State) : Nat := (boundParts s).foldl (fun m p => if budgetOf s p < m then budgetOf s p else m) 0xFFFFFFFF

/-- The deepest READY depth whose wake time of R556 does not exceed the smallest budget (R558). -/
def selectedDepth (s : State) : Nat :=
  let b := smallestBudget s
  if 1100 ≤ b then 3 else if 45 ≤ b then 2 else 1

/-- The reason of R557 against leaving RUN for `want`; 0 for none. -/
def holdOf (s : State) (want : BitVec 8) : BitVec 3 :=
  if want ≠ 3 ∧ want ≠ 1 then 0
  else if ¬ llDisabled s then 1
  else if want = 3 ∧ smallestBudget s < 2 then 2
  else 0

/-! MOD_STAT (R570). -/

/-- MODE and DEPTH show a mode. -/
def setMode (s : State) (m : BitVec 8) : State :=
  let d : BitVec 2 := if m = 3 then 1 else if m = 4 then 2 else if m = 5 then 3 else 0
  wrF (wrF s .modStat 0 m) .modStat 8 d

/-- PHASE shows a phase. -/
def setPhase (s : State) (p : BitVec 2) : State := wrF s .modStat 10 p

/-- HOLD shows a reason. -/
def setHold (s : State) (h : BitVec 3) : State := wrF s .modStat 12 h

/-! Domains. -/

/-- The lanes that are not yet safe because the device left RUN and READY depth 1 go safe (R506). -/
def lanesLeave (s : State) : State := lanesSafe s (fun n => !bit (spend s n) 3) 4

/-- Lanes run again (R507). -/
def lanesReturn (s : State) : State := if (List.range 16).any (fun n => bit (spend s n) 3) then returnFast s else s

/-- In READY depths 2 and 3 every cistern whose REQ is ON is held in RETAIN (R187). -/
def retainCisterns (s : State) : State :=
  (List.range 16).foldl (fun t n =>
    if rdF t (.cisPwr n) 0 2 = 0 ∧ rdF t (.cisStat n) 0 2 = 0 then
      wrF (pauseLap t (128 + n)) (.cisStat n) 0 (5 : BitVec 4)
    else t) s

/-- Those cisterns are ON again, and serve what was held (R187). -/
def wakeCisterns (s : State) : State :=
  (List.range 16).foldl (fun t n =>
    if rdF t (.cisPwr n) 0 2 = 0 ∧ rdF t (.cisStat n) 0 2 = 1 then
      let u := resumeLap (wrF t (.cisStat n) 0 (0 : BitVec 4)) (128 + n)
      serveHeld u (fun a => regionOf (remapped u a) == some (.cistern n))
    else t) s

/-- The domains that run in READY depth `d`, or in RUN for 0 (R549, R187, R508); in an emulated depth the memory domain stays clocked
(R607). -/
def enterDomains (s : State) (d : Nat) : State :=
  if 2 ≤ d then (if s.modes.emulated then lanesLeave s else retainCisterns (lanesLeave s)) else lanesReturn (wakeCisterns s)

/-! The main domains (R550). -/

/-- Registers whose domain runs while the main domains are off: EVR_, TMR_, SMP_, HST_CAN and HST_SYNCEVT, MOD_, DBG_. -/
def alwaysOn (i : Nat) : Bool :=
  (0x4400 ≤ i && i < 0x5000) || i == 0x5005 || i == 0x5006 || (0x5400 ≤ i && i < 0x5409) || (0x5C00 ≤ i && i < 0x5C0E)

/-- Those of them that keep their values across the beginning of BRING-UP (R550, R616). -/
def keptAtStart (i : Nat) : Bool :=
  i == 0x5005 || i == 0x5400 || i == 0x5401 || (0x5406 ≤ i && i < 0x5409) || i == 0x5C00 || i == 0x5C06 || (0x5C08 ≤ i && i < 0x5C0C)

/-- A slot whose CLEAR or PROGRAM is cut off holds a partial image: the bytes that the command was to erase or to write are open (R595). -/
def Slot.cutOff (x : Slot) (c : FwCmd) (free : Nat) : Slot :=
  if c.op = 1 then { epoch := free + 1, cut := some [] }
  else { x with
    cut := some []
    bytes := (List.range (9 * c.len)).foldl (fun t i => t.insert (9 * c.off + i) (Config.freeBits 8 (free + i))) x.bytes }

/-- The pointer sectors while ACTIVATE writes the record of slot `b`: as they were, with a record that is not complete, with both records, or
with the other sector erased (R587); `stage` tells which, `part` how many bytes of the record are there. -/
def pointerStage (f : Flash) (p : Option (BitVec 32 × Bool × Bool)) (b : Bool) (stage part : Nat) : Flash :=
  let seq := match p with | some x => x.1 + 1 | none => 1
  let one := match p with | some x => !x.2.2 | none => false
  let l := match stage with
    | 0 => none
    | 1 => some ((pointerRecord seq b).take (part % 16))
    | _ => some (pointerRecord seq b)
  match l with
  | none => f
  | some l =>
    if one then { f with sector1 := l, sector0 := if 3 ≤ stage then [] else f.sector0 }
    else { f with sector0 := l, sector1 := if 3 ≤ stage then [] else f.sector1 }

/-- The supplies fail, or a start begins, while a firmware command runs: CLEAR and PROGRAM leave a partial image in the inactive slot (R595), and
ACTIVATE of a slot that verifies is at a free point of the pointer write (R587; log 156). -/
def cutFlash (s : State) : State :=
  match s.fw.cmd with
  | none => s
  | some c =>
    if c.op = 1 ∨ c.op = 2 then
      let n := if c.op = 1 then 1 else 9 * c.len
      let t := { s with free := s.free + n }
      if activeSlot s then { t with flash := { s.flash with slotA := s.flash.slotA.cutOff c s.free } }
      else { t with flash := { s.flash with slotB := s.flash.slotB.cutOff c s.free } }
    else if c.op = 3 ∧ c.verified then
      let r := drawNat s
      let q := drawNat r.2
      { q.2 with flash := pointerStage s.flash (pointer s) (!activeSlot s) (r.1 % 4) q.1 }
    else s

/-- The cores with new contexts: a HALT or STEP that runs on one, which the DBG_ registers in the always-on domain hold, runs on (R550, R601). -/
def restartedCores (s : State) : Tab CoreSt :=
  (List.range 5).foldl (fun t c =>
    let k := coreOf s c
    t.put c { haltAsked := k.haltAsked, stepping := k.stepping } {}) Tab.empty

/-- The main domains lose their content: nothing of the deep store, the cisterns, the cores or the pumps remains (R549). The level of
PE_SPLIT stays latched in SPLIT of HST_LINK (R516). -/
def mainOff (s0 : State) : State :=
  let s := cutFlash s0
  { s with
    regs := (s.regs.keep alwaysOn).put Rg.hstLink.index (ofBool 24 (rdB s .hstLink 0)) Rg.hstLink.reset
    mem := Tab.empty
    frames := Tab.empty
    store := { retiring := s.store.retiring }
    handovers := Tab.empty
    ctxs := Tab.empty
    cores := restartedCores s
    caps := Tab.empty
    checkpoint := none
    rollbacks := []
    splices := {}
    hosts := Tab.empty
    hostQueue := []
    fw := {} }

/-- Every output lane sends the safe frame that is due (R508). -/
def flushSafe (s : State) : State :=
  ((List.range 16).filter (fun n => (laneOf s n).safeNext)).foldl loadSerialiser s

/-- Registers whose reset value comes from 0x2010 and 0x2011 (R205, R513 to R515, R547); the initial owner of a cistern, whose reset value is
0b1111, boot firmware writes later (R177). -/
def layoutRegs (s : State) : State :=
  let own := fun (t : State) (r : Rg) (sub n : Nat) => wrF t r 0 (initialOwner t sub n)
  let s1 := (List.range 16).foldl (fun t n => wrF t (.cisStat n) 9 (BitVec.ofNat 2 (homeOf t 0x0F n))) s
  let s2 := (List.range 256).foldl (fun t n => own t (.evrLine n) 0x10 n) s1
  let s3 := (List.range 16).foldl (fun t n =>
    own (own (own t (.tmrOwn n) 0x11 n) (.rxCfg n) 0x12 n) (.txCfg n) 0x13 n) s2
  (List.range 4).foldl (fun t f => wrF t (.hstFn f) 0 (BitVec.ofNat 5 (layoutNat t 0x2010 (f + 1)))) s3

/-- The node-ID and bit timing stored by LSS are in use from a start on; without a stored node-ID the unit is unconfigured (R538). -/
def applyStored (s : State) : State :=
  let s1 := match s.can.nodeStored with
    | some n => wrB (wrF s .hstCan 0 (bits n 0 7)) .hstCan 7 false
    | none => wrB (wrF s .hstCan 0 (0x7F : BitVec 7)) .hstCan 7 true
  match s.can.timingStored with
  | some t => { s1 with can := { s1.can with nominal := t.1, data := t.2, syncBus := none } }
  | none => { s1 with can := { s1.can with syncBus := none } }

/-- The contexts in which the scalar cores run boot code: supervisor level of the safety world, from the beginning of window zero (R351; log
136). -/
def bootContexts : Tab Ctx :=
  (List.range 4).foldl (fun t c => t.put (ctxKey c 0) { freshCtx (ctxKey c 0) with stw := 0x7000 } (freshCtx (ctxKey c 0))) Tab.empty

/-- A start begins (R554, R560): the layout and bindings take effect (R29), every register of the main domains and of the
EVR_, TMR_ and SMP_ blocks is at its reset value (R550), and every RWS field may be written again (R19). `pin` is the level of RECOVERY_N. -/
def beginStart (s : State) (recovery : Bool) (cause : BitVec 3) (pin : Bool) : State :=
  let s0 := if fastEvents s then flushSafe (lanesLeave s) else s
  let s1 := mainOff s0
  let s2 : State := { s1 with
    regs := s1.regs.keep keptAtStart
    rwsDone := []
    events := {}
    timers := Tab.empty
    lanes := Tab.empty
    rxSince := Tab.empty
    ctxs := bootContexts
    dogs := Tab.empty
    clock := 0
    inForce := storedLayout { s1 with odBase := Tab.empty }
    modes := { target := 0, emulated := false, recovery := recovery, pinRecovery := false, powerUp := false, told := [] } }
  let s3 := applyStored (wrB (layoutRegs s2) .hstLink 0 s.pwr.split)
  let s4 := setHold (setPhase (setMode s3 2) 0) 0
  report (wrB (wrF s4 .modStat 15 cause) .modStat 18 pin)

/-- The operating limits of the lid temperature, in units of 0.1 °C, of the ordering code (R2, R642). -/
def lidLow : Int := if Config.variantX then -400 else 0
def lidHigh : Int := if Config.variantX then 950 else 850

/-- The lid temperature is outside its operating range. -/
def lidBeyond (t : BitVec 12) : Bool := decide (t.toInt < lidLow) || decide (lidHigh < t.toInt)

/-- The lid temperature is above its shutdown threshold, 10 °C above the upper limit (R2, R566, R642). -/
def lidTooHot (t : BitVec 12) : Bool := decide (lidHigh + 100 < t.toInt)

/-- STANDBY may be left: both supplies, RESET_N, the temperature, the clocks and the combined request allow it (R554, R563, R566, R590,
R626, R634, R647). -/
def mayStart (s : State) : Bool :=
  let p := s.pwr
  mode s == 1 && p.aux && p.main && !p.mainOut && p.resetN && !p.hot && !lidTooHot (rdF s .modTemp 0 12) && p.clockGood &&
    combined s != 1

/-- STANDBY is left where it may be: the start posts `cause`, the event that allows it, and `pin`, the level of RECOVERY_N, which is free where
the event does not show it (R554, R570; log 157). -/
def tryStart (s : State) (cause : BitVec 3) (pin : Option Bool) : State :=
  if mayStart s then
    let recovery := s.modes.pinRecovery || combined s == 7
    match pin with
    | some b => beginStart s recovery cause b
    | none => let r := drawBool s; beginStart r.2 recovery cause r.1
  else s

/-- The CAUSE of a start by VIN_MAIN: power-up where no start has begun since VIN_AUX became valid, else VIN_MAIN return (R570). -/
def mainCause (s : State) : BitVec 3 := if s.modes.powerUp then 0 else 1

/-- A start that the combined request brings about from a mode other than STANDBY: one that enters RECOVERY (R554, R570). -/
def startRecovery (s : State) : State := let r := drawBool s; beginStart r.2 true 4 r.1

/-- The device is in STANDBY with its main domains off (R554). -/
def enterStandby (s : State) : State :=
  let s1 := mainOff s
  report (setHold (setPhase (setMode { s1 with modes := { s1.modes with target := 0, emulated := false } } 1) 0) 0)

/-- DEPTH of MOD_STAT shows the selected depth (R570). -/
def showDepth (s : State) : State := wrF s .modStat 8 (BitVec.ofNat 2 (selectedDepth s))

/-! Entry and wake (R555 to R559). -/

/-- The combined request or a hold may have changed: the transition that R554, R557, R558 and R559 give is taken. -/
def reconsider (s : State) : State :=
  let want := combined s
  let h := holdOf s want
  if mode s = 1 then tryStart s (if want = 7 then 4 else 2) none
  else if phase s = 2 ∧ s.modes.target = 3 ∧ inReady s then showDepth s
  else if phase s = 2 ∨ phase s = 3 then s
  else if inBringUp s then (if want = 7 ∧ ¬ s.modes.recovery then startRecovery s else s)
  else if inRecovery s then s
  else if want = 7 then startRecovery s
  else if inRun s then
    if want = 6 ∨ h ≠ 0 then setHold (setPhase s 0) h
    else setHold (setPhase { s with modes := { s.modes with target := want } } 1) 0
  else if want = 6 then setPhase s 3
  else if want = 1 then lanesLeave (setPhase { s with modes := { s.modes with target := 1 } } 2)
  else if (mode s).toNat = 2 + selectedDepth s then s
  else showDepth (setPhase { s with modes := { s.modes with target := 3 } } 2)

/-- Some splice runs or is being saved. -/
def splicesRun (s : State) : Bool :=
  s.splices.list.any (fun p => match p.phase with | .running _ => true | .saving _ => true | _ => false)

/-- The debug probe emulates STANDBY and the deeper READY depths (R607). -/
def emulates (s : State) : Bool := rdB s .dbgCtl 0 && rdB s .dbgCtl 6

/-- Step 3 of R555, the point of no return: the cores stop, watchdogs pause (R565), and lanes go safe unless READY depth 1
is entered (R506). -/
def noReturn (s : State) : State :=
  let s1 := pauseDogs (setPhase s 2)
  if s1.modes.target = 3 ∧ selectedDepth s1 = 1 then s1 else lanesLeave s1

/-- No splice is running: step 2 of R555 ends. -/
def drainComplete (s : State) : State := if inRun s ∧ phase s = 1 ∧ ¬ splicesRun s then noReturn s else s

/-- The drain limit passes: every running splice is preempted, one without a free record going on (R555). -/
def drainLimit (s : State) : State :=
  if inRun s ∧ phase s = 1 then drainComplete ((List.range 16).foldl (fun t i => preemptOn t i true) s) else s

/-- The domains reach the READY depth that is now selected (R555, R558, R607), and a queued request follows (R559). -/
def depthReached (s : State) : State :=
  if phase s = 2 ∧ s.modes.target = 3 then
    let d := selectedDepth s
    let s1 := setPhase (setMode { s with modes := { s.modes with target := 0, emulated := 2 ≤ d && emulates s } }
      (BitVec.ofNat 8 (2 + d))) 0
    reconsider (report (enterDomains s1 d))
  else s

/-- The main domains switch off for STANDBY, or STANDBY is emulated (R554, R607). -/
def standbySwitchOff (s : State) : State :=
  if phase s = 2 ∧ s.modes.target = 1 then
    if emulates s then
      reconsider (report (setHold (setPhase (setMode { s with
        modes := { s.modes with target := 0, emulated := true } } 1) 0) 0))
    else reconsider (enterStandby s)
  else s

/-- ATT is cleared in an emulated mode: the real entry completes at once (R607). -/
def endEmulation (s : State) : State :=
  if s.modes.emulated then
    let t := { s with modes := { s.modes with emulated := false } }
    if mode s = 1 then enterStandby t else retainCisterns t
  else s

/-- The device is in RUN again, its cores issue, and the crossbar serves what waited for its clock (R40, R554, R556, R565). -/
def wakeComplete (s : State) : State :=
  if phase s = 3 then
    let s1 := setHold (setPhase (setMode { s with modes := { s.modes with emulated := false } } 6) 0) 0
    reconsider (report (serveHeld (runDogs (enterDomains s1 0)) (fun _ => true)))
  else s

/-- A client has written 0x2001 of partition `p` in the present tick (R571). -/
def toldNow (s : State) (p : Nat) : Bool := s.modes.told.contains (p, s.clock, s.events.now)

/-- A client writes 0x2001 of partition `p` (R571). -/
def noteTold (s : State) (p : Nat) : State :=
  { s with modes := { s.modes with told := s.modes.told.filter (fun x => x.1 != p) ++ [(p, s.clock, s.events.now)] } }

/-- Line `m` of MOD_WAKE_p fires in READY: 0x2001:p becomes 0x06 (R553), unless a client has written it in the same tick (R571). -/
def wakeLine (s : State) (m : Nat) : State :=
  let hit := fun p => rdB s (.modWake p) 8 && (rdF s (.modWake p) 0 8).toNat == m && !toldNow s p
  if inReady s ∧ (List.range 4).any hit then
    reconsider (((List.range 4).filter hit).foldl (fun t p => setOd t 0x2001 (p + 1) [6]) s)
  else s

/-- A write of MOD_CFG or MOD_WAKE_p (R570). -/
def writeModBlock (s : State) (a : Auth) (r : Rg) (v : Reg24) : Written :=
  match r with
  | .modCfg =>
    judge [ (!a.boot, .notPermitted), (writtenOnce s r v, .writtenOnce), (bits v 0 12 == 0, .reservedCode) ] (store s r v)
  | .modWake p =>
    let o := rdF s (.evrLine (bits v 0 8).toNat) 0 4
    judge [ (!a.safeOf p, .notPermitted), (!(decide (o.toNat < 8) && codePart o == p), .notPermitted) ] (store s r v)
  | _ => .ok (store s r v)

end Sys2Proof.Machine
end

