-- ==== Sys2Proof/Machine/Lifeline.lean ====
section
/-! DEFINITION. The lifeline core beside its instructions: belay windows (R400, R437), checkpoint, roll-back and lock (R402 to
R405), enabling and disabling (R406 to R408, R652), its interrupts (R397), and writes to the LL_ registers (R409, R417). -/

namespace Sys2Proof.Machine

/-! Belay windows (R400, R437). -/

/-- The belay limit of a core in its own cycles: BELAY of LL_CFG, or LIMIT for the running world (R400, R437). -/
def belayCap (s : State) (c : Nat) : Nat :=
  if c = 4 then (rdF s .llCfg 4 11).toNat
  else (rdF s (.capBelay (partOf s c) (cond (ctxOf s c).safety 1 0)) 0 13).toNat

/-- A belay window is in force. -/
def belayed (s : State) (c : Nat) : Bool :=
  belayCap s c != 0 && ((coreOf s c).belayMark || (coreOf s c).belayIe)

/-- BLY of LL_STAT or CAP_STAT_c, and STW.BLY, show whether a window is in force. -/
def showBelay (s : State) (c : Nat) : State :=
  let b := belayed s c
  let s1 := if c = 4 then wrB s .llStat 8 b else wrB s (.capStat c) 7 b
  setStw s1 c (setBit (ctxOf s1 c).stw 15 b)

/-- A limit has changed: BLY of every core shows whether a window is in force under it. -/
def reviewBelay (s : State) : State :=
  (List.range 5).foldl (fun t c => if bit (ctxOf t c).stw 15 = belayed t c then t else showBelay t c) s

/-- A belay mark opens a window; `frame` is the frame whose ERET ends it on the lifeline core. -/
def openBelay (s : State) (c : Nat) (frame : Addr) : State :=
  showBelay (setCore s c { coreOf s c with belayMark := true, belayFrame := frame }) c

/-- The hold of a belay mark ends. -/
def endMark (s : State) (c : Nat) : State := showBelay (setCore s c { coreOf s c with belayMark := false }) c

/-- SETMODE writes IE: clearing it holds interrupts and switches, setting it ends that hold (R400, R437). -/
def setIe (s : State) (c : Nat) (ie : Bool) : State :=
  let s1 := setStw s c (setBit (ctxOf s c).stw 14 ie)
  showBelay (setCore s1 c { coreOf s1 c with belayIe := !ie }) c

/-- No window remains on a core. -/
def endBelay (s : State) (c : Nat) : State :=
  showBelay (setCore s c { coreOf s c with belayMark := false, belayIe := false }) c

/-- The belay limit passes: the window ends, IE is 1 and BOCNT counts (R400, R437). -/
def belayLimit (s : State) (c : Nat) : State :=
  if belayed s c then
    let s1 := if c = 4 then bumpF s .llRb 12 12 1 else bumpF s (.capBocnt c) 0 12 1
    endBelay (setStw s1 c (setBit (ctxOf s1 c).stw 14 true)) c
  else s

/-! States (R417). -/

/-- STATE of LL_STAT takes a value. -/
def setLl (s : State) (st : BitVec 3) : State := wrF s .llStat 0 st

/-- LEVEL of LL_STAT (R396). -/
def llLevel (s : State) : Nat := (rdF s .llStat 4 4).toNat

/-- LEVEL and STW.PRI take a level. -/
def setLevel (s : State) (k : Nat) : State :=
  let s1 := wrF s .llStat 4 (BitVec.ofNat 4 k)
  setStw s1 4 (setBits (ctxOf s1 4).stw 17 (BitVec.ofNat 6 k))

/-- A lane owned by the lifeline. -/
def lifelineLane (s : State) (n : Nat) : Bool := txOwner s n == 8

/-- The lifeline core locks (R405): its output lanes go safe, and a roll-back in progress is over (R507). -/
def lockLifeline (s : State) : State :=
  let s1 := lanesEnd s (fun _ => true) 5
  report (setLl (lanesSafe s1 (lifelineLane s1) 1) 5)

/-- The word lies in the checkpoint store. -/
def inCheckpoint (key : Nat) : Bool := 0x60010000 ≤ key && key < 0x60010300

/-- The word lies in the local store. -/
def inLocal (key : Nat) : Bool := 0x60000000 ≤ key && key < 0x6000C000

/-- A checkpoint is taken: CYCLE counts and RB clears (R402). -/
def takeCheckpoint (s : State) : State :=
  let s1 := zeroWords { s with checkpoint := some { ctx := ctxOf s 4, level := rdF s .llStat 4 4 } } inCheckpoint
  wrB (wr s1 .llCycle (rd s1 .llCycle + 1)) .llStat 3 false

/-- The word of the checkpoint store is read uncorrectable (R405). -/
def badCheckpoint (s : State) (key : Nat) : Bool :=
  match decodeWord (memAt s key) with
  | .clean => false
  | .ce _ => false
  | _ => true

/-- A comparison mismatch of the pair (R376, R403, R405). -/
def lockstepMismatch (s : State) : State :=
  match (llState s).toNat with
  | 1 => lockLifeline s
  | 3 => lockLifeline s
  | 2 =>
    let recent := s.rollbacks.filter (fun t => decide (s.clock < t + 40000000))
    if rdB s .llStat 3 ∨ 4 ≤ recent.length then lockLifeline s
    else
      let s1 := setLl { s with rollbacks := s.clock :: recent } 3
      lanesSafe s1 (recoveringLane s1) 5
  | _ => s

/-- Steps 3 to 5 of R403, with step 2 where it has not run: the self-test has ended `ok`, the registers of R402 are restored and the pair
runs again. XFP, which R402 does not copy, has a free value. No belay window is in force
afterwards, and none is counted as overrun (DESIGN CHOICE, log 180). -/
def rollbackComplete (s0 : State) (ok : Bool) : State :=
  if llState s0 ≠ 3 then s0
  else
    let s := endLifelineSplices s0
    let r := (List.range 128).foldl (fun (x : Bool × State) i =>
      let key := 0x60010000 + 6 * i
      (x.1 || badCheckpoint x.2 key, (readWord x.2 key 0xFF).2)) (false, s)
    match r.2.checkpoint with
    | none => lockLifeline r.2
    | some k =>
      if ¬ ok ∨ r.1 then lockLifeline r.2
      else
        let f := drawBits 40 r.2
        let x := ctxOf f.2 4
        let s1 := setCtx f.2 4 { freshCtx 128 with
          g := k.ctx.g
          f := k.ctx.f
          m := k.ctx.m
          vd := k.ctx.vd
          vfr := k.ctx.vfr
          stw := k.ctx.stw
          dspS := k.ctx.dspS
          rspS := k.ctx.rspS
          ssp := k.ctx.ssp
          pc := k.ctx.pc
          xfp := f.1
          cid := x.cid }
        let old := coreOf s1 4
        let s2 := setCore s1 4 { stepping := old.stepping, haltFirst := old.haltFirst, haltAsked := old.haltAsked }
        let s3 := showBelay (setLevel s2 k.level.toNat) 4
        lanesEnd (bumpF (wrB (setLl s3 2) .llStat 3 true) .llRb 0 12 1) (fun _ => true) 5

/-! Enabling and disabling (R407, R408). -/

/-- An accepted write of EN = 1 (R407 step 1, R103, R180, R402, R559). -/
def enableLifeline (s : State) (v : Reg24) : State :=
  let s1 := setLl (wr (store s .llCtl v) .llCycle 0) 1
  let s2 := match highestPump s1 with
    | some j => takeLifelinePump s1 j
    | none => s1
  let s3 := requestPower (lifelineHandover s2 8) 15 0
  let s4 := (List.range 127).foldl (fun t n => if rdB t (.dsChStat n) 2 then wrB t (.dsChStat n) 2 false else t) s3
  reconsider s4

/-- Cistern 15 is ON and owned by the lifeline. -/
def cistern15Ready (s : State) : Bool := cisState s 15 == 0 && !inHandover s 15 && cisOwnerOf s 15 == 8

/-- Word `i` of the lifeline image is copied into the local store (R407 step 3). -/
def loadImageWord (s : State) (src i : Nat) : State :=
  match readWord s (src + 6 * i) 0xFF with
  | (w, s1) => setMem s1 (0x60000000 + 6 * i) (if w.poison then .poisoned else { data := w.data })

/-- Steps 2 to 4 of R407: the self-test has ended `ok`; the local store is zeroed and takes the image, and with cistern 15
ready the pair starts at level 8. -/
def enableComplete (s : State) (ok : Bool) : State :=
  if llState s ≠ 1 then s
  else if ¬ ok then lockLifeline s
  else match s.fw.lifeline with
    | none => s
    | some (src, words, _) =>
      if ¬ cistern15Ready s then s
      else
        let s1 := (List.range (Nat.min words 8192)).foldl (fun t i => loadImageWord t src i) (zeroWords s inLocal)
        let old := coreOf s1 4
        let s2 := setCore s1 4 { stepping := old.stepping, haltFirst := old.haltFirst, haltAsked := old.haltAsked }
        let s3 := setCtx s2 4 { freshCtx 128 with pc := 0x60000000 }
        let s4 := { s3 with splices := { s3.splices with trails := s3.splices.trails.erase 128 } }
        let s5 := (List.range 8).foldl (fun t k => wrB t (.llIrq k) 8 false) (wrF s4 .llStat 13 (0 : BitVec 8))
        let s6 := showBelay (setLevel (setLl s5 2) 8) 4
        takeCheckpoint (lanesEnd s6 (fun _ => true) 1)

/-- An accepted write of EN = 0 (R408 step 1); a locked core keeps FOUL_N low until step 3. -/
def disableLifeline (s : State) (v : Reg24) : State :=
  let s1 := store s .llCtl v
  let s2 := setCore s1 4 { coreOf s1 4 with waiting := false, foul := llState s == 5 }
  let s3 := lanesSafe s2 (lifelineLane s2) 1
  report (lifelineHandover (setLl s3 4) (initialOwner s3 0x0F 15))

/-- Step 3 of R408, with step 2 where it has not run: cistern 15 is handed over, the local store is zeroed and the reservations lapse. A
transition of cistern 15 that runs completes first (R203). -/
def disableComplete (s : State) : State :=
  if llState s ≠ 4 ∨ inTransition s 15 then s
  else
    let s3 := completeHandover (endLifelineSplices s) 15
    let s4 := if inHandover s3 15 then completeHandover s3 15 else s3
    let s5 := clearReservedIn (zeroWords s4 inLocal) inLocal
    let s6 := (List.range 128).foldl (fun t n => if rdB t (.dsChStat n) 2 then wrB t (.dsChStat n) 2 false else t) s5
    let s7 := setCore s6 4 { coreOf s6 4 with foul := false }
    reconsider (report (setLl s7 0))

/-! Interrupts (R396, R397). -/

/-- IRQk is pending. -/
def irqPending (s : State) (k : Nat) : Bool := rdB s .llStat (13 + k)

/-- The event line of IRQk fires (R397). -/
def irqFires (s : State) (k : Nat) : State :=
  if irqPending s k then bumpF s .llLost (3 * k) 3 1 else wrB s .llStat (13 + k) true

/-- The lowest pending IRQ below the running level (R396). -/
def irqDue (s : State) : Option Nat := (List.range 8).find? (fun k => irqPending s k && decide (k < llLevel s))

/-- Interrupts are held by IE = 0 or a belay window; with BELAY = 0 neither holds (R396, R400). -/
def irqHeld (s : State) : Bool := belayCap s 4 != 0 && (!bit (ctxOf s 4).stw 14 || belayed s 4)

/-- The probe steps the core with ISTEP = 0: no interrupt and no switch is taken (R604). -/
def stepHolds (s : State) (c : Nat) : Bool := (coreOf s c).stepping && !rdB s .dbgCtl 13

/-- The IRQ that is taken at an instruction boundary outside the SETMODE shadow, delay slots and open chains (R396). -/
def irqEligible (s : State) : Option Nat :=
  if stepHolds s 4 ∨ irqHeld s ∨ (coreOf s 4).shadow ≠ 0 ∨ (coreOf s 4).slot.isSome then none else irqDue s

/-! Writes (R406, R409). -/

/-- A write of LL_CTL (R406, R407, R408, R409). -/
def writeLlCtl (s : State) (a : Auth) (v : Reg24) : Written :=
  let en := bit v 0
  let st := llState s
  let none' := (en && st == 2) || (!en && st == 0)
  judge [ (!(a.anySafSup || a.lifeline), .notPermitted),
      (st == 1 || st == 3 || st == 4 || (en && st == 5), .busy),
      (en && st == 0 && s.fw.lifeline.isNone, .noImage),
      (en && st == 0 && (highestPump s).isNone, .noPump),
      (!(steward s a || (a.lifeline && !en)), .notPermitted) ]
    (if none' then store s .llCtl v else if en then enableLifeline s v else disableLifeline s v)

/-- A write of LL_CFG (R406, R409). -/
def writeLlCfg (s : State) (a : Auth) (v : Reg24) : Written :=
  judge [ (!(a.boot || a.anySafSup), .notPermitted), (writtenOnce s .llCfg v, .writtenOnce),
      (decide (1024 < (bits v 4 11).toNat), .reservedCode), (!(a.boot || steward s a), .notPermitted) ]
    (reviewBelay (store s .llCfg v))

/-- Writes to the LL_ registers. -/
def writeLlBlock (s : State) (a : Auth) (r : Rg) (v : Reg24) : Written :=
  match r with
  | .llCtl => writeLlCtl s a v
  | .llCfg => writeLlCfg s a v
  | .llFvec => judge [(!a.lifeline, .notPermitted)] (store s r v)
  | .llIrq _ =>
    judge [(!a.lifeline, .notPermitted), (bit v 8 && lineOwner s (bits v 0 8).toNat != 8, .notPermitted)] (store s r v)
  | _ => .ok (store s r v)

end Sys2Proof.Machine
end

