-- ==== Sys2Proof/Machine/Ops.lean ====
section
/-! DEFINITION. The operations that the meanings share: data accesses of a core (R32, R55, R58, R147), locking a core
(R405, R439), taking an exception or an interrupt (R398, R399, R421 to R425), the lazy area (R427 to R429), and the return
from an exception (R426). -/

namespace Sys2Proof.Machine

/-! Data accesses of a core. -/

/-- How an access ends: with a value, with the exception it raises, or held at its target. -/
inductive Got (α : Type) where
  | ok (v : α) (s : State)
  | fault (e : Exc) (s : State)
  | held
deriving DecidableEq, Repr

/-- The words that plies `a` to `a + n − 1` touch: the address that stands for each, its first ply and its number of
plies, in ascending order (R57, R58). -/
def pieces : Nat → Nat → Nat → List (Nat × Nat × Nat)
  | 0, _, _ => []
  | fuel + 1, a, n =>
    if n = 0 then []
    else
      let p := plyInWord a
      let k := if n ≤ 6 - p then n else 6 - p
      (a, p, k) :: pieces fuel (a + k) (n - k)

/-- Cause ACCESS (R420): DETAIL bit 0 fetch, bit 1 write, bit 2 shadow stack, bit 3 lazy area. -/
def accessExc (a : Nat) (detail : BitVec 32) : Exc := { cause := 0x04, faddr := BitVec.ofNat 40 a, detail }

/-- Cause DATA_ERROR (R420) at the word of `a`: DETAIL bit 0 fetch, bits 31:16 the syndrome. -/
def dataExc (s : State) (a : Nat) (detail : BitVec 32) : Exc :=
  let key := wordBase (remapped s a)
  let w := memAt s key
  { cause := 0x05, faddr := BitVec.ofNat 40 (wordBase a),
    detail := detail ||| ((Config.eccSyndrome w.err w.fold w.poison).setWidth 32 <<< 16) }

/-- The checks of an access, lowest address first, each of the plies that it takes of a word (R32, R34, R421). -/
def checkPieces (s : State) (w : Who) (k : Kind) (detail : BitVec 32) : List (Nat × Nat × Nat) → Got Unit
  | [] => .ok () s
  | (a, _, n) :: t =>
    match admitted s w a n k with
    | (.held, _) => .held
    | (.refused, s1) => .fault (accessExc a detail) (countFailure s1)
    | (.ok, s1) => checkPieces s1 w k detail t

/-- The plies of checked words as one number, the lowest first; a poisoned word raises DATA_ERROR, which is logged (R147, R165). -/
def gatherPieces (s : State) (w : Who) (detail : BitVec 32) : List (Nat × Nat × Nat) → Got Nat
  | [] => .ok 0 s
  | (a, p, k) :: t =>
    match accessWord s w a with
    | (x, s1) =>
      if x.poison then .fault (dataExc s a (detail &&& 1)) (poisonUsed s1 (wordBase (remapped s1 a)) (viaCaches s1 w a) w.master)
      else match gatherPieces s1 w detail t with
        | .ok v s2 => .ok (x.data.toNat / 2 ^ (12 * p) % 2 ^ (12 * k) + v * 2 ^ (12 * k)) s2
        | r => r

/-- Plies `p` to `p + k − 1` of the word at `a` take the lowest bits of `v` (R55). -/
def putPlies (s : State) (w : Who) (a p k v : Nat) : State :=
  putWord s w a (BitVec.ofNat 6 ((2 ^ k - 1) * 2 ^ p)) (BitVec.ofNat 72 (v % 2 ^ (12 * k) * 2 ^ (12 * p)))

/-- The plies are written to checked words (R55). -/
def scatterPieces (s : State) (w : Who) (v : Nat) : List (Nat × Nat × Nat) → State
  | [] => s
  | (a, p, k) :: t => scatterPieces (putPlies s w a p k v) w (v / 2 ^ (12 * k)) t

/-- The plies are written word by word, each checked on its own, up to the first that is refused (R32, R116). -/
def storePieces (s : State) (w : Who) (v : Nat) (detail : BitVec 32) : List (Nat × Nat × Nat) → Got Unit
  | [] => .ok () s
  | (a, p, k) :: t =>
    match admitted s w a k .write with
    | (.held, _) => .held
    | (.refused, s1) => .fault (accessExc a detail) (countFailure s1)
    | (.ok, s1) => storePieces (putPlies s1 w a p k v) w (v / 2 ^ (12 * k)) detail t

/-- Plies `a` to `a + n − 1` are loaded; the control-register region is no memory here (R653). -/
def loadPlies (s : State) (w : Who) (a n : Nat) (detail : BitVec 32) : Got Nat :=
  let l := pieces n a n
  if l.any (fun x => regionOf x.1 == some .registers) then .fault (accessExc a detail) (countFailure s)
  else match checkPieces s w .read detail l with
    | .ok _ s1 => gatherPieces s1 w detail l
    | .fault e s1 => .fault e s1
    | .held => .held

/-- Plies `a` to `a + n − 1` are stored: a word that passes its check is written although a later one fails it (R116). -/
def storePliesAt (s : State) (w : Who) (a n v : Nat) (detail : BitVec 32) : Got Unit :=
  let l := pieces n a n
  if l.any (fun x => regionOf x.1 == some .registers) then .fault (accessExc a (detail ||| 2)) (countFailure s)
  else storePieces s w v (detail ||| 2) l

/-- Whole words are loaded from word-aligned addresses that follow one another; none is taken when one faults, and a core waits for a store of
its own to one of them (R353). -/
def loadWords (s : State) (w : Who) (a n : Nat) (detail : BitVec 32) : Got (List Word72) :=
  if waitsForStore s w.core a (6 * n) .read then .held
  else match loadPlies s w a (6 * n) detail with
  | .ok v s1 => .ok (wordsOf n v) s1
  | .fault e s1 => .fault e s1
  | .held => .held

/-- Whole words are stored; none is written when one faults, and a core waits for its earlier stores to be visible (R354). -/
def storeWords (s : State) (w : Who) (a : Nat) (l : List Word72) (detail : BitVec 32) : Got Unit :=
  let p := pieces (6 * l.length) a (6 * l.length)
  if waitsForStore s w.core a (6 * l.length) .write then .held
  else if p.any (fun x => regionOf x.1 == some .registers) then .fault (accessExc a (detail ||| 2)) (countFailure s)
  else match checkPieces s w .write (detail ||| 2) p with
    | .ok _ s1 => .ok () (scatterPieces s1 w (natOfWords l) p)
    | r => r

/-! Locks and handlers. -/

/-- A scalar core locks while cause `cause` is entered (R439). -/
def lockCore (s : State) (c : Nat) (cause : BitVec 8) : State :=
  let s1 := wrF (wrF s (.capStat c) 0 (2 : BitVec 2)) (.capStat c) 8 cause
  report (abortSplices s1 (fun p => p.core == c))

/-- The core locks (R405, R439). -/
def lock (s : State) (c : Nat) (cause : BitVec 8) : State := if c = 4 then lockLifeline s else lockCore s c cause

/-- The context in which a core runs, at supervisor level (R422). -/
def supWho (s : State) (c : Nat) : Who := { coreWho s c with sup := true }

/-- The handler of a cause (R398, R399, R422). -/
def handlerOf (s : State) (c : Nat) (cause : BitVec 8) : Addr :=
  if c = 4 then
    let k := cause.toNat - 16
    if 16 ≤ cause.toNat ∧ k < 8 then BitVec.ofNat 40 (0x60000000 + 4 * (rdF s (.llIrq k) 11 13).toNat)
    else BitVec.ofNat 40 (0x60000000 + 4 * (rdF s .llFvec 0 13).toNat)
  else
    BitVec.ofNat 40 ((rd s (.capVbase c (cond (ctxOf s c).safety 1 0))).toNat * 0x10000 + 64 * cause.toNat)

/-! Fetch (R147, R347, R350, R351, R360, R378). -/

/-- The check of a fetch of `n` plies (R34, R114, R176, R189, R347, R351, R378): the lifeline core fetches from its local store and window
zero only, a scalar core in loop-buffer mode from window zero only. -/
def fetchCheck (s : State) (c : Nat) (w : Who) (a n : Nat) : Verdict × State :=
  if c = 4 ∧ regionOf a ≠ some .localStore ∧ regionOf a ≠ some .window then (.refused, s)
  else if c < 4 ∧ loopMode s = true ∧ regionOf a ≠ some .window then (.refused, s)
  else admitted s w a n .exec

/-- The line buffer holds the line of an address, fetched with the rights of `w` (R350, R360). -/
def heldLine (s : State) (c : Nat) (w : Who) (a : Nat) : Option HeldLine :=
  (coreOf s c).lineBuf.find? (fun l => l.line == lineOf a && l.code == w.code && l.safety == w.safety && l.sup == w.sup)

/-- The line of an address as the line buffer takes it, through the instruction cache where its region is cached (R350). -/
def takeLine (s : State) (c : Nat) (w : Who) (a : Nat) : HeldLine × State :=
  let r := if viaCaches s w a then l1Read s c true a w.master
    else
      let q := readMany (fun t k => fetchWord t k w.master) ((lineKeys (lineOf a)).filter (fun k => regionOf k == regionOf a)) s
      (q.1.map (fun x => (x.data, x.poison)), q.2)
  ({ line := lineOf a, words := r.1, code := w.code, safety := w.safety, sup := w.sup }, r.2)

/-- The line buffer holds line `l`, which is being fetched, and the next sequential one; a next line that may not be fetched now is not there
(R350; log 133). -/
def holdLines (s : State) (c : Nat) (w : Who) (l : HeldLine) : State :=
  let b := l.line + 48
  let next : List HeldLine × State :=
    match heldLine s c w b with
    | some x => ([x], s)
    | none =>
      match fetchCheck s c w b 1 with
      | (.ok, s1) => let r := takeLine s1 c w b; ([r.1], r.2)
      | _ => ([], s)
  setCore next.2 c { coreOf next.2 c with lineBuf := l :: next.1 }

/-- The first ply of the block of window zero that holds ply `a` (R351). -/
def blockOf (a : Nat) : Nat := a / 1024 * 1024

/-- The loop buffer takes the block of ply `a`: its words are read, and their poison marks kept (R351). -/
def takeBlock (s : State) (c : Nat) (w : Who) (a : Nat) : List Bool × State :=
  let b := blockOf a
  let k0 := b / 6
  let keys := (List.range ((b + 1023) / 6 - k0 + 1)).map (fun i => 6 * (k0 + i))
  let r := readMany (fun t k => fetchWord t k w.master) keys s
  let marks := r.1.map (fun x => x.poison)
  (marks, setCore r.2 c { coreOf r.2 c with loopBlock := some (b, marks) })

/-- The poison mark of the word at `a` as a fetch of `n` of its plies meets it: what is held already is neither checked nor read again (R350,
R351, R360). -/
def fetchPiece (s : State) (c : Nat) (w : Who) (a n : Nat) : Got Bool :=
  let take := fun (f : State → Bool × State) =>
    match fetchCheck s c w a n with
    | (.refused, s1) => .fault (accessExc a 1) (countFailure s1)
    | (.held, _) => .held
    | (.ok, s1) => match f s1 with | (p, s2) => .ok p s2
  let mark := fun l : List Bool => l.getD (a / 6 - blockOf a / 6) false
  if c = 4 then take (fun t => match fetchWord t a w.master with | (x, u) => (x.poison, u))
  else if loopMode s then
    match (coreOf s c).loopBlock with
    | some (b, l) =>
      if b = blockOf a ∧ regionOf a = some .window then .ok (mark l) s
      else take (fun t => match takeBlock t c w a with | (m, u) => (mark m, u))
    | none => take (fun t => match takeBlock t c w a with | (m, u) => (mark m, u))
  else match heldLine s c w a with
    | some l => .ok (l.words.getD (lineSlot a) (0, false)).2 (holdLines s c w l)
    | none => take (fun t => match takeLine t c w a with | (l, u) => ((l.words.getD (lineSlot a) (0, false)).2, holdLines u c w l))

/-- The words of an instruction are fetched, the lowest address first: ACCESS, or DATA_ERROR at a poisoned word, which is logged (R147, R165,
R421). -/
def fetchPieces (s : State) (c : Nat) (w : Who) : List (Nat × Nat × Nat) → Got Unit
  | [] => .ok () s
  | (a, _, n) :: t =>
    match fetchPiece s c w a n with
    | .held => .held
    | .fault e s1 => .fault e s1
    | .ok p s1 =>
      if p then .fault (dataExc s a 1) (poisonUsed s1 (wordBase (remapped s1 a)) (viaCaches s1 w a) w.master) else fetchPieces s1 c w t

/-- The instruction at `a` is fetched (R315). -/
def fetchAt (s : State) (c : Nat) (w : Who) (a : Nat) : Got Unit := fetchPieces s c w (pieces 4 a 4)

/-- Fetched instructions are discarded: ISYNC, ERET, XRET (R338). -/
def discardFetched (s : State) (c : Nat) : State := setCore s c { coreOf s c with lineBuf := [], loopBlock := none }

/-! Frames (R423). -/

/-- A loop word (R395). -/
def loopWord (l : Option Loop) : Word72 :=
  match l with
  | none => 0
  | some l => BitVec.ofNat 72 (l.start.toNat + l.count.toNat * 2 ^ 40 + l.k.toNat * 2 ^ 64 + 2 ^ 71)

/-- The level that a loop word holds. -/
def loopOf (w : Word72) : Option Loop :=
  if bit w 71 then some { start := bits w 0 40, count := bits w 40 24, k := bits w 64 7 } else none

/-- The 16 words of a frame for a context, frame PC `pc` and a branch target for a slot (R423). -/
def frameWords (x : Ctx) (loops : List Loop) (e : Exc) (pc : Addr) (slot : Option Addr) : List Word72 :=
  let a := fun v : Addr => v.setWidth 72
  [ BitVec.ofNat 72 (pc.toNat + e.cause.toNat * 2 ^ 40 + e.reason.toNat * 2 ^ 48 + cond slot.isSome (2 ^ 56) 0),
    x.stw.setWidth 72,
    BitVec.ofNat 72 (e.faddr.toNat + e.detail.toNat * 2 ^ 40),
    a (slot.getD 0), a x.dspU, a x.dspS, a x.rspU, a x.rspS, a x.ssp, a x.xfp,
    loopWord loops[0]?, loopWord loops[1]?, loopWord loops[2]?,
    (x.gr 1).setWidth 72, (x.gr 2).setWidth 72, (x.gr 3).setWidth 72 ]

/-- The address of the frame that entry makes: D − 480, where D is DSP_S rounded down to a word (R424). -/
def newFrame (x : Ctx) : Addr := BitVec.ofNat 40 (wordBase x.dspS.toNat) - 480

/-- STW at entry: LVL 1; LZ, FLAGS and SATS 0 (R425). -/
def entryStw (w : W48) : W48 := setBit (setBit (setBits w 0 (0 : BitVec 6)) 16 false) 12 true

/-- What a core keeps beside its context after an entry: no reservation, slot, loop or shadow (R336, R395, R425). -/
def entryCore (x : CoreSt) : CoreSt := { x with reservation := none, slot := none, loops := [], shadow := 0, closing := false }

/-- Frames of the lifeline core lie in its local store (R398). -/
def frameOutside (c : Nat) (a : Addr) : Bool := c == 4 && !(inLocal a.toNat && inLocal (a.toNat + 95))

/-- A core enters the handler of `e` with frame PC `pc` (R424, R425); a fault of the entry, the fetch of the first handler instruction among
it, locks the core (R405, R439), and none means that a word of the frame or that fetch is held. -/
def enter (s : State) (c : Nat) (e : Exc) (pc : Addr) : Option State :=
  let x := ctxOf s c
  let a := newFrame x
  let st := coreOf s c
  if frameOutside c a then some (lock s c e.cause)
  else match storeWords s (supWho s c) a.toNat (frameWords x (if c = 4 then st.loops else []) e pc st.slot) 0 with
    | .held => none
    | .fault _ s1 => some (lock s1 c e.cause)
    | .ok _ s1 =>
      let h := handlerOf s1 c e.cause
      let y := ctxOf s1 c
      let s2 := setCtx s1 c { y with xfp := a, dspS := a, stw := entryStw y.stw, pc := h, chain := [], chainPc := 0 }
      let s3 := setCore s2 c (entryCore (coreOf s2 c))
      match fetchAt s3 c (supWho s3 c) h.toNat with
      | .fault _ s4 => some (lock s4 c e.cause)
      | .ok _ s4 => some s4
      | .held => none

/-- The lifeline core takes IRQk with frame PC `pc` (R397, R398). -/
def takeIrq (s : State) (k : Nat) (pc : Addr) : Option State :=
  let s1 := wrB s .llStat (13 + k) false
  match enter s1 4 { cause := BitVec.ofNat 8 (16 + k) } pc with
  | none => none
  | some s2 =>
    if llState s2 ≠ 2 then some s2
    else
      let s3 := setLevel s2 k
      let s4 := if rdB s3 (.llIrq k) 9 then openBelay s3 4 (ctxOf s3 4).xfp else s3
      some (if rdB s4 (.llIrq k) 10 then takeCheckpoint s4 else s4)

/-- The frame PC of an exception (R420): the next instruction for SVC and BREAK, but the slot for one that a slot raises (R389). -/
def framePc (s : State) (c : Nat) (e : Exc) : Addr :=
  if (e.cause = 0x09 ∨ e.cause = 0x0B) ∧ (coreOf s c).slot = none then pcOf s c + 4 else pcOf s c

/-- An instruction raises an exception; on the lifeline core an interrupt that is eligible is taken instead (R399), an
open chain holding it (R222). None
means that the entry is held. -/
def raise (s : State) (c : Nat) (e : Exc) : Option State :=
  match (if c = 4 ∧ (ctxOf s 4).chain = [] then irqEligible s else none) with
  | some k => takeIrq s k (pcOf s c)
  | none => enter s c e (framePc s c e)

/-! The lazy area (R427 to R429). -/

/-- A 144-bit value as two words. -/
def pairWords (v : BitVec 144) : List Word72 := [bits v 0 72, bits v 72 72]

/-- F, M, VD and VFR of a context in the layout of R428. -/
def lazyWords (x : Ctx) : List Word72 :=
  let f := fun i => if i < 32 then (x.fr i).toNat else 0
  (List.range 11).flatMap (fun j =>
    pairWords (BitVec.ofNat 144 (f (3 * j) + f (3 * j + 1) * 2 ^ 48 + f (3 * j + 2) * 2 ^ 96))) ++
  pairWords (BitVec.ofNat 144 ((List.range 8).foldl (fun v k => v + (x.mr k).toNat * 2 ^ (16 * k)) 0)) ++
  (List.range 16).flatMap (fun d => pairWords (x.vdr d)) ++ [x.vfr]

/-- Two words as a 144-bit value. -/
def wordPair (l : List Word72) (i : Nat) : BitVec 144 := (l.getD (i + 1) 0) ++ (l.getD i 0)

/-- A context with the state that words in the layout of R428 hold. -/
def ofLazy (x : Ctx) (l : List Word72) : Ctx :=
  let x1 := (List.range 32).foldl (fun y i => y.setFr i (bits (wordPair l (2 * (i / 3))) (48 * (i % 3)) 48)) x
  let x2 := (List.range 8).foldl (fun y k => y.setMr k (bits (wordPair l 22) (16 * k) 16)) x1
  let x3 := (List.range 16).foldl (fun y d => y.setVdr d (wordPair l (24 + 2 * d))) x2
  { x3 with vfr := l.getD 56 0 }

/-- STW.LZ (R312). -/
def Ctx.lz (x : Ctx) : Bool := bit x.stw 16

/-- The interrupt that is taken during the lazy-area fill of a slot instruction, for which the slot holds nothing back (R382, R388). -/
def slotIrq (s : State) : Option Nat := if (coreOf s 4).slot.isSome then irqEligible (setCore s 4 { coreOf s 4 with slot := none }) else none

/-- The lazy area of the current frame is filled when it is due (R427). -/
def lazyFill (s : State) (c : Nat) : Got Unit :=
  let x := ctxOf s c
  if x.xfp = 0 ∨ x.lz then .ok () s
  else match storeWords s (coreWho s c) (x.xfp.toNat + 96) (lazyWords x ++ List.replicate 7 0) 8 with
    | .ok _ s1 => .ok () (setStw s1 c (setBit (ctxOf s1 c).stw 16 true))
    | r => r

/-- The lazy area of the frame being left is reloaded when LZ is 1 (R429). -/
def lazyReload (s : State) (c : Nat) : Got Unit :=
  let x := ctxOf s c
  if ¬ x.lz then .ok () s
  else match loadWords s (coreWho s c) (x.xfp.toNat + 96) 57 8 with
    | .ok l s1 => .ok () (setCtx s1 c (ofLazy (ctxOf s1 c) l))
    | .fault e s1 => .fault e s1
    | .held => .held

/-! Return (R426). -/

/-- A rounding-mode code of R64 that is not reserved. -/
def roundOk (rm : BitVec 3) : Bool := rm.toNat ≤ 4

/-- STW as a return restores it from `new` over `old` (R426): WORLD and BLY stay, PRI on a scalar core, LVL 1 on the lifeline
core; reserved bits stay 0. -/
def returnStw (c : Nat) (old new : W48) : W48 :=
  let w := setBits (setBits new 11 (0 : BitVec 1)) 23 (0 : BitVec 25)
  let w1 := setBit (setBit w 13 (bit old 13)) 15 (bit old 15)
  let w2 := if roundOk (bits w1 6 3) then w1 else setBits w1 6 (bits old 6 3)
  if c = 4 then setBit w2 12 true else setBits w2 17 (bits old 17 6)

/-- The context that a frame restores (R426 steps 3 to 5). -/
def ofFrame (c : Nat) (x : Ctx) (l : List Word72) : Ctx :=
  let a := fun i : Nat => bits (l.getD i 0) 0 40
  let g := fun i : Nat => bits (l.getD i 0) 0 48
  { ((x.setGr 1 (g 13)).setGr 2 (g 14)).setGr 3 (g 15) with
    dspU := if c = 4 then 0 else a 4
    dspS := a 5
    rspU := if c = 4 then 0 else a 6
    rspS := a 7
    ssp := a 8
    xfp := a 9
    stw := returnStw c x.stw (g 1)
    pc := pcAlign (a 0) }

/-- The loop levels that a frame restores, innermost first (R395). -/
def frameLoops (l : List Word72) : List Loop := [10, 11, 12].filterMap (fun i => loopOf (l.getD i 0))

/-- Cause CONTROL_FLOW (R420). -/
def controlFlow (a : Addr) : Exc := { cause := 0x06, faddr := a }

/-- ERET (R426). -/
def returnFrom (s : State) (c : Nat) : Got Unit :=
  let x := ctxOf s c
  if x.xfp = 0 then .fault (controlFlow 0) s
  else match loadWords s (coreWho s c) x.xfp.toNat 16 0 with
    | .held => .held
    | .fault e s1 => .fault e s1
    | .ok l s1 =>
      if bits (l.getD 0 0) 40 8 = (0x1E : BitVec 8) then .fault (controlFlow 0) s1
      else match lazyReload s1 c with
        | .held => .held
        | .fault e s2 => .fault e s2
        | .ok _ s2 =>
          let y := ctxOf s2 c
          let s3 := discardFetched (setCtx s2 c (ofFrame c y l)) c
          let st := coreOf s3 c
          let ds := bit (l.getD 0 0) 56
          let s4 := setCore s3 c { st with
            reservation := none
            slot := if ds then some (pcAlign (bits (l.getD 3 0) 0 40)) else none
            loops := if c = 4 then frameLoops l else []
            shadow := 0 }
          let s5 := if c = 4 then setLevel s4 (Nat.min 8 (bits (l.getD 1 0) 17 6).toNat) else s4
          .ok () (if c = 4 ∧ st.belayMark ∧ st.belayFrame = x.xfp then endBelay s5 c else s5)

end Sys2Proof.Machine
end

