-- ==== Sys2Proof/Machine/Capstan.lean ====
section
/-! DEFINITION. Capstan: task slots and their states (R442 to R446), spills, fills and switches (R443, R447), WAIT (R444), and
writes to the CAP_ registers (R438, R453, R454). -/

namespace Sys2Proof.Machine

/-! Task slots (R442, R452). -/

/-- STATE of a slot: 0 INVALID, 1 WAITING, 2 READY, 3 RUNNING, 4 FAULTED. -/
def taskState (s : State) (c t : Nat) : BitVec 3 := rdF s (.capTsk c t 3) 0 3

/-- It takes a value. -/
def setTask (s : State) (c t : Nat) (st : BitVec 3) : State := wrF s (.capTsk c t 3) 0 st

/-- Home world of a slot: safety. -/
def taskWorld (s : State) (c t : Nat) : Bool := rdB s (.capTsk c t 1) 16

/-- VALID of a slot. -/
def taskValid (s : State) (c t : Nat) : Bool := rdB s (.capTsk c t 1) 17

/-- PRI of a slot. -/
def taskPri (s : State) (c t : Nat) : Nat := (rdF s (.capTsk c t 2) 0 6).toNat

/-- The owner code that a task carries (R31). -/
def taskCode (s : State) (c t : Nat) : OwnerCode := ownerCode (partOf s c) (taskWorld s c t)

/-- The task is resident in a bank. -/
def resident (s : State) (c t : Nat) : Bool := rdB s (.capTsk c t 3) 3

/-- The bank of a resident task. -/
def taskBank (s : State) (c t : Nat) : Nat := (rdF s (.capTsk c t 3) 4 5).toNat

/-- RES and BANK show the bank that holds a task; none for no bank. XC follows from its context when it is read. -/
def setBank (s : State) (c t : Nat) (b : Option Nat) : State :=
  match b with
  | some b => wrF (wrB s (.capTsk c t 3) 3 true) (.capTsk c t 3) 4 (BitVec.ofNat 5 b)
  | none => wrF s (.capTsk c t 3) 3 (0 : BitVec 7)

/-- The task whose STATE is RUNNING. -/
def runningTask (s : State) (c : Nat) : Option Nat := (List.range 64).find? (fun t => taskState s c t == 3)

/-- The core is idle (R452). -/
def coreIdle (s : State) (c : Nat) : Bool := rdF s (.capStat c) 0 2 == 1

/-- A fault bank of the core runs (R447). -/
def inFaultBank (s : State) (c : Nat) : Bool := rdF s (.capStat c) 0 2 == 0 && bankOf s c < 4

/-- Capstan as an accessor of a task control block (R443). The level is supervisor (DESIGN CHOICE, log 182). -/
def tcbWho (s : State) (c t : Nat) : Who :=
  { code := taskCode s c t, safety := taskWorld s c t, sup := true, core := c, master := BitVec.ofNat 8 (16 + c) }

/-- Word `i` of the task control block of a slot. -/
def tcbWord (s : State) (c t i : Nat) : Nat := tcbOf s c t + 6 * i

/-- The context is inside an XCALL (R434). -/
def Ctx.inXcall (x : Ctx) : Bool := bit x.xc 40

/-- A task leaves the lists of READY tasks. -/
def CapSt.without (x : CapSt) (t : Nat) : CapSt := { x with ready := x.ready.filter (· != t), woken := x.woken.filter (· != t) }

/-- A task becomes READY, in the present tick (R445). -/
def makeReady (s : State) (c t : Nat) : State :=
  let x := capOf s c
  setCap (setTask s c t 2) c { x with ready := x.ready.filter (· != t) ++ [t], readyAt := x.readyAt.insert t (s.clock, s.events.now) }

/-- The event line of a task fires (R439, R444). -/
def wakeTask (s : State) (c t : Nat) : State :=
  let lost := bumpF s (.capTsk c t 3) 10 8 1
  if coreLocked s c then lost
  else match (taskState s c t).toNat with
    | 1 =>
      let s1 := makeReady s c t
      setCap s1 c { capOf s1 c with woken := t :: (capOf s1 c).woken }
    | 2 => lost
    | 3 => lost
    | _ => s

/-- The bank of a slot is emptied without a spill (R442). -/
def emptyBank (s : State) (c t : Nat) : State :=
  let x := capOf s c
  if resident s c t then
    let b := taskBank s c t
    setCap (setCtxAt (setBank s c t none) (ctxKey c b) (freshCtx (ctxKey c b))) c
      { x with stuck := x.stuck.filter (· != b), runOrder := x.runOrder.filter (· != b) }
  else s

/-- A slot becomes INVALID. -/
def invalidate (s : State) (c t : Nat) : State :=
  let s1 := setTask (emptyBank s c t) c t 0
  let x := (capOf s1 c).without t
  setCap s1 c { x with leaving := x.leaving.filter (fun y => y.1 != t), cids := x.cids.erase t }

/-! Spill and fill (R443, R446, R447). -/

/-- Words 80 to 182 of a task control block (R443). -/
def imageWords (x : Ctx) : List Word72 :=
  let a := fun v : Addr => v.setWidth 72
  (List.range 31).map (fun i => (x.gr (i + 1)).setWidth 72) ++ lazyWords x ++
  [a x.pc, x.stw.setWidth 72, a x.dspU, a x.dspS, a x.rspU, a x.rspS, a x.ssp, a x.xfp,
   x.xc.setWidth 72, x.xstw.setWidth 72, a x.xdspU, a x.xdspS, a x.xrspU, a x.xrspS, a x.xxfp]

/-- The context that those words hold. A reserved rounding-mode code in STW or XSTW comes back as it stands, and rounds as truncation (DESIGN
CHOICE, log 134). -/
def ofImage (l : List Word72) : Ctx :=
  let a := fun i : Nat => bits (l.getD i 0) 0 40
  let g := fun i : Nat => bits (l.getD i 0) 0 48
  let x0 : Ctx := (List.range 31).foldl (fun y i => y.setGr (i + 1) (g i)) {}
  { ofLazy x0 (l.drop 31) with
    pc := pcAlign (a 88), stw := g 89 &&& 0x7FF7FF, dspU := a 90, dspS := a 91, rspU := a 92, rspS := a 93, ssp := a 94, xfp := a 95,
    xc := g 96, xstw := g 97, xdspU := a 98, xdspS := a 99, xrspU := a 100, xrspS := a 101, xxfp := a 102 }

/-- A spill or a fill of slot `t` fails: the task is FAULTED, its control block notes the cause, and the fault bank of its
home world is due (R443, R447). The cause noted is that of the spill
or fill fault itself (DEDUCED, log 181). -/
def taskFault (s : State) (c t : Nat) (cause : BitVec 8) (e : Exc) : State :=
  let s1 := setTask s c t 4
  let x := (capOf s1 c).without t
  let f : CapFault := { bank := cond (taskWorld s1 c t) 2 0, cause, task := t, underlying := e.cause, addr := e.faddr }
  let s2 := setCap s1 c { x with faults := x.faults ++ [f] }
  match loadPlies s2 (tcbWho s2 c t) (tcbWord s2 c t 6) 2 0 with
  | .ok v s3 =>
    match storePliesAt s3 (tcbWho s3 c t) (tcbWord s3 c t 6) 2 (v % 256 + cause.toNat * 256) 0 with
    | .ok _ s4 => s4
    | _ => s2
  | _ => s2

/-- The bits of word 6 with IMAGE set to `b`. -/
def setImage (s : State) (c t : Nat) (b : Bool) : Got Unit :=
  match loadPlies s (tcbWho s c t) (tcbWord s c t 6) 1 0 with
  | .ok v s1 => storePliesAt s1 (tcbWho s1 c t) (tcbWord s1 c t 6) 1 (v / 2 * 2 + cond b 1 0) 0
  | .fault e s1 => .fault e s1
  | .held => .held

/-- A victim's bank is spilled: words 80 to 182 and IMAGE are written, and the bank is free (R447). -/
def spill (s : State) (c t : Nat) : Got Unit :=
  let x := ctxAt s (ctxKey c (taskBank s c t))
  match storeWords s (tcbWho s c t) (tcbWord s c t 80) (imageWords x) 0 with
  | .held => .held
  | .fault e s1 => .fault e s1
  | .ok _ s1 =>
    match setImage s1 c t true with
    | .held => .held
    | .fault e s2 => .fault e s2
    | .ok _ s2 =>
      let s3 := emptyBank s2 c t
      let y := capOf s3 c
      .ok () (bumpF (setCap s3 c { y with cids := y.cids.insert t x.cid }) (.capBocnt c) 12 12 1)

/-- A new context of a task (R309, R443). -/
def newContext (s : State) (c t : Nat) (l : List Word72) : Ctx :=
  let a := fun i : Nat => bits (l.getD i 0) 0 40
  let stw : W48 := setBits (setBit 0x4000 13 (taskWorld s c t)) 17 (BitVec.ofNat 6 (taskPri s c t))
  { pc := pcAlign (a 0), dspU := a 1, dspS := a 2, rspU := a 3, rspS := a 4, ssp := a 5, stw, cid := s.splices.nextCid }

/-- A context's fault record that waited for a bank is in its VFR (R253, log 41). -/
def takeRecord (s : State) (x : Ctx) : Ctx × State :=
  let t := trailOf s x.cid
  match t.record with
  | some v => ({ x with vfr := v }, setTrail s x.cid { t with record := none })
  | none => (x, s)

/-- A number for a new context. -/
def nextCid (s : State) : State := { s with splices := { s.splices with nextCid := s.splices.nextCid + 1 } }

/-- A task's context comes into bank `b`: new when IMAGE is 0, otherwise from words 80 to 182, clearing IMAGE (R443,
R447). -/
def fill (s : State) (c t b : Nat) : Got Unit :=
  let w := tcbWho s c t
  match loadPlies s w (tcbWord s c t 6) 1 0 with
  | .held => .held
  | .fault e s1 => .fault e s1
  | .ok v s1 =>
    if v % 2 = 0 then
      match loadWords s1 w (tcbWord s1 c t 0) 6 0 with
      | .held => .held
      | .fault e s2 => .fault e s2
      | .ok l s2 => .ok () (nextCid (setBank (setCtxAt s2 (ctxKey c b) (newContext s2 c t l)) c t (some b)))
    else
      match loadWords s1 w (tcbWord s1 c t 80) 103 0 with
      | .held => .held
      | .fault e s2 => .fault e s2
      | .ok l s2 =>
        match setImage s2 c t false with
        | .held => .held
        | .fault e s3 => .fault e s3
        | .ok _ s3 =>
          let old := (capOf s3 c).cids.find t
          let x := { ofImage l with cid := old.getD s3.splices.nextCid }
          let s4 := if old.isSome then s3 else nextCid s3
          let r := takeRecord s4 x
          let s5 := setBank (setCtxAt r.2 (ctxKey c b) r.1) c t (some b)
          .ok () (setCap s5 c { capOf s5 c with cids := (capOf s5 c).cids.erase t })

/-- Banks 4 to 31 that hold no task (R446). -/
def freeBanks (s : State) (c : Nat) : List Nat :=
  (List.range 32).filter (fun b => 4 ≤ b && b ∉ (capOf s c).stuck && (slotOfBank s c b).isNone)

/-- How long ago a bank last ran: its place in the order, the least recently run last. -/
def lastRun (s : State) (c b : Nat) : Nat := (capOf s c).runOrder.findIdx (· == b)

/-- The tasks that may be spilled (R446). -/
def spillable (s : State) (c : Nat) : List Nat :=
  (List.range 64).filter (fun t =>
    resident s c t && (taskState s c t == 1 || taskState s c t == 2) && 4 ≤ taskBank s c t &&
      taskBank s c t ∉ (capOf s c).stuck && !(ctxAt s (ctxKey c (taskBank s c t))).inXcall)

/-- The victim: lowest priority, WAITING before READY, least recently run (R446). -/
def spillVictim (s : State) (c : Nat) : Option Nat :=
  best (fun t u =>
    let p := taskPri s c t
    let q := taskPri s c u
    p < q || (p == q && ((taskState s c t == 1 && taskState s c u == 2) ||
      (taskState s c t == taskState s c u && lastRun s c (taskBank s c u) < lastRun s c (taskBank s c t))))) (spillable s c)

/-! Switches (R445, R447). -/

/-- READY task `t` goes before `u`, which became ready no later: it has a higher priority, or the same one, became ready in the same event tick,
and has the lower slot number (R445). -/
def goesBefore (s : State) (c t u : Nat) : Bool :=
  let x := capOf s c
  decide (taskPri s c u < taskPri s c t) ||
    (taskPri s c t == taskPri s c u && (x.readyAt.get t (0, 0)).2 == (x.readyAt.get u (0, 0)).2 &&
      (x.readyAt.get t (0, 0)).1 == (x.readyAt.get u (0, 0)).1 && decide (t < u))

/-- The READY task that Capstan runs next: highest priority, earliest ready, lowest slot (R445). -/
def chosenTask (s : State) (c : Nat) : Option Nat := best (goesBefore s c) (capOf s c).ready

/-- What runs on the core gives way: a running task becomes READY, and an open chain in its interruptible wait is discarded
(R222, R445). -/
def giveWay (s : State) (c : Nat) : State :=
  let x := ctxOf s c
  let s1 := if rdF s (.capStat c) 0 2 = 0 ∧ x.chain ≠ [] then setCtx s c { x with pc := x.chainPc, chain := [], chainPc := 0 } else s
  let s2 := setCore s1 c { coreOf s1 c with reservation := none, closing := false }
  match runningTask s2 c with
  | some t => makeReady s2 c t
  | none => s2

/-- Bank `b` runs. -/
def runBank (s : State) (c b : Nat) : State :=
  let s1 := wrF (wrF s (.capStat c) 0 (0 : BitVec 2)) (.capStat c) 2 (BitVec.ofNat 5 b)
  let x := capOf s1 c
  setCap s1 c { x with runOrder := b :: x.runOrder.filter (· != b) }

/-- A resident task runs; a belayed one opens its window when it has been made ready (R437). -/
def runTask (s : State) (c t : Nat) : State :=
  let s1 := giveWay s c
  let fresh := t ∈ (capOf s1 c).woken
  let s2 := runBank (setTask s1 c t 3) c (taskBank s1 c t)
  let s3 := setCap s2 c ((capOf s2 c).without t)
  let s4 := endBelay s3 c
  if fresh ∧ rdB s4 (.capTsk c t 2) 14 then openBelay s4 c 0 else s4

/-- A fault bank is entered at supervisor level of its world: its frame is written, and G1 to G3 hold the task, the
underlying cause and the address (R420, R447). None means that a word of the frame is held. -/
def enterFaultBank (s : State) (c : Nat) (f : CapFault) : Option State :=
  let s1 := endBelay (runBank (giveWay s c) c f.bank) c
  let s2 := setCap s1 c { capOf s1 c with faults := dropOne f (capOf s1 c).faults }
  let x := ctxOf s2 c
  let s3 := setCtx s2 c { x with stw := setBit (setBit x.stw 13 (f.bank == 2)) 12 true, chain := [] }
  let h := handlerOf s3 c f.cause
  let s4 := setPc s3 c h
  let e : Exc := { cause := f.cause, faddr := f.addr, detail := f.underlying.setWidth 32 }
  match enter s4 c e h with
  | none => none
  | some s5 =>
    if coreLocked s5 c then some s5
    else
      let y := ctxOf s5 c
      some (setCtx s5 c (((y.setGr 1 (BitVec.ofNat 48 f.task)).setGr 2 (f.underlying.setWidth 48)).setGr 3 (f.addr.setWidth 48)))

/-- The fault that waits for its bank: the lower bank number first (R450). -/
def dueFault (s : State) (c : Nat) : Option CapFault := best (fun f g => f.bank < g.bank) (capOf s c).faults

/-- A switch is allowed at this boundary (R445). -/
def switchAllowed (s : State) (c : Nat) : Bool :=
  inRun s && (phase s == 0 || phase s == 1) && !halted s c && !coreLocked s c && !stepHolds s c &&
    (coreIdle s c || (!belayed s c && (coreOf s c).shadow == 0 && (coreOf s c).slot.isNone &&
      ((ctxOf s c).chain == [] || (coreOf s c).closing)))

/-- The chosen task is brought into a bank and runs; a spill or fill that fails enters the fault bank (R446, R447). -/
def fillAndRun (s : State) (c t b : Nat) : State :=
  match fill s c t b with
  | .held => s
  | .ok _ s1 => runTask s1 c t
  | .fault e s1 =>
    let s2 := taskFault (setBank s1 c t none) c t 0x19 e
    match (dueFault s2 c).bind (enterFaultBank s2 c) with
    | some s3 => s3
    | none => s2

/-- A free bank is taken, which one being the device's choice (R446); with none a victim is spilled first. -/
def bringIn (s : State) (c t : Nat) : State :=
  match freeBanks s c with
  | b :: l =>
    let r := drawNat s
    fillAndRun r.2 c t ((b :: l).getD (r.1 % (l.length + 1)) b)
  | [] =>
    match spillVictim s c with
    | none => s
    | some v =>
      let b := taskBank s c v
      match spill s c v with
      | .held => s
      | .ok _ s1 => fillAndRun s1 c t b
      | .fault e s1 =>
        let s2 := taskFault s1 c v 0x18 e
        let s3 := setCap s2 c { capOf s2 c with stuck := b :: (capOf s2 c).stuck }
        match (dueFault s3 c).bind (enterFaultBank s3 c) with
        | some s4 => s4
        | none => s3

/-- Capstan switches when it is allowed and due (R445 to R447). -/
def capstanSwitch (s : State) (c : Nat) : State :=
  if ¬ switchAllowed s c ∨ inFaultBank s c then s
  else match dueFault s c with
    | some f => (enterFaultBank s c f).getD s
    | none =>
      match chosenTask s c with
      | none => s
      | some t =>
        let better := match runningTask s c with
          | some r => decide (taskPri s c r < taskPri s c t)
          | none => true
        if better = false then s
        else if resident s c t then runTask s c t
        else bringIn s c t

/-- WAIT by the running task or fault bank of a scalar core: it yields, and the core is idle until the next switch (R437,
R442, R444, R447). -/
def yieldBank (s : State) (c : Nat) : State :=
  let s1 := endBelay s c
  let s2 := wrF s1 (.capStat c) 0 (1 : BitVec 2)
  match runningTask s2 c with
  | some t =>
    match (capOf s2 c).leaving.find? (fun x => x.1 == t) with
    | some x => invalidate (store s2 (.capTsk c t 1) x.2) c t
    | none => setTask s2 c t 1
  | none => s2

/-! Writes (R438, R453, R454). -/

/-- Supervisor code of partition `p` in either world. -/
def Auth.supPart (a : Auth) (p : Nat) : Bool := a.sup && (a.code == ownerCode p false || a.code == ownerCode p true)

/-- A writer of the task slots of partition `p`: its supervisor code, and boot firmware, which gives each core its first task (R580). -/
def Auth.taskPart (a : Auth) (p : Nat) : Bool := a.boot || a.supPart p

/-- A writer of the tasks of world `w` among them. -/
def Auth.taskWorld (a : Auth) (p : Nat) (w : Bool) : Bool := a.boot || a.supOf p w

/-- The 192 words of a task control block lie, word-aligned, within one region (R443, R454). -/
def tcbOk (a : Nat) : Bool := (regionOf a).isSome && plyInWord a == 0 && regionOf (a + 6 * 192 - 1) == regionOf a

/-- A write of CAP_TSK_c_t_j (R442, R453, R454). One with VALID = 0 to the slot of a running task waits, whole, for its next WAIT. -/
def writeTask (s : State) (a : Auth) (c t j : Nat) (v : Reg24) : Written :=
  let p := partOf s c
  let held := taskValid s c t
  let r : Rg := .capTsk c t j
  if j = 1 then
    let valid := bit v 17
    let busy := valid && (held || taskState s c t != 0)
    let addr := (rd s (.capTsk c t 0)).toNat + (bits v 0 16).toNat * 2 ^ 24
    let line := (rdF s (.capTsk c t 2) 6 8).toNat
    let inUse := held || taskState s c t != 0
    let s1 := store s r v
    judge [ (!a.taskPart p, .notPermitted), (busy, .busy), (valid && !tcbOk addr, .reservedCode),
        (valid && lineOwner s line != ownerCode p (bit v 16), .notPermitted),
        (!a.taskWorld p (bit v 16) || (inUse && !a.taskWorld p (taskWorld s c t)), .notPermitted) ]
      (if valid then
         setCap (setTask (setBank s1 c t none) c t 1) c { capOf s1 c with cids := (capOf s1 c).cids.erase t }
       else if taskState s c t = 3 then
         setCap s c { capOf s c with leaving := (t, v) :: (capOf s c).leaving.filter (fun x => x.1 != t) }
       else if ¬ held ∧ taskState s c t = 0 then s1
       else invalidate s1 c t)
  else
    judge [ (!a.taskPart p, .notPermitted), (held || taskState s c t != 0, .busy),
        (!a.taskWorld p (taskWorld s c t), .notPermitted) ] (store s r v)

/-- Writes to the CAP_ registers. -/
def writeCapBlock (s : State) (a : Auth) (r : Rg) (v : Reg24) : Written :=
  match r with
  | .capVbase c w => judge [(!a.supOf (partOf s c) (w == 1), .notPermitted)] (store s r v)
  | .capGate p w => judge [(!a.supOf p (w == 1), .notPermitted)] (store s r v)
  | .capGcnt p w =>
    judge [(!a.supOf p (w == 1), .notPermitted), (256 < (bits v 0 9).toNat, .reservedCode)] (store s r v)
  | .capBelay p w =>
    judge [(!a.supOf p (w == 1), .notPermitted), (rdF s (.capBceil p w) 0 13 < bits v 0 13, .reservedCode)]
      (reviewBelay (store s r v))
  | .capBceil p w =>
    let ceil : BitVec 13 := bits v 0 13
    let s1 := store s r v
    judge [(!a.safeOf p, .notPermitted), (4096 < ceil.toNat, .reservedCode)]
      (if ceil < rdF s (.capBelay p w) 0 13 then reviewBelay (wrF s1 (.capBelay p w) 0 ceil) else s1)
  | .capTsk c t j => if j < 3 then writeTask s a c t j v else .ok (store s r v)
  | _ => .ok (store s r v)

end Sys2Proof.Machine
end

