-- ==== Sys2Proof/Machine/Host.lean ====
section
/-! DEFINITION. PCI Express: links and functions (R516 to R521), the host window (R523 to R526), MSI-X (R528), and the boundary of
the register windows in each mode (R546, R562, R564). -/

namespace Sys2Proof.Machine

/-- A function beside the HST_ registers. -/
def hostOf (s : State) (f : Nat) : HostFn := s.hosts.get f {}

/-- It takes a value. -/
def setHost (s : State) (f : Nat) (x : HostFn) : State := { s with hosts := s.hosts.put f x {} }

/-- PRESENT of function `f` (R517). -/
def present (s : State) (f : Nat) : Bool := rdB s (.hstFn f) 0

/-- PORT of function `f`. -/
def portOf (s : State) (f : Nat) : Nat := (rdF s (.hstFn f) 1 1).toNat

/-- The link of a port is up. -/
def linkUp (s : State) (p : Nat) : Bool := rdB s .hstLink (1 + p)

/-- The PCI Express domain runs: from BRING-UP onward (R40, R549). -/
def pcieOn (s : State) : Bool := s.pwr.aux && mode s != 1

/-- The function is there for a host: present, its link up. -/
def reachable (s : State) (f : Nat) : Bool := pcieOn s && present s f && linkUp s (portOf s f)

/-- MSI-X Enable of a function. -/
def msixEnabled (s : State) (f : Nat) : Bool := rdB s (.hstFn f) 5

/-- The link generation, width and state of a port. -/
def showLink (s : State) (p : Nat) (up : Bool) (gen : BitVec 3) (width : BitVec 4) : State :=
  report (wrF (wrF (wrB s .hstLink (1 + p) up) .hstLink (3 + 3 * p) gen) .hstLink (9 + 4 * p) width)

/-- PE_PERST_N of port `p` takes a level (R632). -/
def setPerst (s : State) (p : Nat) (b : Bool) : State :=
  { s with pwr := if p = 0 then { s.pwr with perst0 := b } else { s.pwr with perst1 := b } }

/-- A port trains (R516, R517): not one that carries no present function, nor port 1 of an x8 link, nor one that its PE_PERST_N holds (R632,
R647). -/
def trainLink (s0 : State) (p : Nat) (perstN : Bool) (gen : BitVec 3) (width : BitVec 4) : State :=
  let s := setPerst s0 p perstN
  let used := (List.range 4).any (fun f => present s f && portOf s f == p)
  if pcieOn s ∧ used ∧ (p = 0 ∨ rdB s .hstLink 0) ∧ ¬ portHeld s p then showLink s p true gen width else s

/-- What a function loses at a function-level reset, a hot reset or link-down (R521): the requests it has not accepted, its configuration,
its MSI-X table and pending bits, and its mailbox registers. -/
def resetFunction (s : State) (f : Nat) : State :=
  let s0 := { s with hostQueue := s.hostQueue.filter (fun q => q.1 != f) }
  let s1 := wrB (setHost s0 f {}) (.hstFn f) 5 false
  [Rg.odIdx f, .odOff f, .odDat f 0, .odDat f 1, .odDat f 2, .odStat f, .odAbl f, .odAbh f].foldl (fun t r => wr t r r.reset) s1

/-- A port's link goes down (R521), by its PE_PERST_N or otherwise; without a split there is no port 1 (R516, R632). -/
def dropLink (s0 : State) (p : Nat) (perstN : Bool) : State :=
  let s := setPerst s0 p perstN
  if p ≠ 0 ∧ ¬ rdB s .hstLink 0 then s
  else showLink (((List.range 4).filter (fun f => present s f && portOf s f == p)).foldl resetFunction s) p false 0 0

/-! MSI-X (R528). -/

/-- The entry of vector `v`. -/
def msixEntry (x : HostFn) (v : Nat) : MsixEntry := x.table.get v {}

/-- A vector is masked: by its table entry, or by the Function Mask. -/
def vectorMasked (x : HostFn) (v : Nat) : Bool := x.functionMask || (msixEntry x v).masked

/-- The message of a vector. -/
def msixMessage (s : State) (f v : Nat) : State :=
  let e := msixEntry (hostOf s f) v
  send s (.msix f v e.addr e.data)

/-- A pending vector that is not masked sends its message once MSI-X is enabled. -/
def sendPending (s : State) (f v : Nat) : State :=
  let x := hostOf s f
  if v ∈ x.pendingBits ∧ ¬ vectorMasked x v ∧ msixEnabled s f then
    msixMessage (setHost s f { x with pendingBits := x.pendingBits.filter (· != v) }) f v
  else s

/-- Vector `v` of function `f` is fired by its event line. -/
def msixFire (s : State) (f v : Nat) : State :=
  let x := hostOf s f
  if v ∈ x.pendingBits ∨ ¬ msixEnabled s f then bumpF s (.msiv f v) 16 8 1
  else if vectorMasked x v then setHost s f { x with pendingBits := x.pendingBits ++ [v] }
  else msixMessage s f v

/-- BAR accesses of a function are taken: Memory Space Enable is 1 and the function is not in D3hot (R520). -/
def barsOn (s : State) (f : Nat) : Bool := (hostOf s f).memorySpace && !(hostOf s f).d3hot

/-- The AER status bit of a completion status or of a poisoned request (R518). -/
def errorBit (status : BitVec 3) (ep : Bool) : BitVec 3 := if status = 4 then 1 else if status = 1 then 2 else if ep then 4 else 0

/-- A completion, or the error report of a posted request, leaves function `f`: status 0 success, 1 Unsupported Request,
4 Completer Abort; EP marks poison. -/
def answer (s : State) (f : Nat) (status : BitVec 3) (ep : Bool) (bytes : List Byte) : State :=
  send s (.completion f status ep bytes)

/-- A request of function `f` has failed: the report leaves, and its AER status bit is set (R518). -/
def failRequest (s : State) (f : Nat) (status : BitVec 3) (ep : Bool) : State :=
  let x := hostOf s f
  answer (setHost s f { x with errors := x.errors ||| errorBit status ep }) f status ep []

/-- A write of the MSI-X table through BAR4 (R519, R528, R562). -/
def writeMsixTable (s : State) (f v : Nat) (e : MsixEntry) : State :=
  if ¬ reachable s f ∨ inBringUp s then s
  else if ¬ barsOn s f then failRequest s f 1 false
  else
    let x := hostOf s f
    sendPending (setHost s f { x with table := x.table.put v e {} }) f v

/-- The mask bit of a vector is cleared (R528). -/
def unmaskVector (s : State) (f v : Nat) : State := writeMsixTable s f v { msixEntry (hostOf s f) v with masked := false }

/-- Byte `k` of BAR4: the MSI-X table from 0, its pending bits from 0x1000 (R519). -/
def msixByte (x : HostFn) (k : Nat) : Byte :=
  if k < 1024 then
    let e := msixEntry x (k / 16)
    BitVec.ofNat 8 ((e.addr.toNat + e.data.toNat * 2 ^ 64 + (cond e.masked 1 0) * 2 ^ 96) / 256 ^ (k % 16))
  else if 0x1000 ≤ k ∧ k < 0x1008 then
    BitVec.ofNat 8 (((List.range 8).map (fun b => if (k - 0x1000) * 8 + b ∈ x.pendingBits then 2 ^ b else 0)).sum)
  else 0

/-- A read of BAR4: nothing answers there in BRING-UP (R519, R562, R564). -/
def readMsix (s : State) (f off n : Nat) : State :=
  if ¬ reachable s f ∨ inBringUp s then s
  else if ¬ barsOn s f then failRequest s f 1 false
  else answer s f 0 false ((List.range n).map (fun i => msixByte (hostOf s f) (off + i)))

/-! Configuration space (R518 to R520). -/

/-- The PCI Express Device ID of the ordering code (R2, R518). -/
def pciDevice : Nat := if Config.variantX then 0x7F02 else 0x7F01

/-- The size of a BAR in bits of address, for the 64-bit window of its two registers together, and its type bits: 32-bit memory, or 64-bit
prefetchable memory; none for BAR1 and BAR5 (R519). -/
def barShape (s : State) (f : Nat) : Nat → Option (Nat × Nat)
  | 0 => some (22, 0)
  | 2 => some (30 + (rdF s (.hstFn f) 2 3).toNat, 0xC)
  | 3 => some (30 + (rdF s (.hstFn f) 2 3).toNat - 32, 0)
  | 4 => some (13, 0)
  | _ => none

/-- What BAR register `n` reads: the address bits that its size leaves to be written, and its type bits (R519). -/
def barValue (s : State) (f n : Nat) : BitVec 32 :=
  match barShape s f n with
  | none => 0
  | some (w, type) => BitVec.ofNat 32 (((hostOf s f).bars.get n 0).toNat / 2 ^ w * 2 ^ w + type)

/-- The value and the number of bytes of an item of configuration space (R518). -/
def configValue (s : State) (f : Nat) : ConfigItem → Nat × Nat
  | .vendorId => (0x1D7E, 2)
  | .deviceId => (pciDevice, 2)
  | .revisionId => (0x03, 1)
  | .classCode => (0x120000, 3)
  | .subsystemVendorId => (0x1D7E, 2)
  | .subsystemId => (0, 2)
  | .maxPayload => (512, 2)
  | .msixVectors => (64, 2)
  | .msixEnable => (cond (msixEnabled s f) 1 0, 1)
  | .functionMask => (cond (hostOf s f).functionMask 1 0, 1)
  | .memorySpace => (cond (hostOf s f).memorySpace 1 0, 1)
  | .powerState => (cond (hostOf s f).d3hot 3 0, 1)
  | .aspmL1 => (cond (hostOf s f).aspmL1 1 0, 1)
  | .resetCapable => (1, 1)
  | .errorStatus => ((hostOf s f).errors.toNat, 1)
  | .errorNonFatal => (7, 1)
  | .bar n => ((barValue s f n).toNat, 4)
  | .absent _ => (0, 1)

/-- The value that a write of the power state leaves: D0 by 0 and D3hot by 3; the other states, which no function has, are discarded (log
9). -/
def powerStateWritten (d3hot : Bool) (v : BitVec 32) : Bool :=
  match (bits v 0 2 : BitVec 2) with
  | 0 => false
  | 3 => true
  | _ => d3hot

/-- A configuration write of an item; an item that is not written by requests keeps its value, and what MSI-X Enable and Function Mask held
back is sent (R518, R520, R528). -/
def writeConfig (s : State) (f : Nat) (item : ConfigItem) (v : BitVec 32) : State :=
  let x := hostOf s f
  let released := fun t => x.pendingBits.foldl (fun t v => sendPending t f v) t
  match item with
  | .powerState => setHost s f { x with d3hot := powerStateWritten x.d3hot v }
  | .memorySpace => setHost s f { x with memorySpace := bit v 0 }
  | .msixEnable => released (wrB s (.hstFn f) 5 (bit v 0))
  | .functionMask => released (setHost s f { x with functionMask := bit v 0 })
  | .aspmL1 => setHost s f { x with aspmL1 := bit v 0 }
  | .errorStatus => setHost s f { x with errors := x.errors &&& ~~~(bits v 0 3) }
  | .bar n => setHost s f { x with bars := x.bars.put n.val v 0 }
  | _ => s

/-- A configuration request of a function that is there: a write of an item, or a read (R518, R520). -/
def configure (s : State) (f : Nat) (item : ConfigItem) (write : Bool) (v : BitVec 32) : State :=
  if ¬ reachable s f then s
  else if write then writeConfig s f item v
  else answer s f 0 false (leBytes (configValue s f item).2 (configValue s f item).1)

/-! The host window (R523 to R526). -/

/-- The words that `n` bytes at offset `off` of BAR2 touch: each word, its first byte and its number of bytes. -/
def windowPieces : Nat → Nat → Nat → List (Nat × Nat × Nat)
  | 0, _, _ => []
  | fuel + 1, off, n =>
    if n = 0 then []
    else
      let k := if n ≤ 9 - off % 9 then n else 9 - off % 9
      (off / 9, off % 9, k) :: windowPieces fuel (off + k) (n - k)

/-- The ply address of word `k` of the window of function `f`: in RECOVERY that of function 0 is cistern 0 (R589). -/
def windowAddr (s : State) (f k : Nat) : Nat :=
  if inRecovery s then 0x10000000 + 6 * k else 0x100000000 + 6 * (layoutNat s 0x2011 (f + 1) * 8192 + k)

/-- The whole access lies in the window and in BAR2. -/
def inWindow (s : State) (f off n : Nat) : Bool :=
  decide (off + n ≤ 2 ^ (30 + (rdF s (.hstFn f) 2 3).toNat)) &&
    (if inRecovery s then f == 0 && decide (off + n ≤ 4718592)
     else decide (off + n ≤ layoutNat s 0x2011 (f + 5) * 8192 * 9))

/-- The check of a word of the window (R115), which waits for its tag and its grant (R97, R196); in RECOVERY the window is admitted to
cistern 0 while it is ON (R589). -/
def checkedWindow (s : State) (f a : Nat) (k : Kind) : Verdict × State :=
  if inRecovery s then ((if rdF s (.cisStat 0) 0 2 = 0 then .ok else .refused), s) else admitted s (hostWho f) a 6 k

/-- Some word of the access is held at its target (R97, R526). -/
def windowHeld (s : State) (f : Nat) (k : Kind) (l : List (Nat × Nat × Nat)) : Bool :=
  l.any (fun x => (checkedWindow s f (windowAddr s f x.1) k).1 == .held)

/-- The words of a write TLP, one by one (R524): refused words are counted and reported; from a word that is held on, the rest waits
(R548). -/
def writeWindow (s : State) (f : Nat) (bytes : List Byte) : Bool → List (Nat × Nat × Nat) → Option HostTlp × State
  | bad, [] => (none, if bad then failRequest s f 4 false else s)
  | bad, (k, b, n) :: t =>
    let a := windowAddr s f k
    match checkedWindow s f a .write with
    | (.held, _) => (some (.windowWrite (9 * k + b) bytes false bad), s)
    | (.ok, s1) =>
      let mask := BitVec.ofNat 72 ((256 ^ n - 1) * 256 ^ b)
      let data := BitVec.ofNat 72 (leNat (bytes.take n) * 256 ^ b)
      writeWindow (writeMasked s1 a mask data 21) f (bytes.drop n) bad t
    | (.refused, s1) => writeWindow (countFailure s1) f (bytes.drop n) true t

/-- A write TLP of BAR2, or what remains of it: what must wait, and the state (R520, R523, R524, R526, R564). -/
def barWrite (s : State) (f off : Nat) (bytes : List Byte) (ep bad : Bool) : Option HostTlp × State :=
  if ¬ reachable s f then (none, s)
  else if ¬ barsOn s f then (none, failRequest s f 1 false)
  else if inBringUp s ∨ inReady s then (none, failRequest s f 4 false)
  else if ep then (none, failRequest s f 0 true)
  else if ¬ inWindow s f off bytes.length then (none, failRequest s f 1 false)
  else writeWindow s f bytes bad (windowPieces bytes.length off bytes.length)

/-- The checks of the words of a read. -/
def checkReads (s : State) (f : Nat) : List (Nat × Nat × Nat) → Bool × State
  | [] => (true, s)
  | (k, _, _) :: t =>
    match checkedWindow s f (windowAddr s f k) .read with
    | (.ok, s1) => checkReads s1 f t
    | (_, s1) => (false, s1)

/-- The bytes of the words of a read, and whether one of the words is poisoned, which the error log notes (R147, R165). -/
def readWindow (s : State) (f : Nat) : List (Nat × Nat × Nat) → (List Byte × Bool) × State
  | [] => (([], false), s)
  | (k, b, n) :: t =>
    let r := fetchWord s (windowAddr s f k) 21
    let s1 := if r.1.poison then poisonUsed r.2 (windowAddr s f k) false 21 else r.2
    let q := readWindow s1 f t
    (((List.range n).map (fun i => wordByte r.1.data (b + i)) ++ q.1.1, r.1.poison || q.1.2), q.2)

/-- A read TLP of BAR2 (R520, R523, R525, R526, R564). -/
def barRead (s : State) (f off n : Nat) : State :=
  let l := windowPieces n off n
  if ¬ reachable s f then s
  else if ¬ barsOn s f then failRequest s f 1 false
  else if inBringUp s ∨ inReady s then failRequest s f 4 false
  else if ¬ inWindow s f off n then failRequest s f 1 false
  else
    let c := checkReads s f l
    if c.1 then
      let r := readWindow c.2 f l
      answer r.2 f 0 r.1.2 r.1.1
    else failRequest (countFailure c.2) f 4 false

/-- A read of the window waits at its port: some word that it would reach is held (R124, R526). -/
def readWaits (s : State) (f off n : Nat) : Bool :=
  reachable s f && barsOn s f && !inBringUp s && !inReady s && inWindow s f off n && windowHeld s f .read (windowPieces n off n)

/-! Writes of HST_ registers other than the mailbox commands (R542, R547). -/

/-- The writers of the mailbox registers and HST_MSIV_f_v (R547). -/
def mayMailbox (a : Auth) (f : Nat) : Bool := a.host == some f || (a.host.isNone && a.supPart f)

/-- A write of HST_SYNCEVT (R542). -/
def writeSyncEvt (s : State) (a : Auth) (v : Reg24) : Written :=
  let o := lineOwner s (bits v 0 8).toNat
  judge [ (!a.safe, .notPermitted),
      (!(if o = 8 then a.lifeline else decide (o.toNat < 8) && a.safSup (codePart o)), .notPermitted) ]
    (store s .hstSyncevt v)

/-- A write of HST_MSIV_f_v (R547). -/
def writeMsiv (s : State) (a : Auth) (f v : Nat) (x : Reg24) : Written :=
  let o := lineOwner s (bits x 0 8).toNat
  judge [ (!mayMailbox a f, .notPermitted), (!(decide (o.toNat < 8) && codePart o == f), .notPermitted) ]
    (store s (.msiv f v) x)

end Sys2Proof.Machine
end

