-- ==== Sys2Proof/Machine/Tick.lean ====
section
/-! DEFINITION. One slow event tick, which passes when no command waits (log 13), and the start of an event tick (R478, R481, R484). -/

namespace Sys2Proof.Machine

/-- A group action takes effect on the lines of its group that its line's owner owns (R484). -/
def GroupAct.apply (x : GroupAct) (s : State) : State :=
  (List.range 16).foldl (fun t i =>
    let n := 16 * x.group + i
    if lineOwner t n = x.owner then
      wrB t (.evrLine n) 13 (if x.act = 1 then true else if x.act = 2 then false else !rdB t (.evrLine n) 13)
    else t) s

/-- An owner change of line `n` takes effect at the end of its tick: LKEN, GACT and GUARD are 0, ENA is 1, and what the guard held is
dropped (R478, R511). -/
def moveLine (s : State) (n : Nat) (o : OwnerCode) : State :=
  let w : Reg24 := setBits (setBit (setBit (setBits (setBits (rd s (.evrLine n)) 0 o) 14 (0 : BitVec 2)) 12 false) 13 true) 20 (0 : BitVec 4)
  let e := s.events
  wr { s with events := { e with held := e.held.filter (· != n), guarded := e.guarded.filter (fun x => x.1 != n) } } (.evrLine n) w

/-- An owner change takes effect (R478). -/
def moveOwned (s : State) (x : Owned) (o : OwnerCode) : State :=
  match x with
  | .line n => moveLine s n o
  | .timer n => moveTimer s n o
  | .rxLane n => moveRx s n o
  | .txLane n => moveTx s n o

/-- The owner changes made in the tick that ends take effect (R478). -/
def moveOwners (s : State) : State :=
  s.events.moved.foldl (fun t x => moveOwned t x.1 x.2) { s with events := { s.events with moved := [] } }

/-- The next event tick begins: the owner changes made in the last one take effect, then the group actions of the lines that fired in it, in
order (R478, R481, R484). Frozen lines keep their tick (R608). -/
def nextEventTick (s : State) : State :=
  let s0 := moveOwners s
  if frozen s0 18 then s0
  else
    let t := s0.events.acts.foldl (fun t x => x.apply t) s0
    { t with events := { t.events with now := t.events.now + 1, acts := [] } }

/-- A watchdog that counts loses one tick of its interval (R510). -/
def DogSt.tick (d : DogSt) : DogSt := if d.counting ∧ ¬ d.paused then { d with left := d.left - 1 } else d

/-- One slow event tick of 25 ns: TIME counts (R164), the lap timer counts in RUN while the scrubber is not frozen (R157,
R161), the counting watchdogs count down (R510), and an event tick begins (R481). Every event of a tick is a command of its own (log
13). -/
def slowTick (s0 : State) : State :=
  let s := nextEventTick s0
  { s with
    clock := if s.pwr.aux then s.clock + 1 else s.clock
    store := { s.store with scrubClock := if inRun s ∧ ¬ frozen s 16 then s.store.scrubClock + 1 else s.store.scrubClock }
    dogs := (List.range 5).foldl (fun t x => t.put x (t.get x {}).tick {}) s.dogs }

end Sys2Proof.Machine
end

