-- ==== Sys2Proof/Machine/Event.lean ====
section
/-! DEFINITION. Event lines: firing and delivery (R479 to R484, R553), the guard (R483), pulses (R485), and writes to the EVR_
registers (R477, R478, R513). -/

namespace Sys2Proof.Machine

/-- A delivery of a firing of line `m` under owner `o` whose consumer carries another owner code is counted in DENY of the line (R481). -/
def deliverTo (s : State) (m : Nat) (o code : OwnerCode) (act : State → State) : State :=
  if o = code then act s else tally s (.evrStat m) 16 8 1

/-- The consumers of a fold. -/
def forAll (n : Nat) (s : State) (f : State → Nat → State) : State := (List.range n).foldl f s

/-- A firing of line `m` under owner `o` reaches every consumer subscribed to it (R480, R481, R553). -/
def deliver (s : State) (m : Nat) (o : OwnerCode) : State :=
  let line := fun v : BitVec 8 => v.toNat == m
  let s1 := forAll 256 s (fun t i =>
    let c := i / 64
    let k := i % 64
    if taskState t c k ≠ 0 ∧ line (rdF t (.capTsk c k 2) 6 8) then deliverTo t m o (taskCode t c k) (fun u => wakeTask u c k) else t)
  let s2 := forAll 8 s1 (fun t k =>
    if rdB t (.llIrq k) 8 ∧ line (rdF t (.llIrq k) 0 8) then deliverTo t m o 8 (fun u => irqFires u k) else t)
  let s3 := forAll 16 s2 (fun t n =>
    if rdB t (.tmrEve n) 14 ∧ line (rdF t (.tmrEve n) 6 8) then deliverTo t m o (timerOwner t n) (fun u => timerTrigger u n) else t)
  let s4 := forAll 16 s3 (fun t n =>
    if rdB t (.txCfg n) 14 ∧ line (rdF t (.txCfg n) 6 8) then deliverTo t m o (txOwner t n) (fun u => transmitEvent u n) else t)
  let s5 := forAll 256 s4 (fun t i =>
    if rdB t (.msiv (i / 64) (i % 64)) 8 ∧ line (rdF t (.msiv (i / 64) (i % 64)) 0 8) then msixFire t (i / 64) (i % 64) else t)
  wakeLine s5 m

/-- Line `m` is within its guard interval, which GUARD = 0 disables (R483). -/
def inGuard (s : State) (m : Nat) : Bool := s.events.guarded.any (fun x => x.1 == m) && rdF s (.evrLine m) 20 4 != 0

/-- Line `m` fires under owner `o`: its guard interval begins, its link is asserted, its group action waits for the next tick, and its
consumers receive the event (R481, R483, R484). -/
def fires (s : State) (m : Nat) (o : OwnerCode) : State :=
  let e := s.events
  let line := rd s (.evrLine m)
  let s1 := { s with events := { e with
    guarded := e.guarded.filter (fun x => x.1 != m) ++ (if bits line 20 4 = (0 : BitVec 4) then [] else [(m, e.now)])
    acts := if bits line 14 2 = (0 : BitVec 2) then e.acts else e.acts ++ [⟨o, bits line 14 2, (bits line 16 4).toNat⟩] } }
  deliver (if bit line 12 then assertLine s1 (bits line 4 8).toNat o else s1) m o

/-- A line that is asserted fires, is discarded, or is held by its guard (R481, R483). -/
def fireLine (s : State) (m : Nat) (o : OwnerCode) : State :=
  if ¬ rdB s (.evrLine m) 13 then tally s (.evrStat m) 0 8 1
  else if inGuard s m then
    if m ∈ s.events.held then tally s (.evrStat m) 8 8 1
    else { s with events := { s.events with held := s.events.held ++ [m] } }
  else fires s m o

/-- Assertions of line `m` made before the present tick, which it meets. -/
def due (s : State) (m : Nat) : List Assertion := s.events.asserted.filter (fun x => x.line == m && decide (x.tick < s.events.now))

/-- The due assertions of a line are met: those with another owner code count in DENY (R481); whether one was good. -/
def meet (s : State) (m : Nat) : Bool × State :=
  let d := due s m
  let o := lineOwner s m
  let wrong := (d.filter (fun x => x.code != o)).length
  let s1 := { s with events := { s.events with
    asserted := s.events.asserted.filter (fun x => !(x.line == m && decide (x.tick < s.events.now))) } }
  (d.any (fun x => x.code == o), if wrong = 0 then s1 else tally s1 (.evrStat m) 16 8 wrong)

/-- The next event tick has begun when nothing of line `m` was asserted before the present one. -/
def tickFor (s : State) (m : Nat) : State := if due s m = [] then nextEventTick s else s

/-- An asserted line comes to its event tick (R481); frozen lines hold their assertions (R608). -/
def eventFire (s : State) (m : Nat) : State :=
  if ¬ s.events.asserted.any (fun x => x.line == m) ∨ frozen s 18 then s
  else
    let s1 := tickFor s m
    match meet s1 m with
    | (true, s2) => fireLine s2 m (lineOwner s1 m)
    | (false, s2) => s2

/-- Line `m` leaves its guard interval; an assertion that it holds is one again (R481, R483). -/
def unguard (s : State) (m : Nat) : State :=
  let e := s.events
  { s with events := { e with
    guarded := e.guarded.filter (fun x => x.1 != m)
    held := e.held.filter (· != m)
    asserted := if m ∈ e.held then e.asserted ++ [⟨m, lineOwner s m, e.now⟩] else e.asserted } }

/-- The guard interval of a line ends, in a later tick than its firing: a held assertion and those due make one firing (R481, R483). -/
def guardRelease (s : State) (m : Nat) : State :=
  match s.events.guarded.find? (fun x => x.1 == m) with
  | none => s
  | some g =>
    if frozen s 18 ∨ m ∉ s.events.held then unguard s m
    else
      let s1 := if s.events.now ≤ g.2 then nextEventTick s else s
      let e := s1.events
      let s2 := { s1 with events := { e with guarded := e.guarded.filter (fun x => x.1 != m), held := e.held.filter (· != m) } }
      fireLine (meet s2 m).2 m (lineOwner s1 m)

/-- A write of EVR_LINE_n (R477, R478, R513): the owner of LINK must be the line's; GUARD = 0 ends a guard interval; a change of owner waits
for the end of the tick, with all that it clears (R478, R511). -/
def writeLine (s : State) (a : Auth) (n : Nat) (v : Reg24) : Written :=
  let o := lineOwner s n
  let new : OwnerCode := bits v 0 4
  if new = o then
    let strange := lineOwner s (bits v 4 8).toNat != o
    let s1 := store s (.evrLine n) v
    judge [(!a.sup, .notPermitted), (strange || !mayField a o, .notPermitted)]
      (if bits v 20 4 = (0 : BitVec 4) then unguard s1 n else s1)
  else judge (ownReasons s a o (homeOf s 0x10 n) new) (changeOwner s (.line (Fin.ofNat 256 n)) new)

/-- A write of EVR_PULSE (R485). -/
def writePulse (s : State) (a : Auth) (v : Reg24) : Written :=
  let m := (bits v 0 8).toNat
  judge [(a.code != lineOwner s m, .notPermitted)] (assertLine s m a.code)

/-- Writes to the EVR_ registers. -/
def writeEventBlock (s : State) (a : Auth) (r : Rg) (v : Reg24) : Written :=
  match r with
  | .evrLine n => writeLine s a n v
  | .evrPulse => writePulse s a v
  | _ => .ok (store s r v)

end Sys2Proof.Machine
end

