-- ==== Sys2Proof/Machine/Image.lean ====
section
/-! DEFINITION. The check of a customer control-store image (R458 to R465): dispatch entries, microwords, and every path of every
group routine. -/

namespace Sys2Proof.Machine

/-- A content of the vector control store by word number: what a customer image writes alone, or the whole store with it. -/
abbrev Img := Nat → Word72

/-- The words of a list by word number, the last one of a number standing. -/
def imgTab (l : List (Nat × Word72)) : Tab Word72 := l.foldl (fun t w => t.insert w.1 w.2) Tab.empty

/-- What a customer image writes; zero elsewhere (R455). -/
def imgOnly (custom : Tab Word72) : Img := fun k => custom.get k 0

/-- The vector control store with the vector patch and the customer image of one slot over its ROM content (R455, R468). -/
def imgStore (patch custom : Tab Word72) : Img := fun k =>
  let v := match patch.find k with | some w => patched 3 k (romWord k) w | none => romWord k
  match custom.find k with | some w => patched 5 k v w | none => v

/-- Ply `p` of the store. -/
def imgPly (g : Img) (p : Nat) : Ply := wordPly (g (p / 6)) (p % 6)

/-- Plies `p` to `p + n − 1` as a number. -/
def imgPlies (g : Img) (p n : Nat) : Nat := (List.range n).foldl (fun v i => v + (imgPly g (p + i)).toNat * 2 ^ (12 * i)) 0

/-- Microword `m` of the image (R456). -/
def imgMicro (g : Img) (m : Nat) : BitVec 192 := BitVec.ofNat 192 (imgPlies g (16 * m) 16)

/-- Dispatch entry `e` of the image (R462). -/
def imgEntry (g : Img) (e : Nat) : W48 := BitVec.ofNat 48 (imgPlies g (195584 + 4 * e) 4)

/-- Explicit mode of page `a / 1024` (R459). -/
def imgExplicit (g : Img) (a : Nat) : Bool := imgPlies g (16 * 12223) 2 / 2 ^ (a / 1024) % 2 == 1

/-! Microwords (R458). -/

/-- A COND that is not reserved. -/
def condOk (c : BitVec 5) : Bool := c.toNat < 5 || (8 ≤ c.toNat && c.toNat ≤ 14)

/-- A source field that is not reserved. -/
def sourceOk (f : BitVec 4) : Bool := f != 3 && !(12 ≤ f.toNat && f.toNat ≤ 14)

/-- A destination field that is not reserved. -/
def destOk (f : BitVec 4) : Bool := f.toNat < 2 || (8 ≤ f.toNat && f.toNat < 12) || f == 15

/-- A function code that its pipe has (R276 to R283). -/
def codeOk (pipe : Nat) (fn : BitVec 7) : Bool :=
  let n := fn.toNat
  match pipe with
  | 1 => n < 6 || (8 ≤ n && n < 15) || (16 ≤ n && n < 23) || n == 24
  | 2 => n < 3
  | 3 => n < 4
  | 4 => n < 3
  | 5 => n % 16 < 5 && n / 16 < 3
  | _ => n / 16 < 7 && typeOk (bits fn 0 4)

/-- SAT = 1 is accepted: a marked operation with an integer OT, or a conversion between integers (R271). -/
def satAccepted (op : VOp) (ot : BitVec 4) : Bool :=
  match op with
  | .elem .add | .elem .sub | .elem .abs | .elem .neg | .elem .mul | .elem .div => isInt ot
  | .elem .fma | .elem .fms | .elem .fnma | .elem .fnms => isInt ot
  | .elem (.cvt tt _) => isInt ot && isInt tt
  | .red .sum _ | .red .dot _ => isInt ot
  | _ => false

/-- OT and AW of a reduction name an accumulator (R281). -/
def accumulatorOk (op : VOp) (ot : BitVec 4) : Bool :=
  match op with
  | .red .count aw => ot == 8 && aw == 0
  | .red .sum aw | .red .dot aw => aw.toNat ≤ 2 && (accType ot aw).isSome
  | .red _ aw => aw == 0 && (accType ot aw).isSome
  | _ => true

/-- The FUNC of a slot, of `pipe`, holds no reserved value (R271, R276 to R283). -/
def functionOk (pipe : Nat) (fn : BitVec 7) (ot : BitVec 4) (sat : Bool) : Bool :=
  let op := groupOp (pipe - 1) fn
  codeOk pipe fn && typeOk ot && accumulatorOk op ot && (!sat || satAccepted op ot)

/-- Slot `j` of a microword. -/
def slotBits (w : BitVec 192) (j : Nat) : BitVec 32 := bits w (32 * j + 24) 32

/-- A slot without reserved values; of the FUNC of an idle slot, which has no operation group, only OT can be one. -/
def slotOk (f : BitVec 32) : Bool :=
  let pipe := (bits f 0 3).toNat
  pipe != 7 && sourceOk (bits f 15 4) && sourceOk (bits f 19 4) && sourceOk (bits f 23 4) && destOk (bits f 27 4) &&
    typeOk (bits f 10 4) && (pipe == 0 || functionOk pipe (bits f 3 7) (bits f 10 4) (bit f 14))

/-- A microword without reserved values and with its zero fields zero. -/
def microOk (w : BitVec 192) : Bool :=
  condOk (bits w 14 5) && (bits w 19 3).toNat < 6 && bits w 22 2 == 0 && bits w 152 32 == 0 && bits w 189 3 == 0 &&
    [0, 1, 2, 3].all (fun j => slotOk (slotBits w j))

/-! Paths (R465). -/

/-- The depth of a pipe for an operation type (R210). -/
def pipeDepth (pipe : Nat) (t : BitVec 4) : Nat :=
  match pipe with
  | 1 => 4 | 2 => 6 | 3 => 8 | 4 => if t = 4 ∨ t = 5 ∨ t = 7 then 22 else 13 | 5 => 10 | _ => 5

/-- What a path has done: microwords run, advances of the source and destination streams, streams named, when the results and
temporaries are ready, and when the operands from which each comes entered their first pipe. -/
structure Walk where
  clock : Nat := 0
  adv : List Nat := []
  named : List Nat := []
  ready : Tab Nat := Tab.empty
  since : Tab Nat := Tab.empty
  ok : Bool := true

/-- Slot `j` acts: its mask is admitted, also where it is idle, its pipe is declared, and its result leaves its pipe in time after its own
operands entered the first. -/
def Walk.slot (e : W48) (w : BitVec 192) (x : Walk) (j : Nat) : Walk :=
  let f := slotBits w j
  let pipe := (bits f 0 3).toNat
  let admitted := !(bit f 31 && bits e 40 2 == 0)
  if pipe = 0 then { x with ok := x.ok && admitted }
  else
    let src := [bits f 15 4, bits f 19 4, bits f 23 4].map BitVec.toNat
    let begin := src.foldl (fun m k => if 4 ≤ k ∧ k < 12 ∧ m < x.ready.get k 0 then x.ready.get k 0 else m) x.clock
    let first := src.foldl (fun m k => if 4 ≤ k ∧ k < 12 ∧ x.since.get k begin < m then x.since.get k begin else m) begin
    let done := begin + pipeDepth pipe (bits f 10 4)
    let dst := (bits f 27 4).toNat
    let both := fun (t : Tab Nat) (v : Nat) => if 8 ≤ dst ∧ dst < 12 then (t.insert (4 + j) v).insert dst v else t.insert (4 + j) v
    { x with
      named := x.named ++ src.filter (· < 3) ++ (if dst < 2 then [3 + dst] else [])
      ready := both x.ready done
      since := both x.since first
      ok := x.ok && admitted && bit e (16 + (pipe - 1)) && done - first ≤ (bits e 22 6).toNat }

/-- A microword acts on a path. -/
def Walk.micro (e : W48) (w : BitVec 192) (x : Walk) : Walk :=
  let y := [0, 1, 2, 3].foldl (Walk.slot e w) x
  let adv := (List.range 5).filter (fun i => if i < 3 then bit w (184 + i) else bit w (187 + (i - 3)))
  { y with clock := y.clock + 1, adv := y.adv ++ adv }

/-- A path that ends here is good: every stream that the instruction names, and no other more than once, has advanced once. -/
def Walk.good (x : Walk) (named : List Nat) : Bool := x.ok && decide x.adv.Nodup && named.all (fun k => x.adv.contains k)

/-- The ends of the paths from microword `a`, with `fuel` microwords left before GEND; none for one that is too long, that calls too deep or
that returns without a call (R460, R461, R465). -/
def pathEnds (g : Img) (e : W48) : Nat → Nat → List Nat → Walk → List (Option Walk)
  | 0, _, _, _ => [none]
  | fuel + 1, a, stack, x =>
    let w := imgMicro g a
    let y := x.micro e w
    let na := (bits w 0 14).toNat
    let c : BitVec 5 := bits w 14 5
    let go := fun (n : Nat) (st : List Nat) => pathEnds g e fuel (if 12288 ≤ a then 12288 + n % 4096 else n % 16384) st y
    match (bits w 19 3).toNat with
    | 0 => go (if imgExplicit g a then na else a + 1) stack
    | 1 =>
      let yes := if imgExplicit g a then na / 2 * 2 + 1 else na
      let no := if imgExplicit g a then na / 2 * 2 else a + 1
      (if c = 1 then [] else go yes stack) ++ (if c = 0 then [] else go no stack)
    | 2 => if stack.length < 4 then go na ((a + 1) :: stack) else [none]
    | 3 => (match stack with | [] => [none] | r :: st => go r st)
    | 4 => (List.range 16).flatMap (fun k => go (na + k) stack)
    | _ => [some y]

/-- Every path of a group routine is good, for the streams that its instruction names on any of them (R465). -/
def pathsOk (g : Img) (e : W48) (fuel a : Nat) : Bool :=
  let ends := pathEnds g e fuel a [] {}
  let named := ends.flatMap (fun z => (z.map Walk.named).getD [])
  ends.all (fun z => (z.map (fun x => x.good named)).getD false)

/-- The microwords that a group routine may hold: ceil(64 / L) for the widest type (R231, R465). -/
def pathLimit (e : W48) : Nat :=
  let has := fun t : Nat => bit e (28 + t)
  let lanes := if has 11 then 8 else if has 4 || has 5 || has 7 || has 9 || has 10 then 16
    else if has 2 || has 3 || has 6 then 32 else 64
  let l := if bit e 19 then 8 else if bit e 42 && 16 < lanes then 16 else lanes
  (64 + l - 1) / l

/-- A dispatch entry of the image `g`, all zero or declared as R462 and R463 ask, with its group routine in the whole store `full`; one with
VALID = 0 that is not all zero too, and none with a non-zero bit in 47:43 (DEDUCED, log 173). -/
def entryOk (g full : Img) (k : Nat) : Bool :=
  let e := imgEntry g k
  e == 0 || (bit e 15 && bits e 40 2 != 3 && bits e 43 5 == 0 && pathsOk full e (pathLimit e) (bits e 0 14).toNat)

/-- An image passes R465 beside the vector patch of its slot. -/
def customerOk (patch words : List (Nat × Word72)) : Bool :=
  let t := imgTab words
  let g := imgOnly t
  let full := imgStore (imgTab patch) t
  (List.range 256).all (fun k => if 0xE0 ≤ k ∧ k < 0xF0 then entryOk g full k else imgEntry g k == 0) &&
    (List.range 4096).all (fun m => microOk (imgMicro g (12288 + m)))

end Sys2Proof.Machine
end

