-- ==== Sys2Proof/Machine/Firmware.lean ====
section
/-! DEFINITION. Firmware images and their update: slots and their bytes (R572 to R577), the verification of a slot (R578 to
R580), the fuses (R582, R583, R591), the firmware commands (R584 to R589, R594, R595), and writes to the FW_ registers
(R593). -/

namespace Sys2Proof.Machine

/-! The flash and its slots (R572). -/

/-- The parts of the flash. -/
inductive FlashPart where
  | pointer0 | pointer1 | config | retirement | log | slotA | slotB | reserved
deriving DecidableEq, Repr

/-- The first and the last flash offset of a part (R572). -/
def FlashPart.bounds : FlashPart → Nat × Nat
  | .pointer0 => (0x00000000, 0x0000FFFF)
  | .pointer1 => (0x00010000, 0x0001FFFF)
  | .config => (0x00020000, 0x0003FFFF)
  | .retirement => (0x00040000, 0x0007FFFF)
  | .log => (0x00080000, 0x00FFFFFF)
  | .slotA => (0x01000000, 0x08FFFFFF)
  | .slotB => (0x09000000, 0x10FFFFFF)
  | .reserved => (0x11000000, 0x1FFFFFFF)

/-- The bytes of a part. -/
def FlashPart.size (p : FlashPart) : Nat := p.bounds.2 - p.bounds.1 + 1

/-- The entries that the circular log holds, each the 18 bytes of its two words (R164, R572; log 158). -/
def logPlaces : Nat := FlashPart.log.size / 18

/-- Slot A, or B when `b`. -/
def slotOf (s : State) (b : Bool) : Slot := if b then s.flash.slotB else s.flash.slotA

/-- It is known to verify, or not (R590). -/
def setGood (s : State) (b good : Bool) : State :=
  { s with fw := if b then { s.fw with goodB := good } else { s.fw with goodA := good } }

/-- Some slot is known to verify (R590). -/
def someSlot (s : State) : Bool := s.fw.goodA || s.fw.goodB

/-- A slot takes a value; whether it verifies is then not known. -/
def setSlot (s : State) (b : Bool) (x : Slot) : State :=
  setGood { s with flash := if b then { s.flash with slotB := x } else { s.flash with slotA := x } } b false

/-- Byte `k` of a slot; none where it is erased and has not been written. -/
def slotByte (b : Bool) (x : Slot) (k : Nat) : Option Byte :=
  match x.bytes.find k with
  | some v => some v
  | none => if x.erased then none else some (Config.openSlot b x.epoch k)

/-- Bytes `off` to `off + n − 1` of a slot. -/
def slotBytes (b : Bool) (x : Slot) (off n : Nat) : List Byte :=
  (List.range n).map (fun i => (slotByte b x (off + i)).getD Config.erasedByte)

/-- The first byte from `r` on that no range of a list holds; `fuel` bounds the ranges. -/
def reach (l : List (Nat × Nat)) : Nat → Nat → Nat
  | 0, r => r
  | fuel + 1, r => match l.find? (fun x => decide (x.1 ≤ r) && decide (r < x.2)) with
    | some x => reach l fuel x.2
    | none => r

/-- The bytes of `l` are written at byte `off` of a slot; one that a command left partial is whole again once every byte of an image has been
written since (R595). -/
def Slot.write (b : Bool) (x : Slot) (off : Nat) (l : List Byte) : Slot :=
  let y := { x with bytes := ((List.range l.length).zip l).foldl (fun t p => t.insert (off + p.1) p.2) x.bytes }
  match x.cut with
  | none => y
  | some r =>
    let r1 := r ++ [(off, off + l.length)]
    let len := leNat (slotBytes b y 12 4)
    { y with cut := if 358 ≤ len ∧ len ≤ reach r1 r1.length 0 then none else some r1 }

/-! The image header (R574, R582). -/

/-- The firmware reject codes of R586. -/
def badHeader : BitVec 12 := 0x010
def rollbackCode : BitVec 12 := 0x011
def verifyCode : BitVec 12 := 0x012
def tooLarge : BitVec 12 := 0x013

/-- The size of a slot in bytes. -/
def slotSize : Nat := FlashPart.slotA.size

/-- The fuse counter of class `c` (R582). -/
def fuseCount (s : State) (c : Nat) : Nat := s.fuses.counters.get c 0

/-- The number in `n` bytes at byte `k` of a list. -/
def fieldAt (l : List Byte) (k n : Nat) : Nat := leNat ((l.drop k).take n)

/-- The fields of a header other than LENGTH and MINSV are as R574 accepts. -/
def headerOk (h : List Byte) : Bool :=
  let product : Nat := if Config.variantX then 0x7F02 else 0x7F01
  fieldAt h 0 4 == 0x4B587F00 && fieldAt h 4 1 == 1 && fieldAt h 5 1 == 1 &&
    (fieldAt h 6 2 == product || fieldAt h 6 2 == 0x7F00) && fieldAt h 8 2 ≤ 3 &&
    1 ≤ fieldAt h 10 1 && fieldAt h 10 1 ≤ 16 && fieldAt h 11 1 == 0 && (h.drop 25).all (fun b => b == 0) &&
    358 ≤ fieldAt h 12 4

/-- MINSV of class `c` in a header. -/
def minsvOf (h : List Byte) (c : Nat) : Nat := fieldAt h (20 + c) 1

/-- No MINSV is below its fuse counter. -/
def minsvOk (s : State) (h : List Byte) : Bool := (List.range 5).all (fun c => fuseCount s c ≤ minsvOf h c)

/-- The code with which a header is refused, the codes for a bad field, an old version and a bad size in that order; `size` is
the declared size of a download, if it declares one (R585). -/
def headerCode (s : State) (h : List Byte) (size : Option Nat) : Option (BitVec 12) :=
  let len := fieldAt h 12 4
  if ¬ headerOk h then some badHeader
  else if ¬ minsvOk s h then some rollbackCode
  else if slotSize < len ∨ size.any (fun n => n != len) then some tooLarge
  else none

/-! The manifest and the components (R575 to R577). -/

/-- A manifest entry. -/
structure Entry where
  type : Nat
  cls : Nat
  sv : Nat
  offset : Nat
  blen : Nat
  plen : Nat
deriving DecidableEq, Repr

/-- An image that has been verified: its BUILD, its MINSVs, and its components with AUX and plaintext. -/
structure Image where
  build : BitVec 32
  minsv : List Nat
  parts : List (Entry × Nat × List Byte)
deriving DecidableEq, Repr

/-- Manifest entry `i` from the 18 bytes that hold it; none where a zero byte is not zero. -/
def entryOf (l : List Byte) : Option Entry :=
  if fieldAt l 3 1 = 0 ∧ fieldAt l 16 2 = 0 then
    some { type := fieldAt l 0 1, cls := fieldAt l 1 1, sv := fieldAt l 2 1, offset := fieldAt l 4 4, blen := fieldAt l 8 4,
           plen := fieldAt l 12 4 }
  else none

/-- The class of a component type; none for a reserved type (R577). -/
def classOf (t : Nat) : Option Nat :=
  match t with
  | 1 => some 1 | 2 => some 2 | 3 => some 0 | 4 => some 0 | 5 => some 4 | 6 => some 3 | _ => none

/-- The component header repeats its entry in the layout of R575, AUX in place of OFFSET: zero but for a lifeline image (R576). Bytes 8 to 11,
which R576 does not name, are not looked at (log 159). -/
def partHeaderOk (h : List Byte) (e : Entry) : Bool :=
  fieldAt h 0 1 == e.type && fieldAt h 1 1 == e.cls && fieldAt h 2 1 == e.sv && fieldAt h 3 1 == 0 && fieldAt h 12 4 == e.plen &&
    fieldAt h 16 2 == 0 && (e.type == 2 || fieldAt h 4 4 == 0)

/-- The parts of a component block, in order (R576). -/
structure Block where
  header : List Byte
  nonce : List Byte
  cipher : List Byte
  tag : List Byte
  sig : List Byte
deriving DecidableEq, Repr

/-- The parts of the block that holds `plen` bytes of ciphertext. -/
def partBlock (l : List Byte) (plen : Nat) : Block :=
  { header := l.take 18
    nonce := (l.drop 18).take 12
    cipher := (l.drop 30).take plen
    tag := (l.drop (30 + plen)).take 16
    sig := (l.drop (46 + plen)).take 96 }

/-- Two blocks have a byte in common. -/
def blocksMeet (a b : Entry) : Bool := a.offset < b.offset + b.blen && b.offset < a.offset + a.blen

/-- The blocks of a list do not overlap. -/
def disjoint : List Entry → Bool
  | [] => true
  | e :: t => t.all (fun f => !blocksMeet e f) && disjoint t

/-- The sump frames that a payload takes (R578, R581). -/
def partFrames (e : Entry) : Nat := (e.plen + 73727) / 73728

/-! Payloads (R579, R580). -/

/-- A register written from the object-dictionary defaults (R209, R260, R406, R496, R570, R599). -/
def odRegister (i : Nat) : Bool :=
  match Rg.ofIndex i with
  | some (.xbPri _ 2) => true
  | some (.xbSlice _ _) => true
  | some .pmpQuantum => true
  | some .llCfg => true
  | some (.grp _) => true
  | some .modCfg => true
  | some .dbgPermit => true
  | _ => false

/-- A record of the object-dictionary defaults. -/
inductive OdRecord where
  | register (i : Nat) (v : Reg24)
  | default (index sub : Nat) (v : BitVec 32)
deriving DecidableEq, Repr

/-- The records of a defaults payload; none where a record is not one of R579 or the end record is missing. -/
def odRecords : List Word72 → Option (List OdRecord)
  | [] => none
  | w :: t =>
    match (bits w 70 2).toNat with
    | 0 => some []
    | 1 =>
      if odRegister (bits w 24 24).toNat then
        (odRecords t).map (fun l => .register (bits w 24 24).toNat (bits w 0 24) :: l)
      else none
    | 2 => (odRecords t).map (fun l => .default (bits w 32 16).toNat (bits w 48 8).toNat (bits w 0 32) :: l)
    | _ => none

/-- The load records of a scalar firmware payload, and the words of the four cores (R580); `fuel` bounds the records. -/
def loadRecords : Nat → List Word72 → Option (List (Addr × List Word72) × List Word72)
  | 0, _ => none
  | _ + 1, [] => none
  | fuel + 1, w :: t =>
    let n := (bits w 40 32).toNat
    if n = 0 then (if 4 ≤ t.length then some ([], t.take 4) else none)
    else if t.length < n then none
    else (loadRecords fuel (t.drop n)).map (fun r => ((bits w 0 40, t.take n) :: r.1, r.2))

/-- Plies `a` to `a + n − 1` lie in interleaved frames that the layout in force gives to one of `codes`. -/
def inOwnFrames (s : State) (codes : List OwnerCode) (a n : Nat) : Bool :=
  (pieces n a n).all (fun x => regionOf x.1 == some .deep && codes.contains (frameDefault s (frameOf x.1)).owner)

/-- The targets and task control blocks of a scalar firmware payload lie where R580 allows. -/
def loadOk (s : State) (r : List (Addr × List Word72) × List Word72) : Bool :=
  let safe := fun c => ownerCode (partOf s c) true
  r.1.all (fun x => inOwnFrames s ((List.range 4).map safe) x.1.toNat (6 * x.2.length)) &&
    (List.range 4).all (fun c =>
      let a : Addr := bits (r.2.getD c 0) 0 40
      a == 0 || inOwnFrames s [safe c] a.toNat 1152)

/-- A payload passes the checks of its type (R579, R580). -/
def payloadOk (s : State) (t : Nat) (l : List Byte) : Bool :=
  match t with
  | 1 => (loadRecords (l.length + 1) (payloadWords l)).any (loadOk s)
  | 6 => (odRecords (payloadWords l)).isSome
  | _ => true

/-- The payload of the component of type `t` of an image. -/
def payloadOf (parts : List (Entry × Nat × List Byte)) (t : Nat) : Option (List Byte) :=
  (parts.find? (fun p => p.1.type == t)).map (fun p => p.2.2)

/-- The customer image of a slot, if there is one, passes R465 beside the vector patch of the slot. -/
def customerPartOk (parts : List (Entry × Nat × List Byte)) : Bool :=
  match payloadOf parts 5 with
  | none => true
  | some l => customerOk (match payloadOf parts 3 with | some p => Config.vectorPatchWords p | none => []) (Config.customerWords l)

/-! Verification (R578). -/

/-- The bytes of the customer-key fuses; empty while they are blank. -/
def fuseBytes (s : State) : List Byte := s.fuses.customer.getD []

/-- The key that signs a component: the integrator's when true (R577). -/
def integratorKey (s : State) (t : Nat) : Bool := t == 5 || (t != 3 && t != 4 && s.fuses.customer.isSome)

/-- A component opens under R469 and passes its checks: AUX and plaintext. -/
def openPart (s : State) (b : Bool) (x : Slot) (e : Entry) : Option (Entry × Nat × List Byte) :=
  let k := partBlock (slotBytes b x e.offset e.blen) e.plen
  if e.type = 5 ∧ s.fuses.customer.isNone then none
  else
    (Config.opens (integratorKey s e.type) (fuseBytes s) k.header k.nonce k.cipher k.tag k.sig).bind (fun l =>
      if l.length = e.plen ∧ payloadOk s e.type l then some (e, fieldAt k.header 4 4, l) else none)

/-- The verification of a slot, or the code with which it fails: checks 1 to 6 in order (R578, R587). -/
def verifySlot (s : State) (b : Bool) : Except (BitVec 12) Image :=
  let x := slotOf s b
  let h := slotBytes b x 0 72
  let n := fieldAt h 10 1
  let len := fieldAt h 12 4
  let entries := (List.range n).map (fun i => entryOf (slotBytes b x (72 + 18 * i) 18))
  let es := entries.filterMap id
  if x.cut.isSome ∨ (List.range 72).any (fun k => (slotByte b x k).isNone) ∨ ¬ headerOk h then .error verifyCode
  else if ¬ minsvOk s h then .error rollbackCode
  else if slotSize < len then .error tooLarge
  else if ¬ Config.signatureHolds s.fuses.customer.isSome (fuseBytes s) (slotBytes b x 0 (72 + 18 * n))
      (slotBytes b x (72 + 18 * n) 96) then .error verifyCode
  else if ¬ (entries.all Option.isSome && es.all (fun e =>
      classOf e.type == some e.cls && e.blen == e.plen + 142 && e.offset + e.blen ≤ len &&
        partHeaderOk (slotBytes b x e.offset 18) e) &&
      (List.range 7).all (fun t => (es.filter (fun e => e.type == t)).length ≤ 1) &&
      es.any (fun e => e.type == 6) && disjoint es) then .error verifyCode
  else if ¬ es.all (fun e => minsvOf h e.cls ≤ e.sv) then .error rollbackCode
  else if 1024 < (es.map partFrames).sum then .error tooLarge
  else
    let parts := es.map (openPart s b x)
    if parts.all Option.isSome ∧ customerPartOk (parts.filterMap id) then
      .ok { build := BitVec.ofNat 32 (fieldAt h 16 4), minsv := (List.range 5).map (minsvOf h), parts := parts.filterMap id }
    else .error verifyCode

/-- A slot verifies. -/
def slotGood (s : State) (b : Bool) : Bool := match verifySlot s b with | .ok _ => true | .error _ => false

/-- BUILD of a slot; 0 when its header is not valid (R592). -/
def slotBuild (s : State) (b : Bool) : BitVec 32 :=
  let h := slotBytes b (slotOf s b) 0 72
  if (List.range 72).any (fun k => (slotByte b (slotOf s b) k).isNone) ∨ (headerCode s h none).isSome then 0
  else BitVec.ofNat 32 (fieldAt h 16 4)

/-! Commands (R584, R587, R589, R594). -/

/-- A firmware command runs. -/
def fwBusy (s : State) : Bool := rdB s .fwStat 0

/-- FALLBACK. -/
def fallback (s : State) : Bool := rdB s .fwStat 3

/-- A command begins: BUSY is 1. -/
def beginFw (s : State) (c : FwCmd) : State := wrB { s with fw := { s.fw with cmd := some c } } .fwStat 0 true

/-- A USDO download of 0x1F50:01 is open (R595). -/
def downloadOpen (s : State) : Bool := s.can.sessions.any (fun x => x.2.2)

/-- The reasons against a command, whoever issues it (R583, R591, R594, R595). -/
def fwReasons (s : State) (op : BitVec 3) : List (Bool × Reject) :=
  let src := (rd s .fwSrcl).toNat + (rdF s .fwSrch 0 16).toNat * 2 ^ 24
  let off := (rdF s .fwOff 0 24).toNat
  let len := (rdF s .fwLen 0 20).toNat
  [ (fwBusy s || downloadOpen s, .busy),
    (op == 5 && s.fuses.customer.isSome, .writtenOnce),
    (op == 0 || 6 ≤ op.toNat || ((op == 2 || op == 5) && plyInWord src != 0) ||
      (op == 2 && (len == 0 || 524288 < len || 14913080 < off + len)), .reservedCode),
    (op == 4 && (fallback s || inRecovery s), .notPermitted) ]

/-- The command that the FW_ registers describe. -/
def fwCommand (s : State) (op : BitVec 3) (code : OwnerCode) : FwCmd :=
  { op, src := (rd s .fwSrcl).toNat + (rdF s .fwSrch 0 16).toNat * 2 ^ 24, off := (rdF s .fwOff 0 24).toNat,
    len := (rdF s .fwLen 0 20).toNat, owner := code, verified := op == 3 && slotGood s (!activeSlot s) }

/-- The writers of the FW_ registers (R593). -/
def mayFw (a : Auth) : Bool := a.host == some 0 || a.aftar || (a.host.isNone && a.safSup 0)

/-- Writes to the FW_ registers (R593, R594); they answer in RUN and RECOVERY only. -/
def writeFwBlock (s : State) (a : Auth) (r : Rg) (v : Reg24) : Written :=
  if ¬ inRun s ∧ ¬ inRecovery s then .ok s
  else match r with
    | .fwCmd =>
      let op : BitVec 3 := bits v 0 3
      judge ((!mayFw a, .notPermitted) :: fwReasons s op) (beginFw s (fwCommand s op a.code))
    | _ => judge [(!mayFw a, .notPermitted)] (store s r v)

/-- Ply `a` lies in a frame of the partition of owner code `o` (R589). -/
def sourceFrame (s : State) (o : OwnerCode) (a : Nat) : Bool :=
  inFrames a && decide (o.toNat < 8) && decide ((frameAt s (frameOf a)).owner.toNat < 8) &&
    codePart (frameAt s (frameOf a)).owner == codePart o

/-- The words of a command's source (R589): in RUN words of frames of the writer's partition read by master 21 with its code, in RECOVERY words
of cistern 0; a code where they are refused or poisoned, and none while one is held. -/
def sourceWords (s : State) (c : FwCmd) (n : Nat) : Option (Except (BitVec 12) (List Word72) × State) :=
  let w : Who := { code := c.owner, safety := codeSafety c.owner, sup := true, master := 21 }
  (List.range n).foldl (fun x i =>
    match x with
    | none => none
    | some (.error e, t) => some (.error e, t)
    | some (.ok l, t) =>
      let a := c.src + 6 * i
      let v : Verdict × State :=
        if inRecovery t then ((if regionOf a = some (.cistern 0) ∧ cisState t 0 = 0 then .ok else .refused), t)
        else
          let r := checked t w a .read
          if r.1 = .ok ∧ ¬ sourceFrame t c.owner a then (.refused, t) else if inFrames a then r else (.refused, t)
      match v with
      | (.held, _) => none
      | (.refused, t1) => some (.error Reject.notPermitted.code, countFailure t1)
      | (.ok, t1) =>
        match readWord t1 a 21 with
        | (d, t2) => if d.poison then some (.error Reject.reservedCode.code, t2) else some (.ok (l ++ [d.data]), t2))
    (some (.ok [], s))

/-- The nine host bytes of each word (R5). -/
def hostBytes (l : List Word72) : List Byte := l.flatMap (fun w => (List.range 9).map (wordByte w))

/-- A command ends: done with `result` for 0x1F57, the last CODE standing, or failed with a code (R588, R594). -/
def fwDone (s : State) (result : BitVec 7) : State :=
  let s1 := { s with fw := { s.fw with cmd := none, result } }
  wrB (wrB (wrB s1 .fwStat 0 false) .fwStat 1 true) .fwStat 2 false

def fwFail (s : State) (result : BitVec 7) (code : BitVec 12) : State :=
  let s1 := { s with fw := { s.fw with cmd := none, result, lastCode := code } }
  post (wrB (wrB (wrB s1 .fwStat 0 false) .fwStat 1 true) .fwStat 2 true) .fwCmdStatus 0 (.firmware code)

/-- A flash erase or write fails (R595); the CODE that it posts is not given. -/
def flashFail (s : State) : State := let r := drawBits 12 s; fwFail r.2 4 r.1

/-- Some of the first 72 bytes lie at or after byte `off`, and all of them are present in `x` (R585). -/
def headerReached (b : Bool) (x : Slot) (off : Nat) : Bool := off < 72 && (List.range 72).all (fun k => (slotByte b x k).isSome)

/-- CLEAR ends (R584). -/
def clearDone (s : State) (ok : Bool) : State :=
  let b := !activeSlot s
  if ok then fwDone (setSlot s b { erased := true }) 1
  else flashFail (setSlot { s with free := s.free + 1 } b { epoch := s.free + 1 })

/-- The flash write of a chunk fails: what its bytes hold is open (R595). -/
def failedWrite (s : State) (b : Bool) (x : Slot) (c : FwCmd) : State :=
  flashFail (setSlot { s with free := s.free + 9 * c.len } b
    { x with bytes := (List.range (9 * c.len)).foldl (fun t i => t.insert (9 * c.off + i) (Config.freeBits 8 (s.free + i))) x.bytes })

/-- PROGRAM ends: its chunk is written, unless the header that it completes is refused (R585, R589). -/
def programDone (s : State) (c : FwCmd) (ok : Bool) : State :=
  let b := !activeSlot s
  match sourceWords s c c.len with
  | none => s
  | some (.error e, t) => fwFail t t.fw.result e
  | some (.ok l, t) =>
    let x := slotOf t b
    let y := x.write b (9 * c.off) (hostBytes l)
    if headerReached b y (9 * c.off) then
      match headerCode t (slotBytes b y 0 72) none with
      | some e => fwFail t 2 e
      | none => if ok then fwDone (setSlot t b y) 0 else failedWrite t b x c
    else if ok then fwDone (setSlot t b y) 0
    else failedWrite t b x c

/-- The pointer record is written for the inactive slot into the sector that does not hold the one in force, and the other
sector is erased (R587); ACTIVE shows the slot. -/
def writePointer (s : State) : State :=
  let b := !activeSlot s
  wrB { s with flash := pointerStage s.flash (pointer s) b 3 0 } .fwStat 4 b

/-- ACTIVATE ends (R587, R590). -/
def activateDone (s : State) (ok : Bool) : State :=
  match verifySlot s (!activeSlot s) with
  | .error e => fwFail s 3 e
  | .ok _ =>
    let s1 := setGood s (!activeSlot s) true
    if ok then fwDone (writePointer s1) 0 else flashFail s1

/-- COMMIT ends: each fuse counter rises to MINSV of the running image (R582, R583). -/
def commitDone (s : State) : State :=
  let c := (List.range 5).foldl (fun t k =>
    let m := s.fw.minsv.getD k 0
    let m1 := if m ≤ 63 then m else 63
    if t.get k 0 < m1 then t.put k m1 0 else t) s.fuses.counters
  fwDone { s with fuses := { s.fuses with counters := c } } 0

/-- KEYPROG ends: the record is blown into the fuses (R591). -/
def keyprogDone (s : State) (c : FwCmd) : State :=
  match sourceWords s c 10 with
  | none => s
  | some (.error e, t) => fwFail t t.fw.result e
  | some (.ok l, t) =>
    let k := hostBytes l
    if (k.drop 80).all (fun b => b == 0) then fwDone { t with fuses := { t.fuses with customer := some (k.take 80) } } 0
    else fwFail t t.fw.result Reject.reservedCode.code

/-- The running command finishes (R584, R587, R594). -/
def completeFw (s : State) (ok : Bool) : State :=
  match s.fw.cmd with
  | none => s
  | some c =>
    match c.op.toNat with
    | 1 => clearDone s ok
    | 2 => programDone s c ok
    | 3 => activateDone s ok
    | 4 => commitDone s
    | _ => keyprogDone s c

end Sys2Proof.Machine
end

