-- ==== Sys2Proof/Machine/Od.lean ====
section
/-! DEFINITION. The object dictionary: its entries (R530 to R540, R588, R592), who may read and write them (R537), the checks of a
value (R531, R533, R534, R552), the mailbox (R545, R547), USDO (R536), and the download of an image (R585, R588, R595). -/

namespace Sys2Proof.Machine

/-! Aborts (R543, R544, R586). -/

/-- Why an access of an object is not served: a reject code of R543 or R586, or a standard abort code. -/
inductive OdErr where
  | reject (r : Reject)
  | std (code : BitVec 32)
deriving DecidableEq, Repr

/-- The USDO abort code (R543, R544, R586). -/
def OdErr.abort : OdErr → BitVec 32
  | .reject .notReady => 0x08000022
  | .reject r => 0x08000040 + r.code.setWidth 32
  | .std c => c

/-- The reject code for CODE of HST_ODSTAT_f: 0 for a standard abort (R547). -/
def OdErr.code : OdErr → BitVec 12
  | .reject r => r.code
  | .std _ => 0

def noObject : OdErr := .std 0x06020000
def noSub : OdErr := .std 0x06090011
def noWriter : OdErr := .std 0x06010002
def noAccess : OdErr := .std 0x06010000
def badLength' : OdErr := .std 0x06070010
def badRange : OdErr := .std 0x06090030
def noSession : OdErr := .std 0x05040005
def timedOut : OdErr := .std 0x05040000

/-! Entries (R539). -/

/-- A number with bit `i` set where `f i`. -/
def flagNat (n : Nat) (f : Nat → Bool) : Nat := (List.range n).foldl (fun v i => if f i then v + 2 ^ i else v) 0

/-- Bits 11:0 of MOD_TEMP as 0x2200:06 gives them: two's complement in 16 bits. -/
def lidTemp (s : State) : BitVec 16 := (rdF s .modTemp 0 12).signExtend 16

/-- Bits 7:0 of 0x2400:06 (R592). -/
def bootFlags (s : State) : Nat :=
  cond (fallback s) 1 0 + cond s.fuses.customer.isSome 2 0 +
    cond ((List.range 5).any (fun c => decide (fuseCount s c < s.fw.minsv.getD c 0))) 4 0

/-- 0x1F57:01 (R588). -/
def fwStatus (s : State) : Nat := cond (fwBusy s) 1 0 + s.fw.result.toNat * 2 + s.fw.lastCode.toNat * 256

/-- The node-ID in use; none while it is 0xFF, unconfigured (R538, R547). -/
def nodeId (s : State) : Option (BitVec 7) := if rdB s .hstCan 7 then none else some (rdF s .hstCan 0 7)

/-- 0x1014: the COB-ID of the EMCY as stored, or the default of the running image (R579), or that of CiA 1301 (log 55). -/
def emcyCob (s : State) : List Byte :=
  match (s.od.find (odKey 0x1014 0)).or (s.odBase.find (odKey 0x1014 0)) with
  | some v => v
  | none => leBytes 4 (0x80 + (match nodeId s with | some n => n.toNat | none => 0xFF))

/-- The highest subindex of an object that has one (R539); none for a plain object. -/
def highest (index : Nat) : Option Nat :=
  if 0x1800 ≤ index ∧ index < 0x1808 then some 6
  else match index with
    | 0x1016 => some 4 | 0x1018 => some 4 | 0x1F50 => some 1 | 0x1F51 => some 2 | 0x1F56 => some 1 | 0x1F57 => some 1
    | 0x2001 => some 4 | 0x2010 => some 9 | 0x2011 => some 0x13 | 0x2020 => some 2 | 0x2100 => some 4 | 0x2200 => some 6
    | 0x2210 => some 0x9F | 0x2220 => some 0x9E | 0x2300 => some 3 | 0x2400 => some 7 | _ => none

/-- The object exists. -/
def objectExists (index : Nat) : Bool :=
  (highest index).isSome || (0x1A00 ≤ index && index < 0x1A08) ||
    [0x1000, 0x1001, 0x1005, 0x1006, 0x1014, 0x1017, 0x2000].contains index

/-- The communication objects 0x1005 to 0x1A07 (R536, R537). -/
def isComm (index : Nat) : Bool := 0x1005 ≤ index && index ≤ 0x1A07 && index != 0x1018

/-- The value of an entry other than a subindex 0x00 that names the highest one; none where it does not exist. -/
def entryValue (s : State) (index sub : Nat) : Option (List Byte) :=
  let reg := fun (n : Nat) (r : Rg) => some (leBytes n (rd s r).toNat)
  match index with
  | 0x1000 => if sub = 0 then some (leBytes 4 0) else none
  | 0x1001 => if sub = 0 then some [errorRegister (health s)] else none
  | 0x1014 => if sub = 0 then some (emcyCob s) else none
  | 0x1018 =>
    if sub = 1 then some (leBytes 4 0x5C7)
    else if sub = 2 then some (leBytes 4 (if Config.variantX then 0x7F02 else 0x7F01))
    else if sub = 3 then some (leBytes 4 3)
    else if sub = 4 then some (leBytes 4 Config.serial.toNat) else none
  | 0x1F51 => if sub = 1 then some [1] else if sub = 2 then some [Config.freeBits 8 s.free] else none
  | 0x1F56 => if sub = 1 then some (leBytes 4 s.fw.build.toNat) else none
  | 0x1F57 => if sub = 1 then some (leBytes 4 (fwStatus s)) else none
  | 0x2000 => if sub = 0 then some [mode s] else none
  | 0x2200 =>
    if sub = 1 then some (leBytes 4 (health s).toNat)
    else if sub = 2 then some (leBytes 4 s.store.failures.toNat)
    else if sub = 3 then some (leBytes 1 (flagNat 5 (fun c => if c = 4 then llState s == 5 else coreLocked s c)))
    else if sub = 4 then some (leBytes 2 (flagNat 16 (pumpFailed s)))
    else if sub = 5 then some (leBytes 16 (flagNat 128 (fun n => rdB s (.dsChStat n) 1)))
    else if sub = 6 then some (leBytes 2 (lidTemp s).toNat) else none
  | 0x2210 =>
    if 1 ≤ sub ∧ sub ≤ 0x9E then
      some (leBytes 3 (rd s (.eccCe (sub - 1))).toNat ++ leBytes 3 (rd s (.eccUe (sub - 1))).toNat ++
        leBytes 3 (rd s (.eccAce (sub - 1))).toNat)
    else if sub = 0x9F then some (leBytes 4 ((rdF s .eccStat 0 2).toNat + (rd s .eccLogHead).toNat * 256)) else none
  | 0x2220 => if 1 ≤ sub ∧ sub ≤ 0x9E then reg 4 (.scrLaptime (sub - 1)) else none
  | 0x2300 => if sub = 1 then reg 4 .llStat else if sub = 2 then reg 4 .llRb else if sub = 3 then reg 4 .llCycle else none
  | 0x2400 =>
    if sub = 1 then some [cond (activeSlot s) 1 0]
    else if sub = 2 then some [match s.fw.running with | some b => cond b 1 0 | none => 0xFF]
    else if sub = 3 then some (leBytes 4 (slotBuild s false).toNat)
    else if sub = 4 then some (leBytes 4 (slotBuild s true).toNat)
    else if sub = 5 then some ((List.range 5).map (fun c => BitVec.ofNat 8 (fuseCount s c)))
    else if sub = 6 then some (leBytes 1 (bootFlags s))
    else if sub = 7 then some (leBytes 4 (match pointer s with | some p => p.1.toNat | none => 0)) else none
  | _ =>
    let stored := odBytes s index sub
    let there := match highest index with
      | some h => 1 ≤ sub && sub ≤ h && !(isComm index && sub == 4 && 0x1800 ≤ index)
      | none => if 0x1A00 ≤ index ∧ index < 0x1A08 then sub ≤ 64 else sub == 0
    if objectExists index && there && stored != [] then some stored else none

/-- The value of an entry (R539). -/
def odValue (s : State) (index sub : Nat) : Option (List Byte) :=
  match sub, highest index with
  | 0, some h => some [BitVec.ofNat 8 h]
  | _, _ => entryValue s index sub

/-! Clients (R537, R588). -/

/-- A client of partition `p`. -/
def clientOf (s : State) (k : Client) (p : Nat) : Bool :=
  match k with
  | .node n _ => bit ((layoutBytes s 0x2010 (p + 5)).getD (n.toNat / 8) 0) (n.toNat % 8)
  | .mailbox f _ => f.val == p

/-- A client of a bound partition. -/
def boundClient (s : State) (k : Client) : Bool := (List.range 4).any (fun p => bound s p && clientOf s k p)

/-- The clients that may write 0x2010, 0x2011, 0x2020, the communication objects and the program download objects. -/
def configClient (s : State) (k : Client) : Bool :=
  let c := layoutNat s 0x2010 9
  c == 0 || (match k with | .node n _ => n.toNat == c | .mailbox f w => f.val == 0 && w)

/-- Objects that any client reads, and that BRING-UP serves. -/
def openObject (index : Nat) : Bool := [0x1000, 0x1001, 0x1018, 0x2000].contains index

/-- The client may read the object. -/
def mayRead (s : State) (k : Client) (index : Nat) : Bool := openObject index || boundClient s k

/-- The client may write the entry; none where it has no writer. -/
def mayWrite (s : State) (k : Client) (index sub : Nat) : Option Bool :=
  if sub = 0 ∧ (highest index).isSome then none
  else if index = 0x2001 ∨ index = 0x2100 then some (clientOf s k (sub - 1))
  else if [0x2010, 0x2011, 0x2020, 0x1F50, 0x1F51].contains index || (isComm index && index < 0x1F00) then some (configClient s k)
  else none

/-! The check of a value. -/

/-- The stored bindings and layout with one value replaced. -/
def layoutWith (s : State) (index sub : Nat) (v : List Byte) (i j : Nat) : List Byte :=
  if i = index ∧ j = sub then v else odBytes s i j

/-- R531: no client bound twice, no reserved bit, WIN at most 6, PORT 0 without a split. -/
def bindingsOk (s : State) (g : Nat → List Byte) : Bool :=
  let part := fun p => leNat (g (p + 1))
  (List.range 4).all (fun p => part p < 32 && part p / 4 ≤ 6 && (part p / 2 % 2 == 0 || rdB s .hstLink 0)) &&
    (List.range 4).all (fun p => !bit ((g (p + 5)).getD 0 0) 0 &&
      (List.range 4).all (fun q => p == q || (List.range 16).all (fun i => (g (p + 5)).getD i 0 &&& (g (q + 5)).getD i 0 == 0)))

/-- An owner byte that R533 admits; `life` where it may name the lifeline. -/
def ownerByteOk (life : Bool) (b : Byte) : Bool :=
  let c := b.toNat % 16
  let home := b.toNat / 16 % 4
  b.toNat < 64 && (c == 15 || c == 2 * home || c == 2 * home + 1 || (life && c == 8))

/-- R533: ranges within the frames and apart, SCNT within FCNT, owner bytes, reserved bits. -/
def layoutOk (g : Nat → List Byte) : Bool :=
  let lo := fun p => leNat (g (p + 1))
  let n := fun p => leNat (g (p + 5))
  (List.range 4).all (fun p =>
    lo p + n p ≤ 2080768 && leNat (g (p + 9)) ≤ n p &&
      (List.range 4).all (fun q => p == q || n p == 0 || n q == 0 || lo p + n p ≤ lo q || lo q + n q ≤ lo p)) &&
    (g 15).all (ownerByteOk false) && (g 16).all (ownerByteOk true) && (g 17).all (ownerByteOk true) &&
    (g 18).all (ownerByteOk true) && (g 19).all (ownerByteOk true)

/-- A mapping entry of a TPDO: nothing, or a read-only entry of 0x2000, 0x2200 or 0x2300 whole (R536). -/
def mappingOk (s : State) (v : Nat) : Bool :=
  let index := v / 65536
  v == 0 || ([0x2000, 0x2200, 0x2300].contains index &&
    (match odValue s index (v / 256 % 256) with | some l => v % 256 == 8 * l.length | none => false))

/-- The bytes that the first `n` mapping entries of TPDO `t` name. -/
def mappedBytes (s : State) (t n : Nat) : List Byte :=
  (List.range n).flatMap (fun i =>
    let v := leNat (odBytes s (0x1A00 + t) (i + 1))
    (odValue s (v / 65536) (v / 256 % 256)).getD [])

/-- The value is one that its object accepts; the error where it is not (R531, R533, R534, R536, R552). -/
def valueError (s : State) (index sub : Nat) (v : List Byte) : Option OdErr :=
  let n := leNat v
  let unless' := fun (ok : Bool) (e : OdErr) => if ok then none else some e
  if index = 0x2001 then unless' ([1, 3, 6, 7].contains n) badRange
  else if index = 0x2010 then
    (if sub = 9 then unless' (n ≤ 127) badRange else unless' (bindingsOk s (layoutWith s index sub v 0x2010)) (.reject .layout))
  else if index = 0x2011 then unless' (layoutOk (layoutWith s index sub v 0x2011)) (.reject .layout)
  else if index = 0x2020 then
    unless' ((if sub = 1 then [125, 250, 500, 1000] else [1000, 2000, 4000, 5000]).contains n) badRange
  else if 0x1A00 ≤ index ∧ index < 0x1A08 then
    unless' (if sub = 0 then n ≤ 64 && (mappedBytes s (index - 0x1A00) n).length ≤ 64
      else mappingOk s n &&
        (mappedBytes (setOd s index sub v) (index - 0x1A00) (leNat (odBytes s index 0))).length ≤ 64) badRange
  else none

/-! Reads and writes. -/

/-- Only the reads of R537 are served in BRING-UP. -/
def servedNow (s : State) (index : Nat) (write : Bool) : Bool := !inBringUp s || (openObject index && !write)

/-- A read of an entry by a client. -/
def readObject (s : State) (k : Client) (index sub : Nat) : Except OdErr (List Byte) :=
  if ¬ servedNow s index false then .error (.reject .notReady)
  else if ¬ objectExists index then .error noObject
  else if index = 0x1F50 ∧ sub = 1 then .error noAccess
  else match odValue s index sub with
    | none => .error noSub
    | some v => if mayRead s k index then .ok v else .error noAccess

/-- A rejection is the last CODE of 0x1F57 (R588). -/
def lastReject (s : State) (code : BitVec 12) : State := { s with fw := { s.fw with lastCode := code } }

/-- The header that a download declares is refused: code and result for 0x1F57 (R585). -/
def refuseDownload (s : State) (code : BitVec 12) : State :=
  { s with fw := { s.fw with result := 2, lastCode := code } }

/-- A download of 0x1F50:01 from image byte 0 (R585, R588, R595): the state after it, and its error. -/
def download (s : State) (bytes : List Byte) : Option OdErr × State :=
  let b := !activeSlot s
  if fwBusy s then (some (.reject .busy), lastReject s Reject.busy.code)
  else
    let bad := fun c => (some (.reject (.firmware c)), refuseDownload s c)
    if bytes.length < 72 then bad badHeader
    else match headerCode s (bytes.take 72) (some bytes.length) with
      | some c => bad c
      | none =>
        let t := setSlot s b { (slotOf s b).write b 0 bytes with cut := none }
        (none, { t with fw := { t.fw with result := 0 } })

/-- A write of 0x1F51 (R588): CLEAR, ACTIVATE or COMMIT begins. -/
def programControl (s : State) (sub n : Nat) : Option OdErr × State :=
  let op : BitVec 3 := if sub = 2 then (if n = 1 then 4 else 0) else if n = 3 then 1 else if n = 1 then 3 else 0
  if op = 0 then (some badRange, s)
  else match (fwReasons s op).find? (fun x => x.1) with
    | some (_, r) => (some (.reject r), lastReject s r.code)
    | none => (none, beginFw s (fwCommand s op 0))

/-- Why a client may not write an entry, whatever the value (R537, R544). -/
def writeBar (s : State) (k : Client) (index sub : Nat) : Option OdErr :=
  if ¬ servedNow s index true then some (.reject .notReady)
  else if ¬ objectExists index then some noObject
  else if index ≠ 0x1F50 ∧ (odValue s index sub).isNone ∨ (index = 0x1F50 ∧ 1 < sub) then some noSub
  else match mayWrite s k index sub with
    | none => some noWriter
    | some false => some noAccess
    | some true => none

/-- A write of an entry by a client: its error, if any, and the state after it. -/
def writeObject (s : State) (k : Client) (index sub : Nat) (v : List Byte) : Option OdErr × State :=
  match writeBar s k index sub with
  | some e => (some e, s)
  | none =>
    if index = 0x1F50 then download s v
    else if v.length ≠ ((odValue s index sub).getD []).length then (some badLength', s)
    else if index = 0x1F51 then programControl s sub (leNat v)
    else match valueError s index sub v with
      | some e => (some e, s)
      | none => (none, reconsider (setOd (if index = 0x2001 then noteTold s (sub - 1) else s) index sub v))

/-! CAN clients (R535, R536). -/

/-- The USDO server answers: the node has a node-ID and is not stopped (CiA 1301, log 55). -/
def usdoServed (s : State) : Bool := (nodeId s).isSome && s.can.nmt != 4

/-- The answer to a CAN client. -/
def answerUsdo (s : State) (n : BitVec 7) (bus : Bool) (e : Option OdErr) (bytes : List Byte) : State :=
  sendCan s (.usdo n bus (match e with | some x => x.abort | none => 0) bytes)

/-- A free value that a read of 0x1F51:02 takes is drawn. -/
def drawn (s : State) (index sub : Nat) : State := if index = 0x1F51 ∧ sub = 2 then { s with free := s.free + 1 } else s

/-- A transfer of a CAN client takes place: a write of `v`, or a read (R536). -/
def transfer (s : State) (n : BitVec 7) (bus : Bool) (index sub : Nat) (v : Option (List Byte)) : State :=
  match v with
  | some l =>
    match writeObject s (.node n bus) index sub l with
    | (e, t) => answerUsdo t n bus e []
  | none =>
    match readObject s (.node n bus) index sub with
    | .error e => answerUsdo s n bus (some e) []
    | .ok l => answerUsdo (drawn s index sub) n bus none l

/-- The error with which a segmented transfer of an entry by a client is refused when it is to open: the client may not make it (R537, R544, R562,
R588), or it is a download of an image while a firmware command runs (R595). -/
def openError (s : State) (k : Client) (index sub : Nat) (write : Bool) : Option OdErr :=
  if write then (writeBar s k index sub).or (if index = 0x1F50 ∧ fwBusy s then some (.reject .busy) else none)
  else match readObject s k index sub with
    | .error e => some e
    | .ok _ => none

/-- A transfer was refused as it was to open; BUSY is the last CODE of 0x1F57 then, as at a whole download (R588). -/
def notOpened (s : State) (e : OdErr) : State :=
  match e with
  | .reject .busy => lastReject s Reject.busy.code
  | _ => s

/-- A USDO request (R536): a segmented one opens a session, which the next request of the client ends; at most eight are
open at once. -/
def usdoRequest (s : State) (n : BitVec 7) (bus : Bool) (index sub : Nat) (v : Option (List Byte)) (segmented : Bool) : State :=
  let others := s.can.sessions.filter (fun x => x.1 != n)
  if ¬ usdoServed s ∨ rdF s .hstCan (if bus then 10 else 8) 2 = 2 then s
  else if 8 ≤ others.length then answerUsdo s n bus (some noSession) []
  else
    let s1 := { s with can := { s.can with sessions := others } }
    if segmented then
      match openError s1 (.node n bus) index sub v.isSome with
      | some e => answerUsdo (notOpened s1 e) n bus (some e) []
      | none =>
        { s1 with can := { s1.can with sessions := others ++ [(n, bus, index == 0x1F50 && sub == 1 && v.isSome)] } }
    else transfer s1 n bus index sub v

/-- A segmented session has been idle for 1 s (R536). -/
def sessionTimeout (s : State) (n : BitVec 7) : State :=
  match s.can.sessions.find? (fun x => x.1 == n) with
  | none => s
  | some x =>
    answerUsdo { s with can := { s.can with sessions := s.can.sessions.filter (fun y => y.1 != n) } } n x.2.1 (some timedOut) []

/-! The mailbox (R545, R547). -/

/-- Bytes `off` to `off + n − 1` of a value; beyond its end they are free. -/
def bytesAt (s : State) (l : List Byte) (off n : Nat) : List Byte × State :=
  ((List.range n).map (fun i => l.getD (off + i) (Config.freeBits 8 (s.free + i))), { s with free := s.free + n })

/-- The bytes that HST_ODDAT0_f to HST_ODDAT2_f hold. -/
def odData (s : State) (f n : Nat) : List Byte := (List.range n).map (fun i => rdF s (.odDat f (i / 3)) (8 * (i % 3)) 8)

/-- Those registers take bytes. -/
def setOdData (s : State) (f : Nat) (l : List Byte) : State :=
  ((List.range l.length).zip l).foldl (fun t x => wrF t (.odDat f (x.1 / 3)) (8 * (x.1 % 3)) x.2) s

/-- A mailbox command completes: its result code, abort code and size. -/
def odResult (s : State) (f : Nat) (e : Option OdErr) (size : Nat) : State :=
  let c : BitVec 12 := match e with | some x => x.code | none => 0
  let ab : BitVec 32 := match e with | some x => x.abort | none => 0
  let v : Reg24 := setBits (setBits (setBit (setBit 0 1 true) 2 e.isSome) 3 (BitVec.ofNat 9 size)) 12 c
  wr (wr (wr s (.odStat f) v) (.odAbl f) (bits ab 0 24)) (.odAbh f) ((bits ab 24 8).setWidth 24)

/-- A write by a client of any kind: a CAN client's is a USDO request, answered with its abort code or with success (R536, R543, R552, R562,
R585); one through the mailbox, which is reached where its registers answer (R549, R562), posts its result there (R545, R547). -/
def clientWrite (s : State) (k : Client) (index sub : Nat) (v : List Byte) : State :=
  match k with
  | .node n bus => usdoRequest s n bus index sub (some v) false
  | .mailbox f _ =>
    if inBringUp s ∨ (¬ pcieOn s ∧ ¬ s.modes.emulated) then s
    else match writeObject s k index sub v with
      | (e, t) => odResult t f e v.length

/-- A mailbox read command. -/
def mailboxGet (s : State) (f : Nat) (k : Client) (index sub off len : Nat) : State :=
  let give := fun (t : State) (l : List Byte) =>
    match bytesAt t l off len with
    | (b, u) => odResult (setOdData u f b) f none l.length
  if off = 0 then
    match readObject s k index sub with
    | .error e => odResult (setHost s f { hostOf s f with snapshot := [] }) f (some e) 0
    | .ok l => give (drawn (setHost s f { hostOf s f with snapshot := l }) index sub) l
  else give s (hostOf s f).snapshot

/-- A mailbox write command: bytes are staged, and the last one offers the value. -/
def mailboxPut (s : State) (f : Nat) (k : Client) (index sub off len : Nat) (final : Bool) : State :=
  let old := bytesAt s (hostOf s f).staged 0 (if off ≤ (hostOf s f).staged.length then 0 else off)
  let before := if off ≤ (hostOf s f).staged.length then (hostOf s f).staged else old.1
  let all := before.take off ++ odData s f len ++ before.drop (off + len)
  let s1 := setHost old.2 f { hostOf s f with staged := all }
  if final then
    match writeObject s1 k index sub (all.take (off + len)) with
    | (e, t) => odResult t f e (off + len)
  else odResult s1 f none (off + len)

/-- A write of HST_ODCMD_f: the command runs to its end (R545, R547). -/
def writeOdCmd (s : State) (a : Auth) (f : Nat) (v : Reg24) : Written :=
  let len := (bits v 1 4).toNat
  let off := (rdF s (.odOff f) 0 9).toNat
  let index := (rdF s (.odIdx f) 0 16).toNat
  let sub := (rdF s (.odIdx f) 16 8).toNat
  let k : Client := .mailbox (Fin.ofNat 4 f) (a.host.isNone && a.safety && a.sup)
  judge [ (!mayMailbox a f, .notPermitted), (rdB s (.odStat f) 0, .busy), (len == 0 || 9 < len || 256 < off + len, .reservedCode) ]
    (if bit v 0 then mailboxPut s f k index sub off len (bit v 5) else mailboxGet s f k index sub off len)

/-- Writes to the HST_ registers (R542, R545, R547). -/
def writeHostBlock (s : State) (a : Auth) (r : Rg) (v : Reg24) : Written :=
  match r with
  | .hstSyncevt => writeSyncEvt s a v
  | .odIdx f => judge [(!mayMailbox a f, .notPermitted)] (store s r v)
  | .odOff f => judge [(!mayMailbox a f, .notPermitted)] (store s r v)
  | .odDat f _ => judge [(!mayMailbox a f, .notPermitted)] (store s r v)
  | .odStat f => judge [(!mayMailbox a f, .notPermitted)] (store s r v)
  | .odAbl f => judge [(!mayMailbox a f, .notPermitted)] (store s r v)
  | .odAbh f => judge [(!mayMailbox a f, .notPermitted)] (store s r v)
  | .odCmd f => writeOdCmd s a f v
  | .msiv f n => writeMsiv s a f n v
  | _ => .ok (store s r v)

end Sys2Proof.Machine
end

