-- ==== Sys2Proof/Machine/Can.lean ====
section
/-! DEFINITION. The CAN FD node (R534 to R538, R541, R542): NMT, SYNC, heartbeats, TPDOs, bus states, and LSS. The rules of
CiA 301 and CiA 305 that the spec names are PRESUMED (log 55). -/

namespace Sys2Proof.Machine

/-! NMT (R536, R538). -/

/-- An NMT command moves the node; an unconfigured node has no NMT slave. -/
def nmtCommand (s : State) (c : NmtCommand) : State :=
  if (nodeId s).isNone then s
  else { s with can := { s.can with nmt := match c with | .start => 5 | .stop => 4 | .preOperational => 0x7F } }

/-- NMT reset communication or reset node: the node-ID and bit timing configured take effect, and every USDO session is aborted
(R534, R536, R538). -/
def resetCommunication (s : State) : State :=
  let s1 := match s.can.nodeNew with
    | some n => if n = 0xFF then wrB (wrF s .hstCan 0 (0x7F : BitVec 7)) .hstCan 7 true
        else wrB (wrF s .hstCan 0 (bits n 0 7)) .hstCan 7 false
    | none => s
  let stored : BitVec 16 × BitVec 16 := (BitVec.ofNat 16 (leNat (odBytes s 0x2020 1)), BitVec.ofNat 16 (leNat (odBytes s 0x2020 2)))
  let t := s.can.timingNew.getD stored
  { s1 with can := { s1.can with
    nmt := 0x7F, sessions := [], nodeNew := none, timingNew := none, nominal := t.1, data := t.2 } }

/-! SYNC, heartbeat, TPDO (R535, R536, R542). -/

/-- A SYNC frame arrives on a bus, CANB when true (R535, R542). -/
def syncFrame (s : State) (bus : Bool) : State :=
  let half := 20 * leNat (odBytes s 0x1006 0)
  let late := match s.can.syncBus with
    | some (b, t) => b != bus && decide (s.clock < t + half)
    | none => false
  if (nodeId s).isNone ∨ s.can.nmt = 4 ∨ late = true then s
  else
    let s1 := { s with can := { s.can with syncBus := some (bus, s.clock) } }
    let m := (rdF s1 .hstSyncevt 0 8).toNat
    assertIf s1 (rdB s1 .hstSyncevt 8) m (lineOwner s1 m)

/-- The heartbeat producer's interval passes. -/
def produceHeartbeat (s : State) : State :=
  if (nodeId s).isNone ∨ leNat (odBytes s 0x1017 0) = 0 then s else sendCan s (.heartbeat s.can.nmt)

/-- TPDO `n` is transmitted with its mapped values, when its COB-ID is valid and the node is operational. -/
def sendTpdo (s : State) (n : Nat) : State :=
  let cob := leNat (odBytes s (0x1800 + n) 1)
  if (nodeId s).isNone ∨ s.can.nmt ≠ 5 ∨ 2 ^ 31 ≤ cob then s
  else sendCan s (.tpdo n ((mappedBytes s n (leNat (odBytes s (0x1A00 + n) 0))).take 64))

/-- A node is monitored by an entry of 0x1016. -/
def monitored (s : State) (n : BitVec 7) : Bool :=
  (List.range 4).any (fun i =>
    let v := leNat (odBytes s 0x1016 (i + 1))
    v / 65536 % 256 == n.toNat && n != 0 && v % 65536 != 0)

/-- A heartbeat of a monitored node arrives. -/
def heardHeartbeat (s : State) (n : BitVec 7) : State :=
  if monitored s n ∧ n ∉ s.can.seen then { s with can := { s.can with seen := s.can.seen ++ [n] } } else s

/-- The consumer time of a monitored node passes. -/
def heartbeatLost (s : State) (n : BitVec 7) : State :=
  { s with can := { s.can with seen := s.can.seen.filter (· != n) } }

/-! Bus states (R535, R541, R547). -/

/-- STA or STB of HST_CAN takes a value. -/
def setBus (s : State) (bus : Bool) (v : BitVec 2) : State := report (wrF s .hstCan (if bus then 10 else 8) v)

/-- The state of a bus. -/
def busState (s : State) (bus : Bool) : BitVec 2 := rdF s .hstCan (if bus then 10 else 8) 2

/-- A bus passes between error active and error passive. -/
def errorPassive (s : State) (bus passive : Bool) : State :=
  if busState s bus = 2 then s else setBus s bus (if passive then 1 else 0)

/-- A bus-off controller has recovered. -/
def recoverBus (s : State) (bus : Bool) : State := if busState s bus = 2 then setBus s bus 0 else s

/-! LSS (R538). -/

/-- The four fields of the LSS address, 0x1018:01 to 0x1018:04. -/
def identity (i : Nat) : BitVec 32 :=
  match i with
  | 0 => 0x5C7 | 1 => (if Config.variantX then 0x7F02 else 0x7F01) | 2 => 3 | _ => Config.serial

/-- The answer that identifies the unit. -/
def lssAnswer (s : State) (spec : Byte) (v : BitVec 32) : State := sendCan s (.lss spec v)

/-- Switch state global. -/
def switchGlobal (s : State) (config : Bool) : State := { s with can := { s.can with lssConfig := config } }

/-- Switch state selective: the addressed unit goes to configuration state. -/
def switchSelective (s : State) (id : BitVec 128) : State :=
  if id = identity 0 ++ identity 1 ++ identity 2 ++ identity 3 then
    lssAnswer { s with can := { s.can with lssConfig := true } } 0x44 0
  else s

/-- Configure node-ID: 1 to 127, or 0xFF. -/
def configureNode (s : State) (n : Byte) : State :=
  if ¬ s.can.lssConfig then s
  else if (1 ≤ n.toNat ∧ n.toNat ≤ 127) ∨ n = 0xFF then
    lssAnswer { s with can := { s.can with nodeNew := some n } } 0x11 0
  else lssAnswer s 0x11 1

/-- Configure bit timing: rates that R534 accepts. -/
def configureTiming (s : State) (nominal data : BitVec 16) : State :=
  if ¬ s.can.lssConfig then s
  else if [125, 250, 500, 1000].contains nominal.toNat && [1000, 2000, 4000, 5000].contains data.toNat then
    lssAnswer { s with can := { s.can with timingNew := some (nominal, data) } } 0x13 0
  else lssAnswer s 0x13 1

/-- The node-ID in use as LSS gives it: 0xFF when unconfigured. -/
def lssNode (s : State) : Byte := match nodeId s with | some n => n.setWidth 8 | none => 0xFF

/-- Store configuration: the node-ID and the bit timing go to flash. -/
def storeLss (s : State) : State :=
  if ¬ s.can.lssConfig then s
  else
    let n := s.can.nodeNew.getD (lssNode s)
    lssAnswer { s with can := { s.can with
      nodeStored := if n = 0xFF then none else some n
      timingStored := some (s.can.timingNew.getD (s.can.nominal, s.can.data)) } } 0x17 0

/-- Inquire identity. -/
def inquire (s : State) (field : Nat) : State :=
  if s.can.lssConfig then lssAnswer s (BitVec.ofNat 8 (0x5A + field)) (identity field) else s

/-- Inquire node-ID. -/
def inquireNode (s : State) : State := if s.can.lssConfig then lssAnswer s 0x5E ((lssNode s).setWidth 32) else s

/-- Identify remote slave. -/
def identify (s : State) (vendor product revLow revHigh serLow serHigh : BitVec 32) : State :=
  if vendor = identity 0 ∧ product = identity 1 ∧ revLow ≤ identity 2 ∧ identity 2 ≤ revHigh ∧ serLow ≤ identity 3 ∧
    identity 3 ≤ serHigh then lssAnswer s 0x4F 0
  else s

/-- The unit has a node-ID: one in use, or one that LSS has given it and that waits for reset communication (R538). -/
def hasNode (s : State) : Bool := match s.can.nodeNew with | some n => n != 0xFF | none => (nodeId s).isSome

/-- A fastscan step: an unconfigured unit in waiting state answers when the bits from `bit` up of the field agree; one that has been given a
node-ID answers no more (R538). -/
def fastscanStep (s : State) (idn : BitVec 32) (bit sub next : Byte) : State :=
  if (nodeId s).isSome ∨ hasNode s ∨ s.can.lssConfig then s
  else if bit = 0x80 then lssAnswer { s with can := { s.can with scanField := 0 } } 0x4F 0
  else if 32 ≤ bit.toNat ∨ sub.toNat ≠ s.can.scanField ∨ 4 ≤ sub.toNat then s
  else if idn >>> bit.toNat ≠ identity sub.toNat >>> bit.toNat then s
  else if bit ≠ 0 then lssAnswer s 0x4F 0
  else lssAnswer { s with can := { s.can with scanField := next.toNat, lssConfig := decide (next < sub) } } 0x4F 0

end Sys2Proof.Machine
end

