-- ==== Sys2Proof/Machine/Bank.lean ====
section
/-! DEFINITION. The registers of a bank by the numbers of R448, as MFBW, MTBW, REGRD and REGWR reach them (R395, R449, R601). -/

namespace Sys2Proof.Machine

/-- Register `n`, slice `j`, of a context; none for an unused number or slice (R448). `loops` are the loop levels that 89 to 91
name. -/
def Ctx.bankGet (x : Ctx) (loops : List Loop) (n j : Nat) : Option Word72 :=
  let w := fun v : W48 => some (v.setWidth 72)
  let a := fun v : Addr => some (v.setWidth 72)
  if 72 ≤ n ∧ n < 88 then (if j < 3 then some ((bits (x.vdr (n - 72)) (48 * j) 48).setWidth 72) else none)
  else if n = 88 then
    (if j = 0 then some ((bits x.vfr 0 48).setWidth 72) else if j = 1 then some ((bits x.vfr 48 24).setWidth 72) else none)
  else if j ≠ 0 then none
  else if n < 32 then w (x.gr n)
  else if n < 64 then w (x.fr (n - 32))
  else if n < 72 then some ((x.mr (n - 64)).setWidth 72)
  else if 89 ≤ n ∧ n < 92 then some (loopWord loops[n - 89]?)
  else match n with
    | 96 => a x.pc | 97 => w x.stw | 98 => a x.dspU | 99 => a x.dspS | 100 => a x.rspU | 101 => a x.rspS | 102 => a x.ssp
    | 103 => a x.xfp | 104 => w x.xc | 105 => w x.xstw | 106 => a x.xdspU | 107 => a x.xdspS | 108 => a x.xrspU
    | 109 => a x.xrspS | 110 => a x.xxfp
    | _ => none

/-- STW as MTBW writes it: FLAGS, SATS, RM, FTZ, DAZ, LVL and IE only (R449). -/
def bankStw (old new : W48) : W48 := setBit (setBit (setBits old 0 (bits new 0 11)) 12 (bit new 12)) 14 (bit new 14)

/-- Register `n`, slice `j`, of a context takes a value; STW under R449. -/
def Ctx.bankSet (x : Ctx) (n j : Nat) (v : Word72) : Ctx :=
  let w : W48 := bits v 0 48
  let a : Addr := bits v 0 40
  if 72 ≤ n ∧ n < 88 then x.setVdr (n - 72) (setBits (x.vdr (n - 72)) (48 * j) w)
  else if n = 88 then (if j = 0 then { x with vfr := setBits x.vfr 0 w } else { x with vfr := setBits x.vfr 48 (bits v 0 24) })
  else if n < 32 then x.setGr n w
  else if n < 64 then x.setFr (n - 32) w
  else if n < 72 then x.setMr (n - 64) (bits v 0 16)
  else match n with
    | 96 => { x with pc := pcAlign a } | 97 => { x with stw := bankStw x.stw w } | 98 => { x with dspU := a }
    | 99 => { x with dspS := a } | 100 => { x with rspU := a } | 101 => { x with rspS := a } | 102 => { x with ssp := a }
    | 103 => { x with xfp := a }
    | _ => x

/-- A context of the lifeline core: STW.WORLD and STW.LVL read 1, DSP_U and RSP_U read zero (R377, R419). -/
def Ctx.ofLifeline (x : Ctx) : Ctx := { x with stw := setBit (setBit x.stw 12 true) 13 true, dspU := 0, rspU := 0 }

/-- The loop levels with word `i` replaced, counted from the innermost; a closed word ends the list (R395). -/
def setLoopWord (l : List Loop) (i : Nat) (v : Word72) : List Loop :=
  match loopOf v with
  | some x => if i < l.length then l.set i x else l ++ [x]
  | none => l.take i

/-- The save state of R434. -/
def isSaveState (n : Nat) : Bool := 104 ≤ n && n < 111

end Sys2Proof.Machine
end

