-- ==== Sys2Proof/Machine/Debug.lean ====
section
/-! DEFINITION. Run control (R599 to R607), freezes (R608), trace (R610 to R612), and writes to the DBG_ registers (R615,
R616). -/

namespace Sys2Proof.Machine

/-! Permission (R599). -/

/-- The probe may debug the owner of a code: a partition, or the lifeline. -/
def mayDebugCode (s : State) (o : OwnerCode) : Bool :=
  if o = 8 then rdB s .dbgPermit 4 else if o.toNat < 8 then rdB s .dbgPermit (codePart o) else true

/-- The probe may debug a core. -/
def mayDebugCore (s : State) (c : Nat) : Bool := if c = 4 then rdB s .dbgPermit 4 else rdB s .dbgPermit (partOf s c)

/-- A start or an enable halts a core at its first instruction: HOR, on a core that the probe may debug (R605, R622). -/
def haltOnRelease (s : State) (c : Nat) : Bool := rdB s .dbgCtl 5 && mayDebugCore s c

/-! The TAP (R596). -/

/-- The JTAG IDCODE of the ordering code (R2, R596). -/
def idcode : BitVec 32 := if Config.variantX then 0x37F02B8F else 0x37F01B8F

/-- The data register that an instruction code selects, by its length in bits: IDCODE, AFTAR_ACC, and BYPASS for every other code. -/
def tapLength (ir : BitVec 5) : Nat := if ir = 1 then 32 else if ir = 0x10 then 120 else 1

/-- What Capture-DR takes under the instruction in force: the IDCODE; STS, ADDR and data of the last access (R597); zero in BYPASS. -/
def tapCapture (s : State) : Nat :=
  if s.dbg.ir = 1 then idcode.toNat
  else if s.dbg.ir = 0x10 then s.dbg.sts.toNat + s.dbg.addr.toNat * 2 ^ 4 + s.dbg.data.toNat * 2 ^ 44
  else 0

/-- An Update-DR of AFTAR_ACC: the controller is out of Test-Logic-Reset, with that instruction in force (R596, R597; log 160). -/
def underAftar (s : State) : State := { s with dbg := { s.dbg with testReset := false, ir := 0x10 } }

/-- What Capture-IR takes. -/
def tapIr : BitVec 5 := 1

/-! Halts (R603, R609). -/

/-- BUSY and DONE of DBG_CMD_STATUS when a command ends. -/
def debugDone (s : State) : State := setFlag (wrB s .dbgCmdStatus 0 false) .dbgCmdStatus 1

/-- An open chain is discarded: PC is that of its first instruction (R222). -/
def discardChain (s : State) (c : Nat) : State :=
  let x := ctxOf s c
  let s1 := setCore s c { coreOf s c with closing := false }
  if x.chain = [] then s1 else setCtx s1 c { x with pc := x.chainPc, chain := [], chainPc := 0 }

/-- A halt may be taken at this boundary: where an interrupt could be taken, on a core that executes, is idle or is locked (R603, R606). -/
def haltAllowed (s : State) (c : Nat) : Bool :=
  let k := coreOf s c
  (if loopMode s then decide (c < 4) else inRun s && (phase s == 0 || phase s == 1)) &&
    (c != 4 || llState s == 2 || llState s == 5) &&
    k.slot.isNone && k.shadow == 0 && ((ctxOf s c).chain == [] || k.closing)

/-- The core halts: its reservation is cleared, a wait is abandoned, its watchdog pauses, and a HALT or STEP that runs on it is done (R336,
R601, R603, R609). -/
def haltCore (s : State) (c : Nat) (cause : BitVec 3) : State :=
  let s1 := discardChain s c
  let k := coreOf s1 c
  let s2 := if k.waiting then setPc s1 c (pcOf s1 c - 4) else s1
  let s3 := setCore s2 c { k with reservation := none, waiting := false, stepping := false, haltFirst := k.haltFirst && cause != 3, haltAsked := false }
  let s4 := pauseDogOf (wrF (wrB s3 .dbgStat c true) .dbgStat 5 cause) c
  if k.stepping ∨ k.haltAsked then debugDone s4 else s4

/-- A HALT reaches its boundary (R603). -/
def haltTaken (s : State) (c : Nat) : State :=
  if (coreOf s c).haltAsked ∧ haltAllowed s c then haltCore s c 0 else s

/-- What the end of a freeze does, `was` being the state before: the sample lanes send their held writes, and the sample-port DMA goes on
(R608). -/
def thawed (was t : State) : State :=
  let u := if frozen was 19 ∧ ¬ frozen t 19 then releaseLanes t else t
  if frozen was 20 ∧ ¬ frozen u 20 then serveHeld u (fun _ => true) else u

/-- A core that a BRK halted at its delay slot completes the slot: it goes on at the branch's target (R614; log 161). -/
def leaveSlot (s : State) (c : Nat) : State :=
  match (coreOf s c).slot with
  | some t => setPc (setCore s c { coreOf s c with slot := none, shadow := (coreOf s c).shadow - 1 }) c t
  | none => s

/-- The core is no longer halted: its watchdog goes on, and a freeze by FRZHALT may end (R608, R609). -/
def unhalt (s : State) (c : Nat) : State := thawed s (resumeDogOf (wrB (leaveSlot s c) .dbgStat c false) c)

/-- The step of a core ends: it halts again (R604). -/
def stepEnds (s : State) (c : Nat) : State :=
  if (coreOf s c).stepping then haltCore s c 1 else s

/-- A core on which a step can be taken: it has an instruction to execute, in loop-buffer mode boot code, or it is idle and with ISTEP a
switch is pending (R351, R604). -/
def canStep (s : State) (c : Nat) : Bool :=
  if c = 4 then llState s == 2
  else rdF s (.capStat c) 0 2 == 0 || (loopMode s && rdF s (.capStat c) 0 2 == 1) ||
    (rdF s (.capStat c) 0 2 == 1 && rdB s .dbgCtl 13 && !inFaultBank s c && ((dueFault s c).isSome || (chosenTask s c).isSome))

/-- A locked scalar core is released: halted, at supervisor level of the world of its bank (R606). -/
def releaseCore (s : State) (c : Nat) : State :=
  let s1 := wrF s (.capStat c) 0 (0 : BitVec 2)
  let s2 := setStw s1 c (setBit (ctxOf s1 c).stw 12 true)
  report (debugDone (pauseDogOf (wrB s2 .dbgStat c true) c))

/-! DBG_CMD (R601). -/

/-- The three data registers as a word. -/
def debugData (s : State) : Word72 := (rd s (.dbgD 2)) ++ (rd s (.dbgD 1)) ++ (rd s (.dbgD 0))

/-- They take a word. -/
def setDebugData (s : State) (v : Word72) : State :=
  wr (wr (wr s (.dbgD 0) (bits v 0 24)) (.dbgD 1) (bits v 24 24)) (.dbgD 2) (bits v 48 24)

/-- The bank that a register command names: the lifeline core has one. -/
def debugBank (c : Nat) (bank : BitVec 5) : Nat := if c = 4 then 0 else bank.toNat

/-- Register `n`, slice `j`, of a bank of a halted core (R448, R601). -/
def debugGet (s : State) (c b n j : Nat) : Option Word72 :=
  if n = 127 then (if c ≠ 4 ∧ j = 0 then some ((coreOf s c).bankwin.setWidth 72) else none)
  else if 89 ≤ n ∧ n < 92 ∧ c ≠ 4 then none
  else (ctxAt s (ctxKey c b)).bankGet (coreOf s c).loops n j

/-- It takes a value. -/
def debugSet (s : State) (c b n j : Nat) (v : Word72) : State :=
  let k := coreOf s c
  if n = 127 then setCore s c { k with bankwin := bits v 0 5 }
  else if 89 ≤ n ∧ n < 92 then setCore s c { k with loops := setLoopWord k.loops (n - 89) v }
  else
    let x := (ctxAt s (ctxKey c b)).bankSet n j v
    setCtxAt s (ctxKey c b) (if c = 4 then x.ofLifeline else x)

/-- A REGWR that R449 or R313 keeps out: of a bank of a scalar core that is neither reserved nor holds a task, of the save state, of a STW
with a reserved RM. -/
def debugWriteBad (s : State) (c b n : Nat) (v : Word72) : Bool :=
  (decide (c < 4 ∧ 4 ≤ b) && n != 127 && (slotOfBank s c b).isNone) || isSaveState n || (n == 97 && !roundOk (bits v 6 3))

/-- A write of DBG_CMD (R599, R601 to R606). A core runs again, in whole or by a step, only with ATT (R614). -/
def writeDebugCmd (s : State) (a : Auth) (v : Reg24) : Written :=
  let op := (bits v 0 3).toNat
  let c := (bits v 3 3).toNat
  let b := debugBank c (bits v 6 5)
  let n := (bits v 11 7).toNat
  let j := (bits v 18 2).toNat
  let reg := op == 4 || op == 5
  let off := !halted s c
  let busy := rdB s .dbgCmdStatus 0 || (reg && off) || (op == 6 && !(c < 4 && coreLocked s c))
  let begun := wrB s .dbgCmdStatus 0 true
  judge [ (!a.aftar, .notPermitted), (busy, .busy),
      (op == 0 || op == 7 || 5 ≤ c || (reg && (debugGet s c b n j).isNone) || (op == 5 && debugWriteBad s c b n (debugData s)),
        .reservedCode),
      ((op == 2 || op == 3) && !rdB s .dbgCtl 0 || op != 2 && !mayDebugCore s c, .notPermitted) ]
    (match op with
      | 1 => if off then setCore begun c { coreOf begun c with haltAsked := true } else debugDone s
      | 2 => debugDone (if off then s else unhalt s c)
      | 3 =>
        if off ∨ ¬ canStep s c then debugDone s
        else
          let t := unhalt begun c
          setCore t c { coreOf t c with stepping := true }
      | 4 => debugDone (setDebugData s ((debugGet s c b n j).getD 0))
      | 5 => debugDone (debugSet s c b n j (debugData s))
      | _ => releaseCore s c)

/-! Trace (R610 to R612). -/

/-- `n` packets are lost: counted in DBG_TRLOST, and for the next overflow packet. -/
def loseTrace (s : State) (n : Nat) : State :=
  tally { s with dbg := { s.dbg with lost := satAdd 255 s.dbg.lost n } } .dbgTrlost 0 24 n

/-- An overflow packet follows lost ones once the FIFO has space (R610, R611). -/
def overflowPacket (s : State) : State :=
  if s.dbg.lost = 0 ∨ 256 ≤ s.dbg.fifo.length then s
  else { s with dbg := { s.dbg with fifo := s.dbg.fifo ++ [[3, BitVec.ofNat 8 s.dbg.lost]], lost := 0 } }

/-- The FIFO without its first `n` bytes: of a packet taken in part, the rest stays. -/
def dropBytes : Nat → List (List Byte) → List (List Byte)
  | _, [] => []
  | n, p :: t => if n < p.length then p.drop n :: t else dropBytes (n - p.length) t

/-- The packets that have a byte among the first `n` of the FIFO. -/
def packetsIn : Nat → List (List Byte) → Nat
  | _, [] => 0
  | n, p :: t => if n = 0 then 0 else packetsIn (n - p.length) t + 1

/-- BASE and LEN of the trace ring. -/
def traceBase (s : State) : Nat := (rd s .dbgTrbl).toNat + (rdF s .dbgTrbh 0 16).toNat * 2 ^ 24
def traceLen (s : State) : Nat := (rdF s .dbgTrlen 0 20).toNat

/-- A write of the ring fails: EN is cleared, and the packets that the word would have held, wholly or in part, are lost (R612). -/
def failRing (s : State) : State :=
  let n := packetsIn 9 s.dbg.fifo
  loseTrace (wrB { countFailure s with dbg := { s.dbg with fifo := s.dbg.fifo.drop n } } .dbgTrcfg 0 false) n

/-- The address lies in a cistern. -/
def inAnyCistern (a : Nat) : Bool := match regionOf a with | some (.cistern _) => true | _ => false

/-- Whole words of the bytes that wait go into the ring, which lies in a cistern; a refused one ends the trace (R612). -/
def drainRing : Nat → State → State
  | 0, s => s
  | fuel + 1, s =>
    let l := s.dbg.fifo.flatten
    let a := traceBase s + 6 * s.dbg.ringAt
    if l.length < 9 then s
    else if ¬ inAnyCistern a then failRing s
    else
      match admitted s (aftarWho s) a 6 .write with
      | (.held, _) => s
      | (.refused, s1) => failRing s1
      | (.ok, s1) =>
        let s2 := writeMasked s1 (wordBase a) (BitVec.allOnes 72) (BitVec.ofNat 72 (leNat (l.take 9))) 23
        let i := s.dbg.ringAt + 1
        drainRing fuel (overflowPacket { s2 with dbg := { s2.dbg with
          fifo := dropBytes 9 s2.dbg.fifo, ringAt := if traceLen s2 ≤ i then 0 else i } })

/-- With EN and DEST both 1 the packets that wait go on into the ring (R612). -/
def traceOn (s : State) : State :=
  if rdF s .dbgTrcfg 0 2 = (3 : BitVec 2) then drainRing (s.dbg.fifo.flatten.length / 9 + 1) s else s

/-- A trace packet is made while trace is on: a full FIFO drops it (R610 to R612). -/
def tracePacket (s : State) (bytes : List Byte) : State :=
  if ¬ rdB s .dbgTrcfg 0 then s
  else
    let s0 := overflowPacket s
    if 256 ≤ s0.dbg.fifo.length then loseTrace s0 1
    else traceOn { s0 with dbg := { s0.dbg with fifo := s0.dbg.fifo ++ [bytes] } }

/-- The trace moves on: where TRACE_D is driven the oldest packet leaves on it, or the idle packet with none; with DEST = 1 the ring takes what
it can (R610 to R612). -/
def sendTrace (s : State) : State :=
  if tracePins s = .driven then
    match s.dbg.fifo with
    | [] => send s (.trace [0])
    | p :: t => overflowPacket (send { s with dbg := { s.dbg with fifo := t } } (.trace p))
  else traceOn s

/-- A write of DBG_STIM_w_k (R611). -/
def writeStimulus (s : State) (a : Auth) (w : Bool) (k : Nat) (v : Reg24) : Written :=
  judge [(!(if a.code = 8 then w else a.safety == w), .notPermitted)]
    (tracePacket s ([1, a.code.setWidth 8, BitVec.ofNat 8 k] ++ leBytes 3 v.toNat ++ leBytes 2 s.clock))

/-- The sync packet (R610). -/
def syncPacket' (s : State) : State := tracePacket s (2 :: leBytes 6 s.clock)

/-! Writes (R615, R616). -/

/-- The trace ring lies within one cistern. -/
def traceRingOk (s : State) : Bool :=
  let a := traceBase s
  let b := a + 6 * traceLen s - 1
  traceLen s != 0 && plyInWord a == 0 &&
    (match regionOf a with | some (.cistern n) => regionOf b == some (.cistern n) | _ => false)

/-- A write of DBG_FREEZE (R608). -/
def writeFreeze (s : State) (v : Reg24) : State := thawed s (store s .dbgFreeze v)

/-- A write of DBG_CTL: without ATT nothing is emulated (R596, R607). -/
def writeDebugCtl (s : State) (v : Reg24) : State :=
  let s1 := thawed s (store s .dbgCtl v)
  if bit v 0 then s1 else endEmulation s1

/-- TRST_N goes low: the TAP controller is in Test-Logic-Reset, and ATT is cleared (R596; log 160). -/
def resetTap (s : State) : State :=
  endEmulation (wrB { s with dbg := { s.dbg with testReset := true, ir := 1 } } .dbgCtl 0 false)

/-- Writes to the DBG_ registers. -/
def writeDebugBlock (s : State) (a : Auth) (r : Rg) (v : Reg24) : Written :=
  match r with
  | .dbgStim w k => writeStimulus s a (w == 1) k v
  | .dbgPermit => judge [(!a.boot, .notPermitted), (writtenOnce s r v, .writtenOnce)] (store s r v)
  | .dbgCmd => writeDebugCmd s a v
  | .dbgFreeze => judge [(!a.aftar, .notPermitted)] (writeFreeze s v)
  | .dbgCtl => judge [(!a.aftar, .notPermitted)] (writeDebugCtl s v)
  | .dbgTrcfg =>
    let s1 := store s r v
    judge [(!a.aftar, .notPermitted), (bits v 0 2 == 3 && !traceRingOk s, .reservedCode)]
      (if bits v 0 2 = (3 : BitVec 2) ∧ rdF s .dbgTrcfg 0 2 ≠ 3 then
        { s1 with dbg := { s1.dbg with ringAt := 0 } } else s1)
  | _ => judge [(!a.aftar, .notPermitted)] (store s r v)

end Sys2Proof.Machine
end

