-- ==== Sys2Proof/Machine/RegWrite.lean ====
section
/-! DEFINITION. Accesses of control registers by every writer (R16, R21, R35, R522, R546, R562, R564, R593, R597 to R600, R613,
R615, R653), and the accesses of Aftar. -/

namespace Sys2Proof.Machine

/-! Writes (R16, R21). -/

/-- The CMD_STATUS register of a register's block, and its REJ bit (R21). -/
def statusOf (r : Rg) : Rg × Nat :=
  let i := r.index
  if i < 0x2400 then (.dsCmd, 0)
  else if i < 0x2600 then (.ftCmd (if i < 0x2428 then (i - 0x2400) / 8 else 0), 2)
  else if i < 0x2A00 then (.eccCmd, 0)
  else if i < 0x3000 then (.scrCmd, 0)
  else if i < 0x3040 then (.cisCmd ((i - 0x3000) / 4), 0)
  else if i < 0x3400 then (.xbCmd, 0)
  else if i < 0x3500 then (.pmpCmd, 0)
  else if i < 0x3800 then (.splCmd, 2)
  else if i < 0x3C00 then (.llCmd, 0)
  else if i < 0x4400 then (.capCmd, 0)
  else if i < 0x4800 then (.evrCmd, 0)
  else if i < 0x4C00 then (.tmrCmd, 0)
  else if i < 0x5000 then (.smpCmd, 0)
  else if i < 0x5400 then (.hstCmd, 0)
  else if i < 0x5800 then (.modCmd, 0)
  else if i < 0x5C00 then (.fwCmdStatus, 0)
  else (.dbgCmdStatus, 2)

/-- A write of a register, judged by its block. -/
def putBlock (s : State) (a : Auth) (r : Rg) (v : Reg24) : Written :=
  let i := r.index
  if i < 0x3000 then writeStoreBlock s a r v
  else if i < 0x3400 then writeCisBlock s a r v
  else if i < 0x3800 then writePumpBlock s a r v
  else if i < 0x3C00 then writeLlBlock s a r v
  else if i < 0x4400 then writeCapBlock s a r v
  else if i < 0x4800 then writeEventBlock s a r v
  else if i < 0x4C00 then writeTimerBlock s a r v
  else if i < 0x5000 then writeLaneBlock s a r v
  else if i < 0x5400 then writeHostBlock s a r v
  else if i < 0x5800 then writeModBlock s a r v
  else if i < 0x5C00 then writeFwBlock s a r v
  else writeDebugBlock s a r v

/-- A rejected write posts its reason (R21); the last one of the firmware block stands in 0x1F57 (R588). -/
def postReject (s : State) (r : Rg) (e : Reject) : State :=
  let s1 := post s (statusOf r).1 (statusOf r).2 e
  if 0x5800 ≤ r.index ∧ r.index < 0x5C00 then { s1 with fw := { s1.fw with lastCode := e.code } } else s1

/-- A write of register `i` takes effect, or is rejected and its reason posted (R21); a write where no register lies is
ignored. True when rejected. -/
def putRegister (s : State) (a : Auth) (i : Nat) (v : Reg24) : Bool × State :=
  match Rg.ofIndex i with
  | none => (false, s)
  | some r =>
    match putBlock s a r v with
    | .ok t => (false, t)
    | .error e => (true, postReject s r e)

/-! Reads (R16, R613). -/

/-- The registers that answer a host in BRING-UP (R546, R562). -/
def answersInBringUp (i : Nat) : Bool := (0x5000 ≤ i && i < 0x5005) || i == 0x5400

/-- The registers that answer a host in READY: MOD_ and HST_ (R564). -/
def answersInReady (i : Nat) : Bool := 0x5000 ≤ i && i < 0x5800

/-- The always-on registers that Aftar reaches in STANDBY and in the real READY depths 2 and 3 (R600). -/
def awakeForAftar (i : Nat) : Bool :=
  0x5C00 ≤ i || (0x5400 ≤ i && i < 0x5800) || (0x4910 ≤ i && i < 0x4C00) || (0x4400 ≤ i && i < 0x4800)

/-- What a register shows (R16): a WO field reads zero; some fields follow from state that is held elsewhere. -/
def shown (s : State) (r : Rg) : Reg24 :=
  let v := rd s r
  match r with
  | .dsChStat n => setBits v 4 (BitVec.ofNat 11 (flights s n).length)
  | .ftCacheStat => setBits v 0 (BitVec.ofNat 14 (lockedFrames s))
  | .capTsk c t 3 => setBit v 9 (resident s c t && (ctxAt s (ctxKey c (taskBank s c t))).inXcall)
  | .wdStat x => setBits v 0 (BitVec.ofNat 16 (((s.dogs.get x {}).left + 3999) / 4000))
  | .dbgFreeze => if rdB s .dbgCtl 7 ∧ rdF s .dbgStat 0 5 ≠ 0 then 0x1FFFFF else v
  | .ftOp _ => 0
  | .splKill => 0
  | .evrPulse => 0
  | .wdKick _ => 0
  | .odCmd _ => 0
  | .fwCmd => 0
  | .dbgCmd => 0
  | .dbgStim _ _ => 0
  | _ => v

/-- A register answers the reads of an actor now (R562, R564, R593, R615). -/
def answersRead (s : State) (a : Auth) (i : Nat) : Bool :=
  if 0x5C00 ≤ i ∧ ¬ (a.aftar ∨ a.safe) then false
  else if 0x5800 ≤ i ∧ i < 0x5C00 ∧ ¬ (inRun s ∨ inRecovery s) then false
  else if a.host.isSome ∧ inBringUp s then answersInBringUp i
  else if a.host.isSome ∧ inReady s then answersInReady i
  else true

/-- The value that an actor reads from register `i`; zero where none lies. -/
def readRegister (s : State) (a : Auth) (i : Nat) : Reg24 :=
  match Rg.ofIndex i with
  | none => 0
  | some r => if answersRead s a i then shown s r else 0

/-- The value that a read which clears the RC fields returns: of those, what they held before they were set in this clock (R16, R18). -/
def takenRegister (s : State) (a : Auth) (i : Nat) : Reg24 :=
  let v := readRegister s a i
  match Rg.ofIndex i with
  | none => v
  | some r => match marked s r with
    | some m => if answersRead s a i then (v &&& ~~~r.bits.rc) ||| (m.before &&& r.bits.rc) else v
    | none => v

/-- A read that an actor makes clears the RC fields (R16); what they were set to in this clock stays (R18). -/
def clearRead (s : State) (a : Auth) (i : Nat) : State :=
  match Rg.ofIndex i with
  | none => s
  | some r =>
    if answersRead s a i then
      let c := r.bits.rc
      match marked s r with
      | none => wr s r (rd s r &&& ~~~c)
      | some m =>
        let e := s.events
        wr { s with events := { e with marks := e.marks.insert i { m with before := m.before &&& ~~~c } } } r
          ((rd s r &&& ~~~c) ||| (((rd s r &&& c) - (m.before &&& c)) &&& c))
    else s

/-! The control-register region (R35, R653). -/

/-- The first register of the region that plies `a` to `a + n − 1` touch, and the number of registers. -/
def touched (a n : Nat) : Nat × Nat :=
  let o := a - 0x40000000
  (o / 2, (o + n - 1) / 2 - o / 2 + 1)

/-- An access of the region by a core or by Aftar moves the round-robin pointer of its target (R196). -/
def grantRegisters (s : State) (w : Writer) : State :=
  match w with
  | .scalar c => granted s (16 + c.val) 18
  | .lifeline => granted s 20 18
  | .aftar => granted s 23 18
  | .host _ => s
  | .boot => s

/-- Plies of the region are read, register by register in ascending index, clearing RC fields when `clear` (R653, R613). -/
def loadRegisters (s0 : State) (w : Writer) (clear : Bool) (a n : Nat) : Nat × State :=
  let s := grantRegisters s0 w
  let t := touched a n
  let r := (List.range t.2).foldl (fun (x : Nat × State) j =>
    let i := t.1 + j
    (x.1 + ((if clear then takenRegister else readRegister) x.2 (authOf x.2 w) i).toNat * 2 ^ (24 * j),
      if clear then clearRead x.2 (authOf x.2 w) i else x.2)) (0, s)
  (r.1 / 2 ^ (12 * ((a - 0x40000000) % 2)) % 2 ^ (12 * n), r.2)

/-- Some register is covered in one ply only: a store that does so writes nothing (R653). -/
def halfCovered (a n : Nat) : Bool := a % 2 != 0 || n % 2 != 0

/-- Plies of the region are stored, register by register in ascending index (R653); whether a write was rejected. -/
def storeRegisters (s : State) (w : Writer) (a n v : Nat) : Bool × State :=
  let t := touched a n
  (List.range t.2).foldl (fun (x : Bool × State) j =>
    let r := putRegister x.2 (authOf x.2 w) (t.1 + j) (BitVec.ofNat 24 (v / 2 ^ (24 * j)))
    (x.1 || r.1, r.2)) (false, grantRegisters s w)

/-! Aftar (R597 to R600, R613). -/

/-- An access has ended with a status; ADDR moves on when AUTOINC asks. -/
def aftarEnds (s : State) (op : BitVec 3) (a : Addr) (inc : Bool) (sts : BitVec 3) (data : Word72) : State :=
  let step : Addr := if op.toNat < 3 then 6 else 1
  { s with dbg := { s.dbg with sts, addr := a, data, next := if inc then a + step else a, busy := none } }

/-- The device is in STANDBY or in a real READY depth 2 or 3 (R600). -/
def asleep (s : State) : Bool := !s.modes.emulated && (mode s == 1 || mode s == 4 || mode s == 5)

/-- A word access of Aftar (R597, R598, R613); held at its target, it is busy until it completes. -/
def aftarWord (s : State) (op : BitVec 3) (a : Addr) (d : Word72) (inc : Bool) : State :=
  let write := op == 2
  let k := a.toNat
  if (regionOf k).isSome ∧ plyInWord k ≠ 0 then aftarEnds s op a inc 6 0
  else if asleep s then aftarEnds s op a inc 5 0
  else if ¬ mayDebugCode s (rdF s .dbgCtl 1 4) then aftarEnds s op a inc 4 0
  else if leavesRegion k 6 then aftarEnds (countFailure s) op a inc 2 0
  else if regionOf k = some .registers then
    (if write then
      match storeRegisters s .aftar k 6 d.toNat with
      | (bad, t) => aftarEnds t op a inc (if bad then 6 else 0) d
     else match loadRegisters s .aftar false k 6 with
      | (v, t) => aftarEnds t op a inc 0 (BitVec.ofNat 72 v))
  else match admitted s (aftarWho s) k 6 (if write then .write else .read) with
    | (.held, _) => { s with dbg := { s.dbg with sts := 1, addr := a, data := 0, busy := some (op, a, d, inc) } }
    | (.refused, t) => aftarEnds (countFailure t) op a inc 2 0
    | (.ok, t) =>
      if write then aftarEnds (putWord t (aftarWho t) k 0x3F d) op a inc 0 d
      else
        let r := accessWord t (aftarWho t) k
        aftarEnds r.2 op a inc (if r.1.poison then 3 else 0) r.1.data

/-- A register access of Aftar (R597 to R600, R613). -/
def aftarRegister (s : State) (op : BitVec 3) (a : Addr) (v : Reg24) (inc : Bool) : State :=
  let i := a.toNat
  if 1048576 ≤ i then aftarEnds s op a inc 2 0
  else if asleep s ∧ ¬ awakeForAftar i then aftarEnds s op a inc 5 0
  else if ¬ mayDebugCode s (rdF s .dbgCtl 1 4) then aftarEnds s op a inc 4 0
  else if op = 4 then
    match putRegister (grantRegisters s .aftar) (authOf s .aftar) i v with
    | (bad, t) => aftarEnds t op a inc (if bad then 6 else 0) (v.setWidth 72)
  else
    let g := grantRegisters s .aftar
    let x := (if op = 5 then takenRegister else readRegister) g (authOf g .aftar) i
    let t := if op = 5 then clearRead g (authOf g .aftar) i else g
    aftarEnds t op a inc 0 (x.setWidth 72)

/-- An Update-DR of AFTAR_ACC starts an access (R597): ignored while one is busy or the device is OFF, none under OP 0, and a reserved OP ends
with STS 6. -/
def aftarAccess (s0 : State) (op : BitVec 3) (a : Addr) (d : Word72) (inc : Bool) : State :=
  let s := underAftar s0
  if s0.dbg.busy.isSome ∨ ¬ s0.pwr.aux then s0
  else if op = 0 then s
  else if op.toNat < 3 then aftarWord s op a d inc
  else if op.toNat < 6 then aftarRegister s op a (bits d 0 24) inc
  else aftarEnds s op a inc 6 0

/-- A busy access tries its target again (R597, R614). -/
def aftarComplete (s : State) : State :=
  match s.dbg.busy with
  | none => s
  | some (op, a, d, inc) => aftarWord { s with dbg := { s.dbg with busy := none } } op a d inc

/-! Writes by every writer. -/

/-- A write through BAR0 of function `f` (R522, R546, R562, R564). -/
def hostWrite (s : State) (f : Nat) (i : Nat) (v : Reg24) : State :=
  if ¬ reachable s f then s
  else if ¬ barsOn s f then failRequest s f 1 false
  else if inBringUp s then
    match Rg.ofIndex i with
    | none => s
    | some r => if answersInBringUp i then s else postReject s r .notReady
  else if inReady s ∧ ¬ answersInReady i then failRequest s f 4 false
  else (putRegister s (authOf s (.host (Fin.ofNat 4 f))) i v).2

/-- A host write to BAR0 as it arrives: a single DW with byte enables for bytes 0 to 2, or an Unsupported Request (R522). -/
def bar0Write (s : State) (f i dw : Nat) (be : BitVec 4) (v : BitVec 32) : State :=
  if ¬ reachable s f then s
  else if ¬ barsOn s f ∨ dw ≠ 1 ∨ bits be 0 3 ≠ (7 : BitVec 3) ∨ 1048576 ≤ i then failRequest s f 1 false
  else hostWrite s f i (bits v 0 24)

/-- Byte `k` of BAR0: bits 23:0 of register `k / 4` in its bytes 0 to 2, and zero (R522). -/
def registerByte (s : State) (f k : Nat) : Byte :=
  if k % 4 = 3 then 0 else wordByte ((readRegister s (authOf s (.host (Fin.ofNat 4 f))) (k / 4)).setWidth 72) (k % 4)

/-- A read of BAR0, of any size, which clears no RC field (R522, R562, R564). -/
def readBar0 (s : State) (f off n : Nat) : State :=
  if ¬ reachable s f then s
  else if ¬ barsOn s f ∨ 4194304 < off + n then failRequest s f 1 false
  else answer s f 0 false ((List.range n).map (fun i => registerByte s f (off + i)))

/-! Requests of a port, in the order of their arrival (R520, R526). -/

/-- A request takes effect; what of it must wait, and the state. -/
def applyTlp (s : State) (f : Nat) : HostTlp → Option HostTlp × State
  | .registerWrite i dw be v => (none, bar0Write s f i dw be v)
  | .windowWrite off bytes ep bad => barWrite s f off bytes ep bad
  | .read (.window off) n => if readWaits s f off n then (some (.read (.window off) n), s) else (none, barRead s f off n)
  | .read (.registers off) n => (none, readBar0 s f off n)
  | .read (.msix off) n => (none, readMsix s f off n)
  | .tableWrite v e => (none, writeMsixTable s f v e)
  | .unmask v => (none, unmaskVector s f v)
  | .config item write v => (none, configure s f item write v)

/-- The requests that wait on a port, with those of other ports kept in `rest`: each takes effect until one is held, behind which the others
stay. -/
def servePort (p : Nat) : State → List (Nat × HostTlp) → State
  | s, [] => s
  | s, (f, x) :: t =>
    if portOf s f ≠ p then servePort p { s with hostQueue := s.hostQueue ++ [(f, x)] } t
    else match applyTlp s f x with
      | (some y, u) => { u with hostQueue := u.hostQueue ++ (f, y) :: t }
      | (none, u) => servePort p u t

/-- The requests that wait on the ports go on (R526). -/
def serveHosts (s : State) : State :=
  [0, 1].foldl (fun t p => servePort p { t with hostQueue := [] } t.hostQueue) s

/-- A port receives a request: it takes effect after the earlier requests of its port (R520). -/
def hostRequest (s : State) (f : Nat) (x : HostTlp) : State :=
  servePort (portOf s f) { s with hostQueue := [] } (s.hostQueue ++ [(f, x)])

/-- A writer writes control register `i`: a core only while it runs and its earlier stores are visible (R357), boot firmware only in BRING-UP
(R21, R114, R522, R598); a host's write waits behind
the requests that wait on its port (R520). -/
def regWrite (s : State) (w : Writer) (i : Nat) (v : Reg24) : State :=
  match w with
  | .scalar c => if coreRuns s c ∧ ¬ storesPending s c then (putRegister (grantRegisters s w) (authOf s w) i v).2 else s
  | .lifeline => if coreRuns s 4 ∧ ¬ storesPending s 4 then (putRegister (grantRegisters s w) (authOf s w) i v).2 else s
  | .host f => if s.hostQueue.isEmpty then hostWrite s f i v else hostRequest s f (.registerWrite i 1 7 (v.setWidth 32))
  | .aftar => aftarAccess s 4 (BitVec.ofNat 40 i) (v.setWidth 72) false
  | .boot => if inBringUp s then (putRegister s (authOf s w) i v).2 else s

/-! Requests of crossbar masters that reach the region (R653). -/

/-- The writer that a master is for the control-register region; a pump and the DMA masters have no access to it. -/
def masterWriter : Master → Option Writer
  | .core c => some (if h : c.val < 4 then .scalar ⟨c.val, h⟩ else .lifeline)
  | .aftar => some .aftar
  | _ => none

/-- A write mask that covers a register of its word in one ply only (R653). -/
def halfMask (mask : BitVec 6) : Bool :=
  [0, 1, 2].any (fun q => bits mask (2 * q) 2 == (1 : BitVec 2) || bits mask (2 * q) 2 == (2 : BitVec 2))

/-- A whole-word access of the region by a master: the registers whose plies the mask names are read or written, none of them by a mask that
covers one in a single ply; refused where a ply of the access lies beyond the region (R34, R653). -/
def masterRegisters (s : State) (m : Master) (a : Nat) (write : Option (BitVec 6 × Word72)) : State :=
  let base := wordBase a
  let q : Request := { master := m, addr := a, write }
  match (if requestLeaves q then none else masterWriter m) with
  | none => refuse s q
  | some w =>
    match write with
    | none =>
      let r := loadRegisters s w (w != .aftar) base 6
      send r.2 (.word (BitVec.ofNat 8 (masterNumber m)) base (BitVec.ofNat 72 r.1) false)
    | some (mask, d) =>
      if halfMask mask then s
      else ([0, 1, 2].foldl (fun (t : State) q =>
        if bits mask (2 * q) 2 = (3 : BitVec 2) then (putRegister t (authOf t w) ((base - 0x40000000) / 2 + q) (bits d (24 * q) 24)).2 else t)
        (grantRegisters s w))

end Sys2Proof.Machine
end

