-- ==== Sys2Proof/Machine/Boot.lean ====
section
/-! DEFINITION. The end of a start (R120, R188, R209, R468, R470, R560, R579 to R581, R590, R605), and what supplies, temperature,
pins and clocks do (R516, R554, R563, R566, R590, R626). -/

namespace Sys2Proof.Machine

/-! Control stores (R463, R465, R468, R472). -/

/-- The component of type `t` is written over its regions of the control stores (R468 steps 2 and 3). -/
def patchStore (s : State) (t : Nat) (payload : List Byte) : State :=
  (suppliedWords t payload).foldl (fun u w =>
    let key := (if t = 4 then 0x58000000 else 0x50000000) + 6 * w.1
    if w.1 < (if t = 4 then 8192 else 43691) then setMem u key { data := patched t w.1 (cellAt u key).data w.2 } else u) s

/-! Components (R581). -/

/-- The address of the copy of a component that `before` sump frames precede (R581). -/
def copyAddr (before : Nat) : Nat := sumpBase + 0xC000 * (512 + before)

/-- The payload words of a component are written to its authenticated copy; a failed channel discards and counts them (R101). -/
def writeCopy (s : State) (before : Nat) (l : List Word72) : State :=
  ((List.range l.length).zip l).foldl (fun t x => storeTarget t (copyAddr before + 6 * x.1) { data := x.2 }) s

/-- One component of the image is loaded: its copy, and the stores that its type writes (R468, R581). -/
def loadPart (s : State) (before : Nat) (e : Entry) (aux : Nat) (l : List Byte) : State :=
  let s1 := writeCopy s before (payloadWords l)
  if e.type = 2 then { s1 with fw := { s1.fw with lifeline := some (copyAddr before, (payloadWords l).length, aux) } }
  else if 3 ≤ e.type ∧ e.type ≤ 5 then
    patchStore { s1 with fw := { s1.fw with copies := s1.fw.copies ++ [(e.type, copyAddr before, l)] } } e.type l
  else s1

/-- The components in the order of the manifest; `before` counts the sump frames of the earlier ones. -/
def loadParts (s : State) (before : Nat) : List (Entry × Nat × List Byte) → State
  | [] => s
  | (e, aux, l) :: t => loadParts (loadPart s before e aux l) (before + partFrames e) t

/-- Boot firmware as a writer (R16). -/
def bootPut (s : State) (r : Rg) (v : Reg24) : State := (putRegister s (authOf s .boot) r.index v).2

/-- A record of the object-dictionary defaults takes effect (R579); 0x2001 keeps its value across a start (R552). -/
def applyRecord (s : State) : OdRecord → State
  | .register i v => (putRegister s (authOf s .boot) i v).2
  | .default index sub v =>
    if index = 0x2001 then s
    else match odValue s index sub with
    | some l => { s with odBase := s.odBase.insert (odKey index sub) (leBytes l.length v.toNat) }
    | none => s

/-- The defaults of the image for the bindings and the layout are in force in its own start where no value is stored, with what follows the
layout (R29, R205, R550, R579; DEDUCED, log 174). -/
def layoutDefaults (s : State) (l : List OdRecord) : State :=
  let s1 := l.foldl (fun t x => match x with | .default _ _ _ => applyRecord t x | .register _ _ => t) s
  let t := storedLayout s1
  if t = s1.inForce then s1 else layoutRegs { s1 with inForce := t }

/-- The registers that boot firmware writes from the defaults or from 0x2011 are written in this start (R19, R209, R260). -/
def bootRegisters : List Nat :=
  (List.range 25).map (fun m => (Rg.xbPri m 2).index) ++ (List.range 50).map (fun i => (Rg.xbSlice (i / 2) (i % 2)).index) ++
    [Rg.pmpShare.index, Rg.pmpQuantum.index, Rg.llCfg.index] ++ (List.range 8).map (fun g => (Rg.grp g).index) ++
    [Rg.modCfg.index, Rg.dbgPermit.index]

/-- The defaults of the image and of 0x2011 are in the registers (R260, R579). -/
def applyDefaults (s : State) (l : List OdRecord) : State :=
  let s1 := l.foldl applyRecord (bootPut s .pmpShare (BitVec.ofNat 24 (layoutNat s 0x2011 14)))
  { s1 with rwsDone := s1.rwsDone ++ bootRegisters.filter (fun i => !s1.rwsDone.contains i) }

/-- A load record of the scalar firmware is written (R580). -/
def writeRecord' (s : State) (a : Nat) (l : List Word72) : State :=
  scatterPieces s { code := 0xF, safety := true, sup := true } (natOfWords l) (pieces (6 * l.length) a (6 * l.length))

/-- Core `c` is given the task that word `w` names, in slot 0 (R580); with HOR it halts at its first instruction (R605). -/
def giveTask (s : State) (c : Nat) (w : Word72) : State :=
  let a : Addr := bits w 0 40
  if a = 0 then s
  else
    let s1 := bootPut s (.capTsk c 0 0) (bits a 0 24)
    let s2 := bootPut s1 (.capTsk c 0 2) (setBits (63 : Reg24) 6 (bits w 40 8))
    let s3 := bootPut s2 (.capTsk c 0 1) (setBit (setBit ((bits a 24 16).setWidth 24) 16 true) 17 true)
    setCore s3 c { coreOf s3 c with haltFirst := haltOnRelease s3 c }

/-- The line of that task is asserted once, at the end of BRING-UP (R580). -/
def startTask (s : State) (c : Nat) (w : Word72) : State :=
  let a : Addr := bits w 0 40
  if a = 0 then s else assertLine s (bits w 40 8).toNat (ownerCode (partOf s c) true)

/-- The scalar firmware of an image, if it has one. -/
def scalarLoad (m : Image) : Option (List (Addr × List Word72) × List Word72) :=
  (m.parts.find? (fun p => p.1.type == 1)).bind (fun p => loadRecords (p.2.2.length + 1) (payloadWords p.2.2))

/-- The records of the object-dictionary defaults of an image. -/
def defaultsOf (m : Image) : List OdRecord :=
  ((m.parts.find? (fun p => p.1.type == 6)).bind (fun p => odRecords (payloadWords p.2.2))).getD []

/-- The training of channel `n` has ended: TRAINED, or FAULT (R101, R132, R560). -/
def trainChannel (s : State) (n : Nat) (trained : Bool) : State := wrB s (.dsChStat n) (cond trained 0 1) true

/-- Training has ended on every channel (R560). -/
def trainChannels (s : State) (trained : BitVec 128) : State :=
  (List.range 128).foldl (fun t n => trainChannel t n (bit trained n)) s

/-- The word is written at each start: of the deep store, all but sump frames 512 to 1,535 (R120). -/
def startWord (key : Nat) : Bool := inFrames key && (key < copyAddr 0 || copyAddr 1024 ≤ key)

/-- The channels whose training failed. -/
def failedChannels (s : State) : List Nat := (List.range 128).filter (fun n => rdB s (.dsChStat n) 1)

/-- The deep store is zeroed and the frame table built, with RETIRED for each frame of the retirement record (R120). A failed channel
discards its writes and counts them, more than its counter holds (R83, R101). -/
def buildStore (s : State) : State :=
  let s1 := zeroWords { s with frames := Tab.empty } (fun k => startWord k && !failedAt s k)
  let s2 := (failedChannels s).foldl (fun t n => bumpF t (.eccUe n) 0 24 16777215) s1
  s.flash.retired.foldl (fun t n => setFrame t n { frameAt t n with retired := true }) s2

/-- The faults that training found are in the error log, whose frames the zeroing has passed (R625; DEDUCED, log 169). -/
def logUntrained (s : State) : State :=
  (failedChannels s).foldl (fun t n => log t { type := 0x0D, unit := n, master := 0xFF, addr := 0 }) s

/-- Boot firmware writes the initial owner of every cistern; as each is OFF and SCRUB 0, the handover is over before READY (R177, R179). -/
def writeOwners (s : State) : State :=
  (List.range 16).foldl (fun t n => setFlag (wrF t (.cisOwner n) 0 (initialOwner t 0x0F n)) (.cisStat n) 8) s

/-- Cisterns with an initial owner are requested ON (R188). -/
def requestCisterns (s : State) : State :=
  (List.range 16).foldl (fun t n => if initialOwner t 0x0F n = 0xF then t else requestPower t n 0) s

/-- Slot `b` is booted from, its image being `m` (R560, R579 to R581); the cores leave loop-buffer mode, and what boot code kept in them goes
(R351; log 136); a step of boot code ends with it, and a HALT is taken at the next boundary (R603, R604; log 94). -/
def bootFrom (s : State) (trained : BitVec 128) (b fellBack : Bool) (m : Image) : State :=
  let s0 : State := { s with
    ctxs := Tab.empty
    cores := restartedCores s
    odBase := Tab.empty
    fw := { s.fw with running := some b, build := m.build, minsv := m.minsv } }
  let s1 := wrB (wrB s0 .fwStat 3 fellBack) .fwStat 4 (activeSlot s0)
  let s2 := loadParts (writeOwners (logUntrained (buildStore (trainChannels (layoutDefaults s1 (defaultsOf m)) trained)))) 0 m.parts
  let s3 := applyDefaults s2 (defaultsOf m)
  let s4 := match scalarLoad m with
    | some r =>
      let t := r.1.foldl (fun t x => writeRecord' t x.1.toNat x.2) s3
      (List.range 4).foldl (fun t c => startTask t c (r.2.getD c 0)) ((List.range 4).foldl (fun t c => giveTask t c (r.2.getD c 0)) t)
    | none => s3
  reconsider (report (setMode (requestCisterns ((List.range 4).foldl stepEnds s4)) 3))

/-- RECOVERY is entered (R589, R590): nothing is loaded, the control stores are as step 1 of R468 leaves them (R470), cistern 0 is ON and
owned by 0b0001, function 0 is present. -/
def enterRecovery (s : State) : State :=
  let s1 : State := { zeroWords s (fun k => decide (0x50000000 ≤ k ∧ k < 0x60000000)) with
    odBase := Tab.empty
    fw := { s.fw with running := none, goodA := slotGood s false, goodB := slotGood s true } }
  let s2 := wrB (wrB s1 (.hstFn 0) 0 true) .fwStat 4 (activeSlot s1)
  let s3 := wrF (wrF (wrF s2 (.cisOwner 0) 0 (1 : OwnerCode)) (.cisStat 0) 0 (0 : BitVec 4)) (.cisPwr 0) 0 (0 : BitVec 2)
  reconsider (report (setMode s3 7))

/-- BRING-UP ends (R560, R581, R590). -/
def bootComplete (s : State) (trained : BitVec 128) : State :=
  if ¬ inBringUp s then s
  else if s.modes.recovery then enterRecovery s
  else
    let a := activeSlot s
    match verifySlot s a with
    | .ok m => bootFrom s trained a false m
    | .error _ =>
      match verifySlot s (!a) with
      | .ok m => bootFrom s trained (!a) true m
      | .error _ => enterRecovery s

/-- RECOVERY is left for BRING-UP (R590); which CAUSE the start posts is not given, and is a free one of the six of R570. -/
def recoveryExit (s : State) (recoveryN : Bool) : State :=
  let s1 := { s with pwr := { s.pwr with recoveryN } }
  if inRecovery s1 ∧ someSlot s1 ∧ recoveryN ∧ combined s1 ≠ 7 then
    let r := drawNat s1
    beginStart r.2 false (BitVec.ofNat 3 (r.1 % 6)) recoveryN
  else s1

/-! Supplies, temperature, RESET_N, clocks (R554, R563, R566, R626). -/

/-- The device leaves its mode: watchdogs pause, and every output lane sends its safe frame (R565, R566). -/
def lastFrames (s : State) : State :=
  let s1 := pauseDogs s
  if fastEvents s1 then flushSafe (lanesLeave s1) else s1

/-- The main domains go off: STANDBY. What had not reached flash is lost. -/
def goDown (s : State) : State :=
  let s1 := enterStandby s
  { s1 with store := { s1.store with retiring := [] }, flash := { s1.flash with unflushed := [] } }

/-- The safe frames are sent and the main domains go off (R566). -/
def shutDown (s : State) : State := goDown (lastFrames s)

/-- A level outside the operating range of its supply, 10.8 V to 13.2 V or 3.135 V to 3.465 V, in units of 10 mV (R566, R570, R634; log
162). -/
def supplyOut (main : Bool) (level : BitVec 12) : Bool :=
  if main then level.toNat < 1080 || 1320 < level.toNat else level.toNat < 314 || 346 < level.toNat

/-- What of the object dictionary lies in flash: the bindings, the layout and the bit timing (R29, R534, R552). -/
def keptObject (k : Nat) : Bool := k / 256 == 0x2010 || k / 256 == 0x2011 || k / 256 == 0x2020

/-- VIN_AUX falls below 2.9 V: the device is OFF, and keeps what lies in flash and fuses (R549, R566). Which layout and bindings are in force
from VIN_AUX valid to the first start no rule says: the model takes the built-in defaults, not the stored values (DESIGN CHOICE, log
138). -/
def auxLoss (s : State) : State :=
  let s1 := cutFlash s
  { State.reset with
    pending := s.pending
    free := s.free
    sent := s.sent
    pwr := { s.pwr with aux := false }
    regs := (Tab.empty.put Rg.modTemp.index (rd s .modTemp) 0).put Rg.modVolt.index (rd s .modVolt &&& 0xFFF) 0
    modes := { pinRecovery := s.modes.pinRecovery }
    can := { nodeStored := s.can.nodeStored, timingStored := s.can.timingStored }
    od := s.od.keep keptObject
    flash := { s1.flash with unflushed := [] }
    fuses := s.fuses }

/-- VIN_AUX becomes valid, being in its range: STANDBY, the always-on domain at its reset values, the pins, the lid and the clocks as they are
by then; with VIN_MAIN valid before it a start follows (R550, R554, R561, R634, R635). A lid above its shutdown limit holds STANDBY (R647). -/
def auxValid (s : State) (level : BitVec 12) : State :=
  if s.pwr.aux ∨ supplyOut false level then s
  else
    let s1 : State := { s with pwr := { s.pwr with aux := true, auxOut := false, hot := lidTooHot (rdF s .modTemp 0 12) } }
    tryStart (report (wrF (applyStored s1) .modVolt 12 level)) 0 none

/-- PE_SPLIT and RECOVERY_N as VIN_MAIN becomes valid (R516, R590). -/
def samplePins (s : State) (recoveryN split : Bool) : State :=
  { s with pwr := { s.pwr with recoveryN, split }, modes := { s.modes with pinRecovery := !recoveryN } }

/-- A supply is measured, in or out of its range (R540, R566, R634); in OFF only the range of VIN_MAIN is noted (R635). VIN_MAIN that enters its
range again becomes valid anew: the pins are sampled, whose levels the event does not show and are free (R516, R634, R647; log 157). A start
that its return allows follows. -/
def supplyLevel (s : State) (main : Bool) (level : BitVec 12) : State :=
  let out := supplyOut main level
  let pins := drawBits 2 s
  let anew := main && s.pwr.mainOut && !out
  let s0 := if anew then samplePins pins.2 (bit pins.1 0) (bit pins.1 1) else s
  let s1 : State := wrF { s0 with pwr := if main then { s0.pwr with mainOut := out } else { s0.pwr with auxOut := out } }
    .modVolt (if main then 0 else 12) level
  if s.pwr.aux then tryStart (report s1) (mainCause s) (if anew then some (bit pins.1 0) else none) else if main then s1 else s

/-- VIN_MAIN becomes valid: PE_SPLIT and RECOVERY_N are sampled, and a start follows, in OFF that of VIN_AUX valid (R516, R554, R561, R566, R590,
R634, R635). While the lid is above its shutdown limit STANDBY holds until it has cooled (R647). -/
def mainValid (s : State) (level : BitVec 12) (recoveryN split : Bool) : State :=
  if s.pwr.main ∧ ¬ s.pwr.mainOut then s
  else if supplyOut true level then supplyLevel s true level
  else
    let s1 := samplePins { s with
      pwr := { s.pwr with main := true, mainOut := false, hot := s.pwr.hot || lidTooHot (rdF s .modTemp 0 12) } } recoveryN split
    let s2 := wrF s1 .modVolt 0 level
    if s.pwr.aux then tryStart (report s2) (mainCause s) (some recoveryN) else s2

/-- VIN_MAIN falls below its threshold (R566); its level is not given. -/
def mainLoss (s : State) : State :=
  if ¬ s.pwr.main then s
  else
    let r := drawBits 12 s
    let s1 := wrF { r.2 with pwr := { s.pwr with main := false, mainOut := true } } .modVolt 0 r.1
    if s.pwr.aux then report (shutDown s1) else s1

/-- The lid has a temperature: health bit 11 shows whether it is outside its range (R540, R566); in OFF it shows from VIN_AUX valid on (log
110). -/
def lidLevel (s : State) (t : BitVec 12) : State :=
  let s1 := wrF { s with pwr := { s.pwr with lidOut := lidBeyond t } } .modTemp 0 t
  if s.pwr.aux then report s1 else s1

/-- The temperature of a lid above its shutdown threshold: the one measured last where it is above it, else a free one that is (R566,
R642; log 104). -/
def hotReading (s : State) : BitVec 12 × State :=
  let t := rdF s .modTemp 0 12
  let r := drawNat s
  if lidTooHot t then (t, s) else (BitVec.ofInt 12 (lidHigh + 101 + Int.ofNat (r.1 % 900)), r.2)

/-- The lid has been above its shutdown threshold for 1 ms (R566). -/
def tooHot (s : State) : State :=
  let r := hotReading s
  let s1 := lidLevel r.2 r.1
  if s.pwr.aux then shutDown { s1 with pwr := { s1.pwr with hot := true } } else s1

/-- The lid has been within its limits for 1 s: a start follows. -/
def coolAgain (s : State) (t : BitVec 12) : State :=
  let s1 := lidLevel s t
  if lidBeyond t then s1 else tryStart { s1 with pwr := { s1.pwr with hot := false } } 5 none

/-- RESET_N is low: STANDBY, in OFF at VIN_AUX valid (R563). -/
def resetLow (s : State) : State :=
  if s.pwr.aux then
    let s1 := lastFrames s
    goDown { s1 with pwr := { s1.pwr with resetN := false } }
  else { s with pwr := { s.pwr with resetN := false } }

/-- RESET_N is high again: a start follows (R563). -/
def resetHigh (s : State) : State := tryStart { s with pwr := { s.pwr with resetN := true } } 3 none

/-- The clock monitor looks at the crystal and the PLLs; one that has `stopped` or is out of lock acts as VIN_MAIN below 10.0 V
(R626). -/
def clockCheck (s : State) (stopped unlocked : Bool) : State :=
  let s1 : State := { s with pwr := { s.pwr with crystal := !stopped, clockGood := s.pwr.clockGood && !(stopped || unlocked) } }
  if s.pwr.aux && (stopped || unlocked) then shutDown s1 else s1

/-- Every clock is good again: a start follows. -/
def clockRecovery (s : State) : State := tryStart { s with pwr := { s.pwr with clockGood := true, crystal := true } } 1 none

end Sys2Proof.Machine
end

