-- ==== Sys2Proof/Machine/Operands.lean ====
section
/-! DEFINITION. The operands of instructions: data accesses of the running context (R53, R242, R322, R323, R335, R379, R653), stacks
(R324, R325, R419, R430), immediates (R316), floating operands (R67, R68, R327), and the fixed counts of the lifeline core (R379,
R384, R387, R401). -/

namespace Sys2Proof.Machine

/-! Registers and immediates. -/

/-- A sign-extended immediate (R316). -/
def simm {n : Nat} (v : BitVec n) : W48 := v.signExtend 48

/-- The ply that a format-I access addresses: (Ga + IMM20) mod 2^40 (R322). -/
def effAddr (s : State) (c a : Nat) (imm : BitVec 20) : Addr := bits (getG s c a + simm imm) 0 40

/-- The value of a compare (R311). -/
def truth (b : Bool) : W48 := if b then 1 else 0

/-- A 96-bit value is written to a pair (R310). -/
def setPair (s : State) (c d : Nat) (v : BitVec 96) : State := setG (setG s c d (bits v 0 48)) c (d + 1) (bits v 48 48)

/-- The value of a pair. -/
def getPair (s : State) (c a : Nat) : BitVec 96 := getG s c (a + 1) ++ getG s c a

/-- Flags and SATS are ORed into STW (R64, R303). -/
def orStw (s : State) (c : Nat) (fl : FFlags) (sat : Bool) : State :=
  setStw s c ((ctxOf s c).stw ||| fl.setWidth 48 ||| (ofBool 48 sat <<< 5))

/-- The mode of a scalar or short-vector floating operation: RMS, or STW.RM when RMS is 0b111; FTZ and DAZ of STW (R327, R329). -/
def modeOf (s : State) (c : Nat) (rms : BitVec 3) : FMode :=
  let w := (ctxOf s c).stw
  { rm := if rms = 7 then bits w 6 3 else rms, ftz := bit w 9, daz := bit w 10 }

/-- An F24 value as an F register holds it: bits 47:24 all ones (R67). -/
def boxed (v : Nat) : W48 := (0xFFFFFF : BitVec 24) ++ BitVec.ofNat 24 v

/-- The F24 operand in an F register: the default NaN when it is not boxed (R68). -/
def unboxed (v : W48) : Nat := if bits v 24 24 = (0xFFFFFF : BitVec 24) then (bits v 0 24).toNat else f24.defaultNan

/-- A floating operand: F48 when `p`. -/
def fOperand (s : State) (c a : Nat) (p : Bool) : Nat := if p then (getFr s c a).toNat else unboxed (getFr s c a)

/-- The format of a scalar floating operation. -/
def fFmt (p : Bool) : Fmt := if p then f48 else f24

/-- A floating result is written, F24 boxed, and its flags ORed into STW (R67, R329). -/
def setFOut (s : State) (c d : Nat) (p : Bool) (o : Out) : State :=
  setFr (orStw s c o.fl false) c d (if p then BitVec.ofNat 48 o.v else boxed o.v)

/-! Data accesses (R53, R114, R242, R323, R653). -/

/-- Some ply of an access waits for a splice of the running context, a ply of window zero being the one that it is remapped to (R190, R242), or
the access for an earlier store of the core (R353 to R357). -/
def waitsFor (s : State) (c a n : Nat) (k : Kind) : Bool :=
  waitsForStore s c a n k || (List.range n).any (fun i => waitsForSplice s (ctxOf s c).cid (remapped s (a + i)) k)

/-- The running context of a core as a writer of control registers. -/
def coreWriter (c : Core) : Writer := if h : c.val < 4 then .scalar ⟨c.val, h⟩ else .lifeline

/-- Cause ALIGN on data (R420). -/
def alignExc (a : Nat) : Exc := { cause := 0x03, faddr := BitVec.ofNat 40 a }

/-- The access touches the control-register region, all of it lying there. -/
def inRegisters (a n : Nat) : Bool := regionOf a == some .registers && regionOf (a + n - 1) == some .registers

/-- The running context loads plies `a` to `a + n − 1`. -/
def coreLoad (s : State) (c : Core) (a n : Nat) : Got Nat :=
  if waitsFor s c a n .read then .held
  else if inRegisters a n then
    match loadRegisters s (coreWriter c) true a n with
    | (v, t) => .ok v t
  else loadPlies s (coreWho s c) a n 0

/-- The running context stores plies `a` to `a + n − 1`; half a register is an alignment fault (R653). -/
def coreStore (s : State) (c : Core) (a n v : Nat) : Got Unit :=
  if waitsFor s c a n .write then .held
  else if inRegisters a n then
    (if halfCovered a n then .fault (alignExc a) s else .ok () (storeRegisters s (coreWriter c) a n v).2)
  else storePliesAt s (coreWho s c) a n v 0

/-- An access of `n` plies is aligned as R53 and R323 ask: even for 2 and 4 plies, a whole word for 6. -/
def aligned (a n : Nat) : Bool := if n = 1 then true else if n = 6 then plyInWord a == 0 else plyOffset a % 2 == 0

/-- A load with its alignment rule. -/
def loadAligned (s : State) (c : Core) (a n : Nat) : Got Nat :=
  if aligned a n then coreLoad s c a n else .fault (alignExc a) s

/-- A store with its alignment rule. -/
def storeAligned (s : State) (c : Core) (a n v : Nat) : Got Unit :=
  if aligned a n then coreStore s c a n v else .fault (alignExc a) s

/-- A word address that LDL and STC accept: the interleaved deep store, the sump channel, a cistern (R335). -/
def reservable (a : Nat) : Bool := (pumpRegion a).isSome

/-- The ply offset within the word that LDL and STC accept (R335). -/
def linkAligned (a : Nat) : Bool := plyInWord a == 0 || plyInWord a == 2

/-! Stacks (R324, R325, R419, R430). -/

/-- DSP of the current level. -/
def Ctx.dsp (x : Ctx) : Addr := if x.sup then x.dspS else x.dspU

/-- It takes a value; DSP_U of the lifeline core stays zero, since it runs at supervisor level. -/
def Ctx.setDsp (x : Ctx) (a : Addr) : Ctx := if x.sup then { x with dspS := a } else { x with dspU := a }

/-- RSP of the current level. -/
def Ctx.rsp (x : Ctx) : Addr := if x.sup then x.rspS else x.rspU

/-- It takes a value. -/
def Ctx.setRsp (x : Ctx) (a : Addr) : Ctx := if x.sup then { x with rspS := a } else { x with rspU := a }

/-- Safety supervisor of the core's partition, which a shadow-stack access acts as (R430). -/
def shadowWho (s : State) (c : Nat) : Who :=
  { code := if c = 4 then 8 else ownerCode (partOf s c) true, safety := true, sup := true, core := c,
    master := BitVec.ofNat 8 (16 + c) }

/-- The check of a shadow-stack access (R430). -/
def checkShadow (s : State) (c a : Nat) (k : Kind) : Verdict × State :=
  let w := shadowWho s c
  if c = 4 then ((if regionOf a = some .localStore then check s w a k else .refused), s)
  else
    match admitted s w a 6 k with
    | (.ok, t) =>
      let e := frameAt t (frameOf a)
      ((if inFrames a ∧ e.owner = w.code ∧ bits e.rights 0 9 = (0 : BitVec 9) then .ok else .refused), t)
    | r => r

/-- The check of a whole-word return-stack access by the running context, which the control registers refuse. -/
def checkReturn (s : State) (c a : Nat) (k : Kind) : Verdict × State :=
  if regionOf a = some .registers then (.refused, s) else admitted s (coreWho s c) a 6 k

/-- The faults of the two words that a call or return touches, from their verdicts: the lowest address decides (R421). -/
def pairFault (s : State) (ra sa : Nat) (r h : Verdict) (wr : BitVec 32) : Option (Got Unit) :=
  if r = .held ∨ h = .held then some .held
  else if r = .refused ∧ (h ≠ .refused ∨ ra ≤ sa) then some (.fault (accessExc ra wr) (countFailure s))
  else none

/-- CALL and CALLR write the return word `v` to both stacks, at RSP − 6 and SSP − 6 (R325). -/
def pushReturn (s : State) (c : Core) (v : Addr) : Got Unit :=
  let x := ctxOf s c
  let ra := (x.rsp - 6).toNat
  let sa := (x.ssp - 6).toNat
  if plyInWord x.rsp.toNat ≠ 0 then .fault (alignExc ra) s
  else if plyInWord x.ssp.toNat ≠ 0 then .fault (alignExc sa) s
  else if waitsFor s c ra 6 .write ∨ waitsFor s c sa 6 .write then .held
  else
    let r := checkReturn s c ra .write
    let h := checkShadow r.2 c sa .write
    match pairFault h.2 ra sa r.1 h.1 2 with
    | some g => g
    | none =>
      let put := fun (t : State) (a : Nat) => putWord t (coreWho s c) a 0x3F (v.setWidth 72)
      if h.1 = .refused then
        .fault (accessExc sa 6) (countFailure (if r.1 = .ok then put h.2 ra else h.2))
      else
        let t := put (put h.2 ra) sa
        let y := ctxOf t c
        .ok () (setCtx t c { y.setRsp (y.rsp - 6) with ssp := y.ssp - 6 })

/-- RET compares the words at RSP and SSP and answers the return address (R325). -/
def popReturn (s : State) (c : Core) : Got Addr :=
  let x := ctxOf s c
  let ra := x.rsp.toNat
  let sa := x.ssp.toNat
  if plyInWord ra ≠ 0 then .fault (alignExc ra) s
  else if plyInWord sa ≠ 0 then .fault (alignExc sa) s
  else if waitsFor s c ra 6 .read ∨ waitsFor s c sa 6 .read then .held
  else
    let r := checkReturn s c ra .read
    let h := checkShadow r.2 c sa .read
    match pairFault h.2 ra sa r.1 h.1 0 with
    | some .held => .held
    | some (.fault e t) => .fault e t
    | some (.ok _ _) => .held
    | none =>
      if h.1 = .refused then .fault (accessExc sa 4) (countFailure h.2)
      else
        let w := coreWho s c
        let p := accessWord h.2 w ra
        let q := accessWord p.2 w sa
        let used := fun a : Nat => poisonUsed q.2 (wordBase (remapped q.2 a)) (viaCaches q.2 w a) w.master
        if p.1.poison ∧ (ra ≤ sa ∨ ¬ q.1.poison) then .fault (dataExc h.2 ra 0) (used ra)
        else if q.1.poison then .fault (dataExc p.2 sa 0) (used sa)
        else if p.1.data ≠ q.1.data then .fault (controlFlow x.rsp) q.2
        else
          let y := ctxOf q.2 c
          .ok (pcAlign (bits p.1.data 0 40)) (setCtx q.2 c { y.setRsp (y.rsp + 6) with ssp := y.ssp + 6 })

/-! Fixed counts of the lifeline core (R379, R380, R384). -/

/-- The slice count of the path from the lifeline core to a target (R199, R209). -/
def sliceCount (s : State) (t : Nat) : Nat := (rdF s (.xbSlice 20 (t / 12)) (2 * (t % 12)) 2).toNat

/-- The register lies on the direct port of the lifeline core (R380). -/
def directPort (s : State) (i : Nat) : Bool :=
  match Rg.ofIndex i with
  | some r =>
    (0x3800 ≤ i && i < 0x3C00) || (0x2420 ≤ i && i < 0x2428) || i == 0x3540 || i == 0x3541 ||
    (match r with
      | .rxCfg n => rdF s (.rxCfg n) 0 4 == (8 : OwnerCode) | .rxTout n => rdF s (.rxCfg n) 0 4 == (8 : OwnerCode)
      | .rx n => rdF s (.rxCfg n) 0 4 == (8 : OwnerCode) | .rxStat n => rdF s (.rxCfg n) 0 4 == (8 : OwnerCode)
      | .tag n _ => rdF s (.rxCfg n) 0 4 == (8 : OwnerCode)
      | .txCfg n => txOwner s n == 8 | .txSafe n => txOwner s n == 8 | .tx n => txOwner s n == 8 | .txStat n => txOwner s n == 8
      | .dbl d => ringOwner s d == 8 | .dbh d => ringOwner s d == 8 | .dlen d => ringOwner s d == 8 | .didx d => ringOwner s d == 8
      | .evrLine n => lineOwner s n == 8 | .evrStat n => lineOwner s n == 8
      | .cisOwner n => cisOwnerOf s n == 8 | .cisPwr n => cisOwnerOf s n == 8 | .cisStat n => cisOwnerOf s n == 8
      | .cisCmd n => cisOwnerOf s n == 8
      | _ => false)
  | none => false

/-- The count of an access of `n` plies at `a`; none where R379 gives a bound (R379). -/
def accessCost (s : State) (a n : Nat) (write : Bool) : Option Nat :=
  let k := (pieces n a n).length
  match regionOf a with
  | some .localStore => some k
  | some (.cistern 15) => some ((if write then 4 else 10) + k - 1)
  | some (.cistern m) => some ((if write then 4 + sliceCount s m else 10 + 2 * sliceCount s m) + k - 1)
  | some .registers =>
    let t := touched a n
    if (List.range t.2).all (fun j => directPort s (t.1 + j)) then some ((if write then 2 else 3) * k) else none
  | some .deep => if write then some (5 + sliceCount s 16 + k - 1) else none
  | some .window => none
  | _ => some 1

end Sys2Proof.Machine
end

