-- ==== Sys2Proof/Machine/Run.lean ====
section
/-! DEFINITION. One instruction of a core: when it runs, its fetch, legality and level (R317, R338, R345, R377, R421), delay slots
and loops (R386 to R394), the SETMODE shadow (R314, R401), open chains (R222), the lazy-area fill (R427), and its end
(R315, R604); a command of the block outside the cores (R549). -/

namespace Sys2Proof.Machine

/-- What kind of instruction it is, for the rules on slots, loop ends and open chains. -/
inductive InsKind where
  | plain
  | branch
  | loopOp
  | eret
  | wait
  | setmode
  | vfence
  | stream
deriving DecidableEq, Repr

/-- What the rules ask of an instruction beside its effect: a legal encoding, supervisor level, the lazy-area fill, its kind,
its fixed count on the lifeline core, if it has one, what its decoding reads, and what must hold after that for it to be legal. -/
structure InsInfo where
  legal : Bool
  sup : Bool := false
  fills : Bool := false
  kind : InsKind := .plain
  cost : State → Option Nat := fun _ => some 1
  reads : State → State := id
  allowed : State → Bool := fun _ => true

/-- How the effect of an instruction ends. -/
inductive Res where
  /-- It completes; execution continues at the next instruction. -/
  | done (s : State)
  /-- A branch, with its target when it is taken. -/
  | branch (s : State) (target : Option Addr)
  /-- It completes having set where execution continues. -/
  | away (s : State)
  /-- It raises an exception. -/
  | trap (e : Exc) (s : State)
  /-- It waits and has no effect: it executes again. -/
  | stall
  /-- It waits with what `s` notes of the wait. -/
  | pause (s : State)

/-- The result of an access that an instruction makes last. -/
def Got.andDone {α : Type} (g : Got α) (f : α → State → State) : Res :=
  match g with
  | .ok v s => .done (f v s)
  | .fault e s => .trap e s
  | .held => .stall

/-- Cause ILLEGAL. -/
def illegal : Exc := { cause := 0x01 }

/-- Cause PRIVILEGE. -/
def privilege : Exc := { cause := 0x02 }

/-- Cause VECTOR_ISSUE with its reason (R420, R423). -/
def vectorIssue (reason : BitVec 8) : Exc := { cause := 0x08, detail := reason.setWidth 32, reason }

/-! Fetch (R315, R421). -/

/-- The fetch of the instruction at PC: its faults and waits (R242, R347). -/
def fetchIns (s : State) (c : Nat) : Got Unit :=
  let a := (pcOf s c).toNat
  if waitsFor s c a 4 .exec then .held else fetchAt s c (coreWho s c) a

/-! Slots, loops, the shadow. -/

/-- The end address of a loop level (R391). -/
def Loop.last (l : Loop) : Addr := l.start + 4 * BitVec.ofNat 40 l.k.toNat

/-- The instruction at PC is the last of the body of the innermost loop. -/
def atLoopEnd (s : State) (c : Nat) : Bool :=
  match (coreOf s c).loops with
  | l :: _ => l.last == pcOf s c
  | [] => false

/-- The instruction breaks R387 in a delay slot, R394 at the end of a loop body, or R401 in the SETMODE shadow. -/
def placeIllegal (s : State) (c : Nat) (i : InsInfo) : Bool :=
  let k := coreOf s c
  let within := fun n : Nat => match i.cost s with | some m => decide (m ≤ n) | none => false
  (k.slot.isSome && (i.kind != .plain || (c == 4 && !within 16))) ||
    (atLoopEnd s c && (k.slot.isSome || i.kind == .branch || i.kind == .loopOp || i.kind == .eret || i.kind == .wait)) ||
    (c == 4 && k.shadow != 0 && !within 8)

/-- The step of R392 after the instruction at `pc`: the loop levels that remain, and where execution continues. -/
def loopStep (pc : Addr) : List Loop → List Loop × Addr
  | [] => ([], pc + 4)
  | l :: t =>
    if l.last ≠ pc then (l :: t, pc + 4)
    else if l.count = 1 then loopStep pc t
    else ({ l with count := l.count - 1 } :: t, l.start)

/-- A step of the probe is over at this boundary (R604). -/
def endStep (s : State) (c : Nat) : State :=
  let k := coreOf s c
  if k.slot.isNone ∧ k.shadow = 0 ∧ (ctxOf s c).chain = [] then stepEnds s c else s

/-- One instruction of the SETMODE shadow has passed (R314). -/
def passShadow (s : State) (c : Nat) : State := setCore s c { coreOf s c with shadow := (coreOf s c).shadow - 1 }

/-- The instruction completes: PC moves on, past a delay slot or through the step of a loop (R315, R386, R392). -/
def retire (s : State) (c : Nat) : State :=
  let k := coreOf s c
  let pc := pcOf s c
  match k.slot with
  | some t => passShadow (setPc (setCore s c { k with slot := none }) c t) c
  | none =>
    let r := loopStep pc k.loops
    passShadow (setPc (setCore s c { k with loops := r.1 }) c r.2) c

/-- A branch completes: at once on a scalar core, after its slot on the lifeline core (R326, R386). -/
def takeBranch (s : State) (c : Nat) (target : Option Addr) : State :=
  let pc := pcOf s c
  if c = 4 then passShadow (setPc (setCore s c { coreOf s c with slot := some (target.getD (pc + 8)) }) c (pc + 4)) c
  else passShadow (setPc s c (target.getD (pc + 4))) c

/-! Order of causes (R421). -/

/-- The place of a cause in the order of R421. -/
def causeRank (e : Exc) : Nat :=
  match e.cause.toNat with
  | 1 => 2 | 2 => 3 | 8 => 4 | 10 => 5 | 7 => 6 | 3 => 7 | 4 => 8 | 5 => 9 | 6 => 10 | _ => 11

/-- `a` is raised rather than `b`: the earlier cause, then the lower address. -/
def raisedFirst (a b : Exc) : Bool := causeRank a < causeRank b || (causeRank a == causeRank b && a.faddr ≤ b.faddr)

/-- A switch of a scalar core, which is a boundary of a step of the probe; at the first one of a start, with HOR, the core halts at the first
instruction of its task (R445, R604, R605). -/
def switchCore (s : State) (c : Nat) : State :=
  let t := capstanSwitch s c
  if bankOf t c ≠ bankOf s c ∨ rdF t (.capStat c) 0 2 ≠ rdF s (.capStat c) 0 2 then
    (if (coreOf t c).haltFirst then haltCore t c 3 else stepEnds t c)
  else t

/-- Capstan switches at this boundary of a scalar core (R445). -/
def switches (s : State) (c : Nat) : Bool :=
  decide (c < 4) && (let t := capstanSwitch s c
    bankOf t c != bankOf s c || rdF t (.capStat c) 0 2 != rdF s (.capStat c) 0 2)

/-- The instruction raises an exception: `old` is the state before it, which a held entry keeps. A Capstan switch that is due at the
boundary before it is taken first, and the instruction executes again (R421). -/
def trapTo (old s : State) (c : Nat) (e : Exc) : State :=
  if switches old c then switchCore old c
  else match raise s c e with
    | some t => stepEnds t c
    | none => old

/-- The lazy area of the current frame is due to be filled (R427). -/
def fillDue (s : State) (c : Nat) : Bool := (ctxOf s c).xfp != 0 && !(ctxOf s c).lz

/-- An interrupt abandons the slot instruction of the lifeline core during its fill: the frame PC is the slot, with TARGET and DS = 1
(R382, R388). -/
def slotInterrupt (s : State) (k : Nat) : Res :=
  match takeIrq s k (pcOf s 4) with
  | some t => .pause (stepEnds t 4)
  | none => .stall

/-- The instruction runs its effect, after the lazy-area fill that it triggers (R427). -/
def effect (s : State) (c : Nat) (i : InsInfo) (body : State → Res) : Res :=
  if i.fills ∧ (i.kind ≠ .stream ∨ (ctxOf s c).chain = []) then
    match (if c = 4 ∧ fillDue s c then slotIrq s else none) with
    | some k => slotInterrupt s k
    | none =>
    match lazyFill s c with
    | .ok _ s1 => body s1
    | .held => .stall
    | .fault e s1 =>
      match body s with
      | .trap e' s' => if raisedFirst e' e then .trap e' s' else .trap e s1
      | _ => .trap e s1
  else body s

/-- What follows an instruction's effect. -/
def finish (old : State) (c : Nat) : Res → State
  | .done s => endStep (retire s c) c
  | .branch s t => endStep (takeBranch s c t) c
  | .away s => endStep (passShadow s c) c
  | .trap e s => trapTo old s c e
  | .stall => old
  | .pause s => s

/-- A fetched instruction: an open chain that it breaks, which comes before any further decoding (R265), then legality, place,
level, and its effect (R421). -/
def decoded (old s : State) (c : Nat) (i : InsInfo) (body : State → Res) : State :=
  if i.kind ≠ .stream ∧ (ctxOf s c).chain ≠ [] then trapTo old s c (vectorIssue 0x0B)
  else if ¬ i.legal ∨ ¬ i.allowed s ∨ placeIllegal s c i then trapTo old s c illegal
  else if i.sup ∧ ¬ (ctxOf s c).sup then trapTo old s c privilege
  else finish old c (effect s c i body)

/-- Core `c` executes one instruction: nothing happens while it does not run. -/
def runCore (c : Core) (i : InsInfo) (body : State → Res) (s : State) : State :=
  if ¬ coreRuns s c then s
  else match fetchIns s c with
    | .held => s
    | .fault e s1 => trapTo s s1 c e
    | .ok _ s1 => decoded s (i.reads s1) c i body

/-- The step of an instruction. -/
def runIns (c : Core) (i : InsInfo) (body : State → Res) (s : State) : Host.Outcome State Fault Refusal :=
  .next (runCore c i body s)

/-- An instruction of scalar microcode: of the words of that store that do not read clean it may reach any, each then corrected or repaired
(R472, R473); at one that is poisoned it raises DATA_ERROR (R467, R474), logged (R165). Which words its microcode reaches is not published, so
which of them it does is free, and so are FADDR and DETAIL. -/
def microcoded (c : Nat) (s : State) (body : State → Res) : Res :=
  match reachWords true (BitVec.ofNat 8 (16 + c)) (fun _ t => drawBool t) (damaged s 0x58000000 0x5800C000) s with
  | (none, t) => body t
  | (some k, t) =>
    let a := drawBits 40 t
    let d := drawBits 32 a.2
    .trap { cause := 0x05, faddr := a.1, detail := d.1 } (poisonUsed d.2 k false (BitVec.ofNat 8 (16 + c)))

/-- A command that the block executes while it is powered (R549): in OFF nothing happens. -/
def live (s t : State) : Host.Outcome State Fault Refusal := .next (if s.pwr.aux then t else s)

end Sys2Proof.Machine
end

