-- ==== Sys2Proof/Machine/Block.lean ====
section
/-! DEFINITION. Block-repeat instructions (R332 to R334, R604). -/

namespace Sys2Proof.Machine

/-- The plies of an element, w of R332. -/
def elemPlies (sz : BitVec 2) : Nat := match sz.toNat with | 0 => 1 | 1 => 2 | 2 => 4 | _ => 6

/-- The step of a pointer (R332). -/
def elemStep (sz : BitVec 2) (down : Bool) : W48 := let w := BitVec.ofNat 48 (elemPlies sz); if down then -w else w

/-- A pointer register as an address. -/
def pointerOf (s : State) (c : Core) (a : Reg) : Nat := (getG s c a).toNat % 2 ^ 40

/-- A register moves by a step. -/
def moveG (s : State) (c : Core) (a : Reg) (by' : W48) : State := setG s c a (getG s c a + by')

/-- How one element ends. -/
inductive Elem where
  /-- It completes, its pointers moved. -/
  | next (s : State)
  /-- It is the pair or element sought. -/
  | found (s : State)
  | trap (e : Exc) (s : State)
  | held

/-- Two accesses of one element, when both pointers are aligned: where both fault, R421 decides. -/
def twoAccesses {α β : Type} (x : Got α) (y : State → Got β) (f : α → β → State → Elem) : Elem :=
  match x with
  | .held => .held
  | .fault e s1 =>
    match y s1 with
    | .fault e' s2 => if raisedFirst e' e then .trap e' s2 else .trap e s1
    | _ => .trap e s1
  | .ok v s1 =>
    match y s1 with
    | .held => .held
    | .fault e s2 => .trap e s2
    | .ok u s2 => f v u s2

/-- The misaligned pointer that an element of pointers `x` and `y` traps on: the lower (R333, R421). -/
def badPointer (x y w : Nat) : Option Nat :=
  if aligned x w ∧ aligned y w then none else if aligned y w ∨ (aligned x w = false ∧ x ≤ y) then some x else some y

/-- The loop of R332 over at most `n` elements of the `n + 1` that it is given; Gc = 0 finishes it, and the probe steps one element
(R334, R604). -/
def blockLoop (c : Core) (e : Reg) (elem : State → Elem) (finish : Bool → State → State) : Nat → State → Res
  | 0, s => .pause s
  | n + 1, s =>
    if getG s c e = 0 then .done (finish false s)
    else if n = 0 then .pause s
    else match elem s with
      | .held => .pause s
      | .trap x t => .trap x t
      | .found t => .done (finish true t)
      | .next t =>
        let u := moveG t c e (-1)
        if (coreOf u c).stepping ∧ getG u c e ≠ 0 then .pause (endStep u c) else blockLoop c e elem finish n u

/-- A block-repeat instruction; `stop` is the number of elements after which it is interrupted (R334). -/
def runBlock (c : Core) (i : Instr) (e : Reg) (stop : Option Nat) (elem : State → Elem) (finish : Bool → State → State) (s : State) :
    Host.Outcome State Fault Refusal :=
  runIns c { legal := i.wellFormed, cost := fun _ => none }
    (fun t0 => microcoded c t0 fun t => blockLoop c e elem finish (stop.getD (getG t c e).toNat + 1) t) s

/-- MOVR: mem[Ga] = mem[Gb] (R332). -/
def execMovr (c : Core) (a b e : Reg) (sz : BitVec 2) (down : Bool) (stop : Option Nat) (s : State) : Host.Outcome State Fault Refusal :=
  runBlock c (.movr c a b e sz down stop) e stop (fun t =>
    let w := elemPlies sz
    let x := pointerOf t c a
    let y := pointerOf t c b
    match badPointer x y w with
    | some p => .trap (alignExc p) t
    | none =>
      let move := fun u => Elem.next (moveG (moveG u c a (elemStep sz down)) c b (elemStep sz down))
      match loadAligned t c y w with
      | .ok v u => (match storeAligned u c x w v with
        | .ok _ z => move z
        | .fault f z => .trap f z
        | .held => .held)
      | r => twoAccesses r (fun u => storeAligned u c x w 0) (fun _ _ u => move u)) (fun _ t => t) s

/-- FILLR: mem[Ga] = Gb (R332). -/
def execFillr (c : Core) (a b e : Reg) (sz : BitVec 2) (down : Bool) (stop : Option Nat) (s : State) : Host.Outcome State Fault Refusal :=
  runBlock c (.fillr c a b e sz down stop) e stop (fun t =>
    let w := elemPlies sz
    match storeAligned t c (pointerOf t c a) w ((getG t c b).toNat % 2 ^ (12 * w)) with
    | .ok _ u => .next (moveG u c a (elemStep sz down))
    | .fault f u => .trap f u
    | .held => .held) (fun _ t => t) s

/-- CMPR: the first pair that differs; Gd tells whether there is one (R332). -/
def execCmpr (c : Core) (d a b e : Reg) (sz : BitVec 2) (down : Bool) (stop : Option Nat) (s : State) : Host.Outcome State Fault Refusal :=
  runBlock c (.cmpr c d a b e sz down stop) e stop (fun t =>
    let w := elemPlies sz
    let x := pointerOf t c a
    let y := pointerOf t c b
    match badPointer x y w with
    | some p => .trap (alignExc p) t
    | none =>
      twoAccesses (loadAligned t c x w) (fun u => loadAligned u c y w) (fun v k u =>
        if v = k then .next (moveG (moveG u c a (elemStep sz down)) c b (elemStep sz down)) else .found u))
    (fun f t => setG t c d (truth f)) s

/-- SCANR: the first element equal to Gb, or with NE = 1 unequal to it; Gd tells whether there is one (R332). -/
def execScanr (c : Core) (d a b e : Reg) (sz : BitVec 2) (down ne : Bool) (stop : Option Nat) (s : State) :
    Host.Outcome State Fault Refusal :=
  runBlock c (.scanr c d a b e sz down ne stop) e stop (fun t =>
    let w := elemPlies sz
    match loadAligned t c (pointerOf t c a) w with
    | .ok v u =>
      if (v == (getG t c b).toNat % 2 ^ (12 * w)) != ne then .found u else .next (moveG u c a (elemStep sz down))
    | .fault f u => .trap f u
    | .held => .held) (fun f t => setG t c d (truth f)) s

end Sys2Proof.Machine
end

