-- ==== Sys2Proof/Machine/Decimal.lean ====
section
/-! DEFINITION. Packed decimal (R72 to R74, R330, R331). -/

namespace Sys2Proof.Machine

/-- Nibble `k` of a K48 encoding; nibble 0 is the sign, nibbles 1 to 11 the digits (R72). -/
def nibble (v : W48) (k : Nat) : Nat := v.toNat / 16 ^ k % 16

/-- The reason of the first invalid nibble of an operand, lowest first: 2 INVALID_SIGN, 1 INVALID_DIGIT (R73, R331). -/
def invalidK48 (v : W48) : Option (BitVec 8) :=
  if nibble v 0 ≠ 0xC ∧ nibble v 0 ≠ 0xD ∧ nibble v 0 ≠ 0xF then some 2
  else if (List.range 11).any (fun k => decide (9 < nibble v (k + 1))) then some 1
  else none

/-- The value of a valid K48 encoding (R73). -/
def valueK48 (v : W48) : Int :=
  let m : Nat := (List.range 11).foldl (fun n k => n + nibble v (k + 1) * 10 ^ k) 0
  if nibble v 0 = 0xD then -(m : Int) else m

/-- The K48 encoding of a value of at most eleven digits (R74). -/
def encodeK48 (i : Int) : W48 :=
  BitVec.ofNat 48 ((List.range 11).foldl (fun n k => n + i.natAbs / 10 ^ k % 10 * 16 ^ (k + 1)) (if i < 0 then 0xD else 0xC))

/-- The decimal-data exception with its reason (R331, R420). -/
def decimalExc (reason : BitVec 8) : Exc := { cause := 0x07, detail := reason.setWidth 32, reason }

/-- A K48 result into Gd, or OVERFLOW (R331). -/
def putK48 (s : State) (c : Core) (d : Reg) (i : Int) : Res :=
  if 99999999999 < i.natAbs then .trap (decimalExc 3) s else .done (setG s c d (encodeK48 i))

/-- An operation on the values of two K48 operands (R331). -/
def runK48 (c : Core) (i : Instr) (d a b : Reg) (f : Int → Int → Int) (s : State) : Host.Outcome State Fault Refusal :=
  runIns c { legal := i.wellFormed, cost := fun _ => none }
    (fun t0 => microcoded c t0 fun t =>
      let x := getG t c a
      let y := getG t c b
      match (invalidK48 x).or (invalidK48 y) with
      | some r => .trap (decimalExc r) t
      | none => putK48 t c d (f (valueK48 x) (valueK48 y))) s

/-- DADD: Ga + Gb in K48 (R330, R331). -/
def execDadd (c : Core) (d a b : Reg) (s : State) : Host.Outcome State Fault Refusal :=
  runK48 c (.dadd c d a b) d a b (fun x y => x + y) s

/-- DSUB: Ga − Gb in K48 (R330, R331). -/
def execDsub (c : Core) (d a b : Reg) (s : State) : Host.Outcome State Fault Refusal :=
  runK48 c (.dsub c d a b) d a b (fun x y => x - y) s

/-- DTOB: a K48 operand as a signed integer (R330, R331). -/
def execDtob (c : Core) (d a : Reg) (s : State) : Host.Outcome State Fault Refusal :=
  runIns c { legal := (Instr.dtob c d a).wellFormed, cost := fun _ => none }
    (fun t0 => microcoded c t0 fun t =>
      match invalidK48 (getG t c a) with
      | some r => .trap (decimalExc r) t
      | none => .done (setG t c d (BitVec.ofInt 48 (valueK48 (getG t c a))))) s

/-- BTOD: a signed integer in K48 (R330, R331). -/
def execBtod (c : Core) (d a : Reg) (s : State) : Host.Outcome State Fault Refusal :=
  runIns c { legal := (Instr.btod c d a).wellFormed, cost := fun _ => none }
    (fun t0 => microcoded c t0 fun t => putK48 t c d (getG t c a).toInt) s

end Sys2Proof.Machine
end

