-- ==== Sys2Proof/Machine/Float.lean ====
section
/-! DEFINITION. Scalar floating point (R327 to R329): each operation is the element operation of the stream instruction of the same
name on one lane. Each names an F register and so triggers the lazy-area fill (R427). -/

namespace Sys2Proof.Machine

/-- The type code of a scalar floating operand: F48 when `p`, else F24. -/
def fType (p : Bool) : BitVec 4 := if p then 7 else 6

/-- The result of an element operation on floating operands Fa, Fb, Fc (R329). -/
def fResult (s : State) (c : Core) (op : ElemOp) (a b e : Reg) (p : Bool) (rms : BitVec 3) : Out :=
  elemOp op (fType p) false (modeOf s c rms) (fOperand s c a p) (fOperand s c b p) (fOperand s c e p)

/-- An element operation into Fd; an operand that the operation does not use is named as Fa. -/
def runFloat (c : Core) (i : Instr) (cost : Nat) (op : ElemOp) (d a b e : Reg) (p : Bool) (rms : BitVec 3) (s : State) :
    Host.Outcome State Fault Refusal :=
  runIns c { legal := i.wellFormed, fills := true, cost := fun _ => some cost } (fun t => .done (setFOut t c d p (fResult t c op a b e p rms))) s

/-- FADD: Fa + Fb (R329). -/
def execFadd (c : Core) (d a b : Reg) (p : Bool) (rms : BitVec 3) (s : State) : Host.Outcome State Fault Refusal :=
  runFloat c (.fadd c d a b p rms) 3 .add d a b a p rms s

/-- FSUB: Fa − Fb (R329). -/
def execFsub (c : Core) (d a b : Reg) (p : Bool) (rms : BitVec 3) (s : State) : Host.Outcome State Fault Refusal :=
  runFloat c (.fsub c d a b p rms) 3 .sub d a b a p rms s

/-- FMUL: Fa × Fb (R329). -/
def execFmul (c : Core) (d a b : Reg) (p : Bool) (rms : BitVec 3) (s : State) : Host.Outcome State Fault Refusal :=
  runFloat c (.fmul c d a b p rms) 3 .mul d a b a p rms s

/-- FDIV: Fa / Fb (R329). -/
def execFdiv (c : Core) (d a b : Reg) (p : Bool) (rms : BitVec 3) (s : State) : Host.Outcome State Fault Refusal :=
  runFloat c (.fdiv c d a b p rms) (if p then 14 else 8) .div d a b a p rms s

/-- FSQRT: the square root of Fa (R329). -/
def execFsqrt (c : Core) (d a : Reg) (p : Bool) (rms : BitVec 3) (s : State) : Host.Outcome State Fault Refusal :=
  runFloat c (.fsqrt c d a p rms) (if p then 16 else 10) .sqrt d a a a p rms s

/-- FMIN: the smaller (R292, R329). -/
def execFmin (c : Core) (d a b : Reg) (p : Bool) (rms : BitVec 3) (s : State) : Host.Outcome State Fault Refusal :=
  runFloat c (.fmin c d a b p rms) 2 .min d a b a p rms s

/-- FMAX: the larger (R292, R329). -/
def execFmax (c : Core) (d a b : Reg) (p : Bool) (rms : BitVec 3) (s : State) : Host.Outcome State Fault Refusal :=
  runFloat c (.fmax c d a b p rms) 2 .max d a b a p rms s

/-- FNEG: Fa with its sign inverted (R291, R329). -/
def execFneg (c : Core) (d a : Reg) (p : Bool) (rms : BitVec 3) (s : State) : Host.Outcome State Fault Refusal :=
  runFloat c (.fneg c d a p rms) 1 .neg d a a a p rms s

/-- FABS: Fa with its sign cleared (R291, R329). -/
def execFabs (c : Core) (d a : Reg) (p : Bool) (rms : BitVec 3) (s : State) : Host.Outcome State Fault Refusal :=
  runFloat c (.fabs c d a p rms) 1 .abs d a a a p rms s

/-- FMV: Fa (R327, R329). -/
def execFmv (c : Core) (d a : Reg) (p : Bool) (rms : BitVec 3) (s : State) : Host.Outcome State Fault Refusal :=
  runFloat c (.fmv c d a p rms) 1 .mov d a a a p rms s

/-- FMA: Fa × Fb + Fc (R278, R329). -/
def execFma (c : Core) (d a b e : Reg) (p : Bool) (rms : BitVec 3) (s : State) : Host.Outcome State Fault Refusal :=
  runFloat c (.fma c d a b e p rms) 4 .fma d a b e p rms s

/-- FMS: Fa × Fb − Fc (R278, R329). -/
def execFms (c : Core) (d a b e : Reg) (p : Bool) (rms : BitVec 3) (s : State) : Host.Outcome State Fault Refusal :=
  runFloat c (.fms c d a b e p rms) 4 .fms d a b e p rms s

/-- FNMA: Fc − Fa × Fb (R278, R329). -/
def execFnma (c : Core) (d a b e : Reg) (p : Bool) (rms : BitVec 3) (s : State) : Host.Outcome State Fault Refusal :=
  runFloat c (.fnma c d a b e p rms) 4 .fnma d a b e p rms s

/-- FNMS: −(Fa × Fb) − Fc (R278, R329). -/
def execFnms (c : Core) (d a b e : Reg) (p : Bool) (rms : BitVec 3) (s : State) : Host.Outcome State Fault Refusal :=
  runFloat c (.fnms c d a b e p rms) 4 .fnms d a b e p rms s

/-- FCMP: the predicate on Fa and Fb into Gd (R293, R311, R327). -/
def execFcmp (c : Core) (d a b : Reg) (pred : BitVec 3) (p : Bool) (rms : BitVec 3) (s : State) : Host.Outcome State Fault Refusal :=
  runIns c { legal := (Instr.fcmp c d a b pred p rms).wellFormed, fills := true, cost := fun _ => some 2 }
    (fun t =>
      let r := fResult t c (.cmp pred) a b a p rms
      .done (setG (orStw t c r.fl false) c d (BitVec.ofNat 48 r.v))) s

/-- GTOF: Ga into Fd, bits unchanged, not boxed (R328). -/
def execGtof (c : Core) (d a : Reg) (p : Bool) (rms : BitVec 3) (s : State) : Host.Outcome State Fault Refusal :=
  runIns c { legal := (Instr.gtof c d a p rms).wellFormed, fills := true } (fun t => .done (setFr t c d (getG t c a))) s

/-- FTOG: Fa into Gd, bits unchanged (R328). -/
def execFtog (c : Core) (d a : Reg) (p : Bool) (rms : BitVec 3) (s : State) : Host.Outcome State Fault Refusal :=
  runIns c { legal := (Instr.ftog c d a p rms).wellFormed, fills := true } (fun t => .done (setG t c d (getFr t c a))) s

/-- The type code of a 48-bit integer: unsigned when `u`. -/
def iType (u : Bool) : BitVec 4 := if u then 4 else 5

/-- CVTIF: Ga, a 48-bit integer, into F24 or F48 (R284, R328). -/
def execCvtif (c : Core) (d a : Reg) (p : Bool) (rms : BitVec 3) (u : Bool) (s : State) : Host.Outcome State Fault Refusal :=
  runIns c { legal := (Instr.cvtif c d a p rms u).wellFormed, fills := true, cost := fun _ => some 2 }
    (fun t => .done (setFOut t c d p (convertElem (iType u) (fType p) false false (modeOf t c rms) (getG t c a).toNat))) s

/-- CVTFI: Fa into a 48-bit integer in Gd (R285, R328). -/
def execCvtfi (c : Core) (d a : Reg) (p : Bool) (rms : BitVec 3) (u : Bool) (s : State) : Host.Outcome State Fault Refusal :=
  runIns c { legal := (Instr.cvtfi c d a p rms u).wellFormed, fills := true, cost := fun _ => some 2 }
    (fun t =>
      let r := convertElem (fType p) (iType u) false false (modeOf t c rms) (fOperand t c a p)
      .done (setG (orStw t c r.fl false) c d (BitVec.ofNat 48 r.v))) s

/-- CVTFF: F24 to F48 when P = 1, F48 to F24 when P = 0 (R328). -/
def execCvtff (c : Core) (d a : Reg) (p : Bool) (rms : BitVec 3) (s : State) : Host.Outcome State Fault Refusal :=
  runIns c { legal := (Instr.cvtff c d a p rms).wellFormed, fills := true, cost := fun _ => some 2 }
    (fun t => .done (setFOut t c d p (convertElem (fType !p) (fType p) false false (modeOf t c rms) (fOperand t c a !p)))) s

/-- The type code of a host value: binary64 when `h`. -/
def hType (h : Bool) : BitVec 4 := if h then 11 else 10

/-- CVTFH: Fa into binary32 in Gd, or binary64 in the pair Gd (R78 to R81, R328). -/
def execCvtfh (c : Core) (d a : Reg) (p : Bool) (rms : BitVec 3) (h : Bool) (s : State) : Host.Outcome State Fault Refusal :=
  runIns c { legal := (Instr.cvtfh c d a p rms h).wellFormed, fills := true, cost := fun _ => some 2 }
    (fun t =>
      let r := convertElem (fType p) (hType h) false false (modeOf t c rms) (fOperand t c a p)
      let u := orStw t c r.fl false
      .done (if h then setPair u c d (BitVec.ofNat 96 r.v) else setG u c d (BitVec.ofNat 48 r.v))) s

/-- CVTHF: binary32 in Ga, or binary64 in the pair Ga, into Fd (R78 to R81, R328). -/
def execCvthf (c : Core) (d a : Reg) (p : Bool) (rms : BitVec 3) (h : Bool) (s : State) : Host.Outcome State Fault Refusal :=
  runIns c { legal := (Instr.cvthf c d a p rms h).wellFormed, fills := true, cost := fun _ => some 2 }
    (fun t =>
      let x := if h then (getPair t c a).toNat % 2 ^ 64 else (getG t c a).toNat % 2 ^ 32
      .done (setFOut t c d p (convertElem (hType h) (fType p) false false (modeOf t c rms) x))) s

end Sys2Proof.Machine
end

