-- ==== Sys2Proof/Machine/Encode.lean ====
section
/-! DEFINITION. The 48-bit words of instructions (R315 to R317): `Instr.word` writes the word of an instruction from the tables of R318 to
R339, R264 to R306 and R390; `Instr.ofWord` reads a word for a core and answers none for one that holds a reserved value. -/

namespace Sys2Proof.Machine

/-- A word of format A (R316). -/
def wordA (op d a b e fn : Nat) : W48 :=
  BitVec.ofNat 48 (2 ^ 40 * op + 2 ^ 35 * d + 2 ^ 30 * a + 2 ^ 25 * b + 2 ^ 20 * e + fn)

/-- A word of format I: the C field is zero and IMM20 stands where format A has FN (R316). -/
def wordI (op d a b : Nat) (imm : BitVec 20) : W48 := wordA op d a b 0 imm.toNat

/-- A word of format J (R316). -/
def wordJ (op d a : Nat) (imm : BitVec 30) : W48 := BitVec.ofNat 48 (2 ^ 40 * op + 2 ^ 35 * d + 2 ^ 30 * a + imm.toNat)

/-- FN of a floating-point instruction: its code, P, RMS, U and H (R327, R328). -/
def floatFn (code : Nat) (p : Bool) (rms : BitVec 3) (u h : Bool) : Nat :=
  code + 2 ^ 4 * p.toNat + 2 ^ 5 * rms.toNat + 2 ^ 8 * u.toNat + 2 ^ 9 * h.toNat

/-- FN of a block-repeat instruction: its code, SZ, DIR and NE (R332). -/
def blockFn (code : Nat) (sz : BitVec 2) (down ne : Bool) : Nat :=
  code + 2 ^ 2 * sz.toNat + 2 ^ 4 * down.toNat + 2 ^ 5 * ne.toNat

/-- A word of a mask-register operation: the layout of R266, OT, MSK, CH and SAT zero, an unused reference 0b11111 (R269, R302; log 116). -/
def wordM (d a b fn : Nat) : W48 :=
  BitVec.ofNat 48 (2 ^ 40 * 0xCF + 2 ^ 20 * 31 + 31 + 2 ^ 35 * d + 2 ^ 30 * a + 2 ^ 25 * b + 2 ^ 5 * fn)

/-! Words of instructions. -/

end Sys2Proof.Machine

namespace Sys2Proof

open Sys2Proof.Machine


/-- The word of an instruction of these: integer register operations, carries, products, quotients and compares (R318, R320); none for another command. -/
def Instr.intWord? : Instr → Option W48
  | .add _ d a b => some (wordA 0x01 d a b 0 0)
  | .sub _ d a b => some (wordA 0x01 d a b 0 1)
  | .and _ d a b => some (wordA 0x01 d a b 0 2)
  | .or _ d a b => some (wordA 0x01 d a b 0 3)
  | .xor _ d a b => some (wordA 0x01 d a b 0 4)
  | .andn _ d a b => some (wordA 0x01 d a b 0 5)
  | .shl _ d a b => some (wordA 0x01 d a b 0 6)
  | .shr _ d a b => some (wordA 0x01 d a b 0 7)
  | .sar _ d a b => some (wordA 0x01 d a b 0 8)
  | .min _ d a b => some (wordA 0x01 d a b 0 9)
  | .minu _ d a b => some (wordA 0x01 d a b 0 10)
  | .max _ d a b => some (wordA 0x01 d a b 0 11)
  | .maxu _ d a b => some (wordA 0x01 d a b 0 12)
  | .sel _ d a b e => some (wordA 0x01 d a b e 13)
  | .clz _ d a => some (wordA 0x01 d a 0 0 14)
  | .popc _ d a => some (wordA 0x01 d a 0 0 15)
  | .addc _ d a b e => some (wordA 0x02 d a b e 0)
  | .addco _ d a b e => some (wordA 0x02 d a b e 1)
  | .subb _ d a b e => some (wordA 0x02 d a b e 2)
  | .subbo _ d a b e => some (wordA 0x02 d a b e 3)
  | .mul _ d a b => some (wordA 0x02 d a b 0 4)
  | .mulw _ d a b => some (wordA 0x02 d a b 0 5)
  | .mulwu _ d a b => some (wordA 0x02 d a b 0 6)
  | .div _ d a b => some (wordA 0x02 d a b 0 7)
  | .divu _ d a b => some (wordA 0x02 d a b 0 8)
  | .rem _ d a b => some (wordA 0x02 d a b 0 9)
  | .remu _ d a b => some (wordA 0x02 d a b 0 10)
  | .cmpeq _ d a b => some (wordA 0x03 d a b 0 0)
  | .cmpne _ d a b => some (wordA 0x03 d a b 0 1)
  | .cmplt _ d a b => some (wordA 0x03 d a b 0 2)
  | .cmpltu _ d a b => some (wordA 0x03 d a b 0 3)
  | .cmple _ d a b => some (wordA 0x03 d a b 0 4)
  | .cmpleu _ d a b => some (wordA 0x03 d a b 0 5)
  | _ => none

/-- The word of an instruction of these: immediate operations, loads and stores (R321 to R323, R335); none for another command. -/
def Instr.immWord? : Instr → Option W48
  | .addi _ d a i => some (wordI 0x10 d a 0 i)
  | .andi _ d a i => some (wordI 0x11 d a 0 i)
  | .ori _ d a i => some (wordI 0x12 d a 0 i)
  | .xori _ d a i => some (wordI 0x13 d a 0 i)
  | .shli _ d a i => some (wordI 0x14 d a 0 i)
  | .shri _ d a i => some (wordI 0x15 d a 0 i)
  | .sari _ d a i => some (wordI 0x16 d a 0 i)
  | .cmpeqi _ d a i => some (wordI 0x17 d a 0 i)
  | .cmplti _ d a i => some (wordI 0x18 d a 0 i)
  | .cmpltui _ d a i => some (wordI 0x19 d a 0 i)
  | .li _ d i => some (wordJ 0x1A d 0 i)
  | .lih _ d i => some (wordJ 0x1B d 0 i)
  | .ldp _ d a i => some (wordI 0x20 d a 0 i)
  | .ldps _ d a i => some (wordI 0x21 d a 0 i)
  | .ldd _ d a i => some (wordI 0x22 d a 0 i)
  | .ldds _ d a i => some (wordI 0x23 d a 0 i)
  | .ldq _ d a i _ => some (wordI 0x24 d a 0 i)
  | .ldwp _ d a i => some (wordI 0x25 d a 0 i)
  | .ldf24 _ d a i => some (wordI 0x26 d a 0 i)
  | .ldf48 _ d a i => some (wordI 0x27 d a 0 i)
  | .stp _ a b i => some (wordI 0x28 0 a b i)
  | .std _ a b i => some (wordI 0x29 0 a b i)
  | .stq _ a b i => some (wordI 0x2A 0 a b i)
  | .stwp _ a b i => some (wordI 0x2B 0 a b i)
  | .stf24 _ a b i => some (wordI 0x2C 0 a b i)
  | .stf48 _ a b i => some (wordI 0x2D 0 a b i)
  | .ldl _ d a i => some (wordI 0x2E d a 0 i)
  | .stc _ d a b i => some (wordI 0x2F d a b i)
  | _ => none

/-- The word of an instruction of these: branches and calls (R326), loops (R390), stack pointers (R324); none for another command. -/
def Instr.flowWord? : Instr → Option W48
  | .bz _ a i => some (wordJ 0x30 0 a i)
  | .bnz _ a i => some (wordJ 0x31 0 a i)
  | .jmp _ i => some (wordJ 0x32 0 0 i)
  | .call _ i => some (wordJ 0x33 0 0 i)
  | .jr _ a => some (wordA 0x34 0 a 0 0 0)
  | .callr _ a => some (wordA 0x35 0 a 0 0 0)
  | .ret _ => some (wordA 0x36 0 0 0 0 0)
  | .loop _ a k => some (wordJ 0x37 0 a (k.setWidth 30))
  | .endloop _ => some (wordJ 0x37 1 0 0)
  | .lcrd _ d k => some (wordJ 0x37 2 d (k.setWidth 30))
  | .push _ a => some (wordA 0x38 0 a 0 0 0)
  | .pop _ d => some (wordA 0x38 d 0 0 0 4)
  | .getsp _ d p => some (wordA 0x38 d 0 0 0 (8 + p.toNat))
  | .setsp _ a p => some (wordA 0x38 0 a 0 0 (12 + p.toNat))
  | _ => none

/-- The word of an instruction of these: floating point (R327, R328); none for another command. -/
def Instr.floatWord? : Instr → Option W48
  | .fadd _ d a b p r => some (wordA 0x40 d a b 0 (floatFn 0 p r false false))
  | .fsub _ d a b p r => some (wordA 0x40 d a b 0 (floatFn 1 p r false false))
  | .fmul _ d a b p r => some (wordA 0x40 d a b 0 (floatFn 2 p r false false))
  | .fdiv _ d a b p r => some (wordA 0x40 d a b 0 (floatFn 3 p r false false))
  | .fsqrt _ d a p r => some (wordA 0x40 d a 0 0 (floatFn 4 p r false false))
  | .fmin _ d a b p r => some (wordA 0x40 d a b 0 (floatFn 5 p r false false))
  | .fmax _ d a b p r => some (wordA 0x40 d a b 0 (floatFn 6 p r false false))
  | .fneg _ d a p r => some (wordA 0x40 d a 0 0 (floatFn 7 p r false false))
  | .fabs _ d a p r => some (wordA 0x40 d a 0 0 (floatFn 8 p r false false))
  | .fmv _ d a p r => some (wordA 0x40 d a 0 0 (floatFn 9 p r false false))
  | .fma _ d a b e p r => some (wordA 0x41 d a b e (floatFn 0 p r false false))
  | .fms _ d a b e p r => some (wordA 0x41 d a b e (floatFn 1 p r false false))
  | .fnma _ d a b e p r => some (wordA 0x41 d a b e (floatFn 2 p r false false))
  | .fnms _ d a b e p r => some (wordA 0x41 d a b e (floatFn 3 p r false false))
  | .fcmp _ d a b q p r => some (wordA 0x42 d a b 0 (floatFn q.toNat p r false false))
  | .gtof _ d a p r => some (wordA 0x43 d a 0 0 (floatFn 0 p r false false))
  | .ftog _ d a p r => some (wordA 0x43 d a 0 0 (floatFn 1 p r false false))
  | .cvtif _ d a p r u => some (wordA 0x43 d a 0 0 (floatFn 2 p r u false))
  | .cvtfi _ d a p r u => some (wordA 0x43 d a 0 0 (floatFn 3 p r u false))
  | .cvtff _ d a p r => some (wordA 0x43 d a 0 0 (floatFn 4 p r false false))
  | .cvtfh _ d a p r h => some (wordA 0x43 d a 0 0 (floatFn 5 p r false h))
  | .cvthf _ d a p r h => some (wordA 0x43 d a 0 0 (floatFn 6 p r false h))
  | _ => none

/-- The word of an instruction of these: decimal (R330), block-repeat (R332) and system instructions (R338); none for another command. -/
def Instr.systemWord? : Instr → Option W48
  | .dadd _ d a b => some (wordA 0x50 d a b 0 0)
  | .dsub _ d a b => some (wordA 0x50 d a b 0 1)
  | .dtob _ d a => some (wordA 0x50 d a 0 0 2)
  | .btod _ d a => some (wordA 0x50 d a 0 0 3)
  | .movr _ a b e z w _ => some (wordA 0x51 0 a b e (blockFn 0 z w false))
  | .fillr _ a b e z w _ => some (wordA 0x51 0 a b e (blockFn 1 z w false))
  | .cmpr _ d a b e z w _ => some (wordA 0x51 d a b e (blockFn 2 z w false))
  | .scanr _ d a b e z w n _ => some (wordA 0x51 d a b e (blockFn 3 z w n))
  | .fence _ => some (wordA 0x60 0 0 0 0 0)
  | .isync _ => some (wordA 0x60 0 0 0 0 1)
  | .getstw _ d => some (wordA 0x60 d 0 0 0 2)
  | .setfps _ a => some (wordA 0x60 0 a 0 0 3)
  | .setmode _ a => some (wordA 0x60 0 a 0 0 4)
  | .svc _ i => some (wordA 0x60 0 0 0 0 (5 + 2 ^ 6 * i.toNat))
  | .xcall _ a => some (wordA 0x60 0 a 0 0 6)
  | .xret _ => some (wordA 0x60 0 0 0 0 7)
  | .eret _ => some (wordA 0x60 0 0 0 0 8)
  | .wait _ => some (wordA 0x60 0 0 0 0 9)
  | .mfbw _ d a => some (wordA 0x60 d a 0 0 10)
  | .mtbw _ a b => some (wordA 0x60 0 a b 0 11)
  | .brk _ => some (wordA 0x60 0 0 0 0 12)
  | _ => none

/-- The word of an instruction of these: mask registers (R302), descriptors, the fence and the fault record (R305, R306); none for another command. -/
def Instr.controlWord? : Instr → Option W48
  | .mand _ d a b => some (wordM d a b 0)
  | .mor _ d a b => some (wordM d a b 1)
  | .mxor _ d a b => some (wordM d a b 2)
  | .mandn _ d a b => some (wordM d a b 3)
  | .mnot _ d a => some (wordM d a 31 4)
  | .mpop _ d a => some (wordM d a 31 5)
  | .mtog _ d a => some (wordM d a 31 6)
  | .mfromg _ d a => some (wordM d a 31 7)
  | .mtail _ d a => some (wordM d a 31 8)
  | .vdld _ v a i => some (wordI 0xD0 v.toNat a 0 i)
  | .vdst _ v a i => some (wordI 0xD1 v.toNat a 0 i)
  | .vdset _ v a f => some (wordA 0xD2 v.toNat a 0 0 f.toNat)
  | .vdget _ d v f => some (wordA 0xD3 d v.toNat 0 0 f.toNat)
  | .vdadd _ v a => some (wordA 0xD4 v.toNat a 0 0 0)
  | .vfence _ d => some (wordA 0xD5 d 0 0 0 0)
  | .vfrd _ d h => some (wordA 0xD6 d 0 0 0 h.toNat)
  | .vfrclr _ => some (wordA 0xD7 0 0 0 0 0)
  | _ => none

/-- The stream instruction that a command is, in the layout of R266: major opcode, FN and fields, from the tables of R276 to R288 and
R339; none for a command that is not one. -/
def Instr.stream? : Instr → Option SIns
  | .vadd _ f => some ⟨0xC0, 0x00, f⟩
  | .vsub _ f => some ⟨0xC0, 0x01, f⟩
  | .vmin _ f => some ⟨0xC0, 0x02, f⟩
  | .vmax _ f => some ⟨0xC0, 0x03, f⟩
  | .vabs _ f => some ⟨0xC0, 0x04, f⟩
  | .vneg _ f => some ⟨0xC0, 0x05, f⟩
  | .vand _ f => some ⟨0xC0, 0x08, f⟩
  | .vor _ f => some ⟨0xC0, 0x09, f⟩
  | .vxor _ f => some ⟨0xC0, 0x0A, f⟩
  | .vandn _ f => some ⟨0xC0, 0x0B, f⟩
  | .vshl _ f => some ⟨0xC0, 0x0C, f⟩
  | .vshr _ f => some ⟨0xC0, 0x0D, f⟩
  | .vsar _ f => some ⟨0xC0, 0x0E, f⟩
  | .vcmp _ p f => some ⟨0xC0, 0x10 + p.setWidth 7, f⟩
  | .vsel _ f => some ⟨0xC0, 0x18, f⟩
  | .vmul _ f => some ⟨0xC1, 0x00, f⟩
  | .vmulh _ f => some ⟨0xC1, 0x01, f⟩
  | .vmulw _ f => some ⟨0xC1, 0x02, f⟩
  | .vfma _ f => some ⟨0xC2, 0x00, f⟩
  | .vfms _ f => some ⟨0xC2, 0x01, f⟩
  | .vfnma _ f => some ⟨0xC2, 0x02, f⟩
  | .vfnms _ f => some ⟨0xC2, 0x03, f⟩
  | .vdiv _ f => some ⟨0xC3, 0x00, f⟩
  | .vrem _ f => some ⟨0xC3, 0x01, f⟩
  | .vsqrt _ f => some ⟨0xC3, 0x02, f⟩
  | .vrsum _ aw f => some ⟨0xC4, aw ++ (0x0 : BitVec 4), f⟩
  | .vrmin _ aw f => some ⟨0xC4, aw ++ (0x1 : BitVec 4), f⟩
  | .vrmax _ aw f => some ⟨0xC4, aw ++ (0x2 : BitVec 4), f⟩
  | .vdot _ aw f => some ⟨0xC4, aw ++ (0x3 : BitVec 4), f⟩
  | .vrcnt _ aw f => some ⟨0xC4, aw ++ (0x4 : BitVec 4), f⟩
  | .vcvt _ tt f => some ⟨0xC5, (0 : BitVec 3) ++ tt, f⟩
  | .vcvtz _ tt f => some ⟨0xC5, (1 : BitVec 3) ++ tt, f⟩
  | .vmov _ tt f => some ⟨0xC5, (2 : BitVec 3) ++ tt, f⟩
  | .vcmpr _ tt f => some ⟨0xC5, (3 : BitVec 3) ++ tt, f⟩
  | .vexpz _ tt f => some ⟨0xC5, (4 : BitVec 3) ++ tt, f⟩
  | .vexpm _ tt f => some ⟨0xC5, (5 : BitVec 3) ++ tt, f⟩
  | .vperm _ tt f => some ⟨0xC5, (6 : BitVec 3) ++ tt, f⟩
  | .vgath _ f => some ⟨0xC6, 0x00, f⟩
  | .vscat _ f => some ⟨0xC7, 0x00, f⟩
  | .extensionInstruction _ op fn f => some ⟨(0xE : BitVec 4) ++ op, fn, f⟩
  | _ => none

/-- The short-vector instruction that a command is, in the same layout (R298, R299, R301); none for a command that is not one. -/
def Instr.short? : Instr → Option SIns
  | .sadd _ f => some ⟨0xC8, 0, f⟩
  | .ssub _ f => some ⟨0xC8, 1, f⟩
  | .smin _ f => some ⟨0xC8, 2, f⟩
  | .smax _ f => some ⟨0xC8, 3, f⟩
  | .sabs _ f => some ⟨0xC8, 4, f⟩
  | .sneg _ f => some ⟨0xC8, 5, f⟩
  | .sand _ f => some ⟨0xC8, 8, f⟩
  | .sor _ f => some ⟨0xC8, 9, f⟩
  | .sxor _ f => some ⟨0xC8, 10, f⟩
  | .sandn _ f => some ⟨0xC8, 11, f⟩
  | .sshl _ f => some ⟨0xC8, 12, f⟩
  | .sshr _ f => some ⟨0xC8, 13, f⟩
  | .ssar _ f => some ⟨0xC8, 14, f⟩
  | .scmp _ p f => some ⟨0xC8, 0x10 + p.setWidth 7, f⟩
  | .ssel _ f => some ⟨0xC8, 0x18, f⟩
  | .smul _ f => some ⟨0xC9, 0, f⟩
  | .smulh _ f => some ⟨0xC9, 1, f⟩
  | .smulwl _ f => some ⟨0xC9, 2, f⟩
  | .smulwh _ f => some ⟨0xC9, 3, f⟩
  | .sfma _ f => some ⟨0xCA, 0, f⟩
  | .sfms _ f => some ⟨0xCA, 1, f⟩
  | .sfnma _ f => some ⟨0xCA, 2, f⟩
  | .sfnms _ f => some ⟨0xCA, 3, f⟩
  | .sdiv _ f => some ⟨0xCB, 0, f⟩
  | .srem _ f => some ⟨0xCB, 1, f⟩
  | .ssqrt _ f => some ⟨0xCB, 2, f⟩
  | .srsum _ aw f => some ⟨0xCC, aw ++ (0 : BitVec 4), f⟩
  | .srmin _ aw f => some ⟨0xCC, aw ++ (1 : BitVec 4), f⟩
  | .srmax _ aw f => some ⟨0xCC, aw ++ (2 : BitVec 4), f⟩
  | .sdot _ aw f => some ⟨0xCC, aw ++ (3 : BitVec 4), f⟩
  | .scvt _ tt f => some ⟨0xCD, (0 : BitVec 3) ++ tt, f⟩
  | .scvtz _ tt f => some ⟨0xCD, (1 : BitVec 3) ++ tt, f⟩
  | .smov _ tt f => some ⟨0xCD, (2 : BitVec 3) ++ tt, f⟩
  | .scmpr _ tt f => some ⟨0xCD, (3 : BitVec 3) ++ tt, f⟩
  | .sexpz _ tt f => some ⟨0xCD, (4 : BitVec 3) ++ tt, f⟩
  | .sexpm _ tt f => some ⟨0xCD, (5 : BitVec 3) ++ tt, f⟩
  | .sperm _ tt f => some ⟨0xCD, (6 : BitVec 3) ++ tt, f⟩
  | .sld _ f => some ⟨0xCE, 0, f⟩
  | .sst _ f => some ⟨0xCE, 1, f⟩
  | _ => none

/-- The word of an instruction (R315 to R317); none for a command of another kind. -/
def Instr.word (i : Instr) : Option W48 :=
  i.intWord? <|> i.immWord? <|> i.flowWord? <|> i.floatWord? <|> i.systemWord? <|> i.controlWord? <|> i.stream?.map SIns.word
    <|> i.short?.map SIns.word

end Sys2Proof

namespace Sys2Proof.Machine

/-! Instructions of words: each reads the fields that its instructions use. -/

/-- A five-bit register field at bit `lo`. -/
def regField (w : W48) (lo : Nat) : Reg := (bits w lo 5).toFin

/-- A mask register named at bit `lo`. -/
def mregField (w : W48) (lo : Nat) : MReg := (bits w lo 3).toFin

/-- Opcode 0x01 (R318). -/
def readInt (c : Core) (w : W48) : Option Instr :=
  let d := regField w 35
  let a := regField w 30
  let b := regField w 25
  let e := regField w 20
  match (bits w 0 20).toNat with
  | 0 => some (.add c d a b)
  | 1 => some (.sub c d a b)
  | 2 => some (.and c d a b)
  | 3 => some (.or c d a b)
  | 4 => some (.xor c d a b)
  | 5 => some (.andn c d a b)
  | 6 => some (.shl c d a b)
  | 7 => some (.shr c d a b)
  | 8 => some (.sar c d a b)
  | 9 => some (.min c d a b)
  | 10 => some (.minu c d a b)
  | 11 => some (.max c d a b)
  | 12 => some (.maxu c d a b)
  | 13 => some (.sel c d a b e)
  | 14 => some (.clz c d a)
  | 15 => some (.popc c d a)
  | _ => none

/-- Opcode 0x02 (R320). -/
def readCarry (c : Core) (w : W48) : Option Instr :=
  let d := regField w 35
  let a := regField w 30
  let b := regField w 25
  let e := regField w 20
  match (bits w 0 20).toNat with
  | 0 => some (.addc c d a b e)
  | 1 => some (.addco c d a b e)
  | 2 => some (.subb c d a b e)
  | 3 => some (.subbo c d a b e)
  | 4 => some (.mul c d a b)
  | 5 => some (.mulw c d a b)
  | 6 => some (.mulwu c d a b)
  | 7 => some (.div c d a b)
  | 8 => some (.divu c d a b)
  | 9 => some (.rem c d a b)
  | 10 => some (.remu c d a b)
  | _ => none

/-- Opcode 0x03 (R318). -/
def readCompare (c : Core) (w : W48) : Option Instr :=
  let d := regField w 35
  let a := regField w 30
  let b := regField w 25
  match (bits w 0 20).toNat with
  | 0 => some (.cmpeq c d a b)
  | 1 => some (.cmpne c d a b)
  | 2 => some (.cmplt c d a b)
  | 3 => some (.cmpltu c d a b)
  | 4 => some (.cmple c d a b)
  | 5 => some (.cmpleu c d a b)
  | _ => none

/-- Opcodes 0x10 to 0x2F (R321 to R323, R335). -/
def readImm (c : Core) (w : W48) : Option Instr :=
  let d := regField w 35
  let a := regField w 30
  let b := regField w 25
  let i : BitVec 20 := bits w 0 20
  let j : BitVec 30 := bits w 0 30
  match (bits w 40 8).toNat with
  | 16 => some (.addi c d a i)
  | 17 => some (.andi c d a i)
  | 18 => some (.ori c d a i)
  | 19 => some (.xori c d a i)
  | 20 => some (.shli c d a i)
  | 21 => some (.shri c d a i)
  | 22 => some (.sari c d a i)
  | 23 => some (.cmpeqi c d a i)
  | 24 => some (.cmplti c d a i)
  | 25 => some (.cmpltui c d a i)
  | 26 => some (.li c d j)
  | 27 => some (.lih c d j)
  | 32 => some (.ldp c d a i)
  | 33 => some (.ldps c d a i)
  | 34 => some (.ldd c d a i)
  | 35 => some (.ldds c d a i)
  | 36 => some (.ldq c d a i none)
  | 37 => some (.ldwp c d a i)
  | 38 => some (.ldf24 c d a i)
  | 39 => some (.ldf48 c d a i)
  | 40 => some (.stp c a b i)
  | 41 => some (.std c a b i)
  | 42 => some (.stq c a b i)
  | 43 => some (.stwp c a b i)
  | 44 => some (.stf24 c a b i)
  | 45 => some (.stf48 c a b i)
  | 46 => some (.ldl c d a i)
  | 47 => some (.stc c d a b i)
  | _ => none

/-- Opcodes 0x30 to 0x36 (R326). -/
def readBranch (c : Core) (w : W48) : Option Instr :=
  let a := regField w 30
  let j : BitVec 30 := bits w 0 30
  match (bits w 40 8).toNat with
  | 48 => some (.bz c a j)
  | 49 => some (.bnz c a j)
  | 50 => some (.jmp c j)
  | 51 => some (.call c j)
  | 52 => some (.jr c a)
  | 53 => some (.callr c a)
  | 54 => some (.ret c)
  | _ => none

/-- Opcode 0x37 (R390). -/
def readLoop (c : Core) (w : W48) : Option Instr :=
  let a := regField w 30
  match (bits w 35 5).toNat with
  | 0 => some (.loop c a (bits w 0 7))
  | 1 => some (.endloop c)
  | 2 => some (.lcrd c a (bits w 0 2))
  | _ => none

/-- Opcode 0x38 (R324). -/
def readStack (c : Core) (w : W48) : Option Instr :=
  let d := regField w 35
  let a := regField w 30
  match (bits w 2 2).toNat with
  | 0 => some (.push c a)
  | 1 => some (.pop c d)
  | 2 => some (.getsp c d (bits w 0 2))
  | 3 => some (.setsp c a (bits w 0 2))
  | _ => none

/-- Opcode 0x40 (R327). -/
def readFloat (c : Core) (w : W48) : Option Instr :=
  let d := regField w 35
  let a := regField w 30
  let b := regField w 25
  let p := bit w 4
  let r : BitVec 3 := bits w 5 3
  match (bits w 0 4).toNat with
  | 0 => some (.fadd c d a b p r)
  | 1 => some (.fsub c d a b p r)
  | 2 => some (.fmul c d a b p r)
  | 3 => some (.fdiv c d a b p r)
  | 4 => some (.fsqrt c d a p r)
  | 5 => some (.fmin c d a b p r)
  | 6 => some (.fmax c d a b p r)
  | 7 => some (.fneg c d a p r)
  | 8 => some (.fabs c d a p r)
  | 9 => some (.fmv c d a p r)
  | _ => none

/-- Opcode 0x41 (R327). -/
def readFused (c : Core) (w : W48) : Option Instr :=
  let d := regField w 35
  let a := regField w 30
  let b := regField w 25
  let e := regField w 20
  let p := bit w 4
  let r : BitVec 3 := bits w 5 3
  match (bits w 0 2).toNat with
  | 0 => some (.fma c d a b e p r)
  | 1 => some (.fms c d a b e p r)
  | 2 => some (.fnma c d a b e p r)
  | 3 => some (.fnms c d a b e p r)
  | _ => none

/-- Opcode 0x43 (R328). -/
def readConvert (c : Core) (w : W48) : Option Instr :=
  let d := regField w 35
  let a := regField w 30
  let p := bit w 4
  let r : BitVec 3 := bits w 5 3
  let u := bit w 8
  let h := bit w 9
  match (bits w 0 4).toNat with
  | 0 => some (.gtof c d a p r)
  | 1 => some (.ftog c d a p r)
  | 2 => some (.cvtif c d a p r u)
  | 3 => some (.cvtfi c d a p r u)
  | 4 => some (.cvtff c d a p r)
  | 5 => some (.cvtfh c d a p r h)
  | 6 => some (.cvthf c d a p r h)
  | _ => none

/-- Opcode 0x50 (R330). -/
def readDecimal (c : Core) (w : W48) : Option Instr :=
  let d := regField w 35
  let a := regField w 30
  let b := regField w 25
  match (bits w 0 2).toNat with
  | 0 => some (.dadd c d a b)
  | 1 => some (.dsub c d a b)
  | 2 => some (.dtob c d a)
  | 3 => some (.btod c d a)
  | _ => none

/-- Opcode 0x51 (R332). -/
def readBlock (c : Core) (w : W48) : Option Instr :=
  let d := regField w 35
  let a := regField w 30
  let b := regField w 25
  let e := regField w 20
  let z : BitVec 2 := bits w 2 2
  let v := bit w 4
  match (bits w 0 2).toNat with
  | 0 => some (.movr c a b e z v none)
  | 1 => some (.fillr c a b e z v none)
  | 2 => some (.cmpr c d a b e z v none)
  | 3 => some (.scanr c d a b e z v (bit w 5) none)
  | _ => none

/-- Opcode 0x60 (R338). -/
def readSystem (c : Core) (w : W48) : Option Instr :=
  let d := regField w 35
  let a := regField w 30
  let b := regField w 25
  match (bits w 0 6).toNat with
  | 0 => some (.fence c)
  | 1 => some (.isync c)
  | 2 => some (.getstw c d)
  | 3 => some (.setfps c a)
  | 4 => some (.setmode c a)
  | 5 => some (.svc c (bits w 6 12))
  | 6 => some (.xcall c a)
  | 7 => some (.xret c)
  | 8 => some (.eret c)
  | 9 => some (.wait c)
  | 10 => some (.mfbw c d a)
  | 11 => some (.mtbw c a b)
  | 12 => some (.brk c)
  | _ => none

/-- Opcode 0xCF (R302). -/
def readMask (c : Core) (w : W48) : Option Instr :=
  let d := regField w 35
  let a := regField w 30
  let md := mregField w 35
  let ma := mregField w 30
  let mb := mregField w 25
  match (bits w 5 7).toNat with
  | 0 => some (.mand c md ma mb)
  | 1 => some (.mor c md ma mb)
  | 2 => some (.mxor c md ma mb)
  | 3 => some (.mandn c md ma mb)
  | 4 => some (.mnot c md ma)
  | 5 => some (.mpop c d ma)
  | 6 => some (.mtog c d ma)
  | 7 => some (.mfromg c md a)
  | 8 => some (.mtail c md a)
  | _ => none

/-- Opcodes 0xD0 to 0xD7 (R305). -/
def readControl (c : Core) (w : W48) : Option Instr :=
  let d := regField w 35
  let a := regField w 30
  let v : BitVec 5 := bits w 35 5
  let i : BitVec 20 := bits w 0 20
  match (bits w 40 8).toNat with
  | 208 => some (.vdld c v a i)
  | 209 => some (.vdst c v a i)
  | 210 => some (.vdset c v a (bits w 0 2))
  | 211 => some (.vdget c d (bits w 30 5) (bits w 0 2))
  | 212 => some (.vdadd c v a)
  | 213 => some (.vfence c d)
  | 214 => some (.vfrd c d (bit w 0))
  | 215 => some (.vfrclr c)
  | _ => none

/-- Opcodes 0xC0 to 0xC3, 0xC6 to 0xCB and 0xCE, whose FN is one code (R276 to R279, R288, R298, R299, R301). -/
def readElement (c : Core) (x : SIns) : Option Instr :=
  let f := x.f
  match x.opc.toNat, x.fn.toNat with
  | 0xC0, 0 => some (.vadd c f)
  | 0xC0, 1 => some (.vsub c f)
  | 0xC0, 2 => some (.vmin c f)
  | 0xC0, 3 => some (.vmax c f)
  | 0xC0, 4 => some (.vabs c f)
  | 0xC0, 5 => some (.vneg c f)
  | 0xC0, 8 => some (.vand c f)
  | 0xC0, 9 => some (.vor c f)
  | 0xC0, 10 => some (.vxor c f)
  | 0xC0, 11 => some (.vandn c f)
  | 0xC0, 12 => some (.vshl c f)
  | 0xC0, 13 => some (.vshr c f)
  | 0xC0, 14 => some (.vsar c f)
  | 0xC0, 16 => some (.vcmp c 0 f)
  | 0xC0, 17 => some (.vcmp c 1 f)
  | 0xC0, 18 => some (.vcmp c 2 f)
  | 0xC0, 19 => some (.vcmp c 3 f)
  | 0xC0, 20 => some (.vcmp c 4 f)
  | 0xC0, 21 => some (.vcmp c 5 f)
  | 0xC0, 22 => some (.vcmp c 6 f)
  | 0xC0, 23 => some (.vcmp c 7 f)
  | 0xC0, 24 => some (.vsel c f)
  | 0xC1, 0 => some (.vmul c f)
  | 0xC1, 1 => some (.vmulh c f)
  | 0xC1, 2 => some (.vmulw c f)
  | 0xC2, 0 => some (.vfma c f)
  | 0xC2, 1 => some (.vfms c f)
  | 0xC2, 2 => some (.vfnma c f)
  | 0xC2, 3 => some (.vfnms c f)
  | 0xC3, 0 => some (.vdiv c f)
  | 0xC3, 1 => some (.vrem c f)
  | 0xC3, 2 => some (.vsqrt c f)
  | 0xC6, 0 => some (.vgath c f)
  | 0xC7, 0 => some (.vscat c f)
  | 0xC8, 0 => some (.sadd c f)
  | 0xC8, 1 => some (.ssub c f)
  | 0xC8, 2 => some (.smin c f)
  | 0xC8, 3 => some (.smax c f)
  | 0xC8, 4 => some (.sabs c f)
  | 0xC8, 5 => some (.sneg c f)
  | 0xC8, 8 => some (.sand c f)
  | 0xC8, 9 => some (.sor c f)
  | 0xC8, 10 => some (.sxor c f)
  | 0xC8, 11 => some (.sandn c f)
  | 0xC8, 12 => some (.sshl c f)
  | 0xC8, 13 => some (.sshr c f)
  | 0xC8, 14 => some (.ssar c f)
  | 0xC8, 16 => some (.scmp c 0 f)
  | 0xC8, 17 => some (.scmp c 1 f)
  | 0xC8, 18 => some (.scmp c 2 f)
  | 0xC8, 19 => some (.scmp c 3 f)
  | 0xC8, 20 => some (.scmp c 4 f)
  | 0xC8, 21 => some (.scmp c 5 f)
  | 0xC8, 22 => some (.scmp c 6 f)
  | 0xC8, 23 => some (.scmp c 7 f)
  | 0xC8, 24 => some (.ssel c f)
  | 0xC9, 0 => some (.smul c f)
  | 0xC9, 1 => some (.smulh c f)
  | 0xC9, 2 => some (.smulwl c f)
  | 0xC9, 3 => some (.smulwh c f)
  | 0xCA, 0 => some (.sfma c f)
  | 0xCA, 1 => some (.sfms c f)
  | 0xCA, 2 => some (.sfnma c f)
  | 0xCA, 3 => some (.sfnms c f)
  | 0xCB, 0 => some (.sdiv c f)
  | 0xCB, 1 => some (.srem c f)
  | 0xCB, 2 => some (.ssqrt c f)
  | 0xCE, 0 => some (.sld c f)
  | 0xCE, 1 => some (.sst c f)
  | _, _ => none

/-- Opcodes 0xC4, 0xC5, 0xCC and 0xCD, whose FN holds two codes (R281, R283, R299). -/
def readPair (c : Core) (x : SIns) : Option Instr :=
  let f := x.f
  let aw : BitVec 3 := bits x.fn 4 3
  let tt : BitVec 4 := bits x.fn 0 4
  match x.opc.toNat, (if x.opc = 0xC4 ∨ x.opc = 0xCC then tt.toNat else aw.toNat) with
  | 0xC4, 0 => some (.vrsum c aw f)
  | 0xC4, 1 => some (.vrmin c aw f)
  | 0xC4, 2 => some (.vrmax c aw f)
  | 0xC4, 3 => some (.vdot c aw f)
  | 0xC4, 4 => some (.vrcnt c aw f)
  | 0xCC, 0 => some (.srsum c aw f)
  | 0xCC, 1 => some (.srmin c aw f)
  | 0xCC, 2 => some (.srmax c aw f)
  | 0xCC, 3 => some (.sdot c aw f)
  | 0xC5, 0 => some (.vcvt c tt f)
  | 0xC5, 1 => some (.vcvtz c tt f)
  | 0xC5, 2 => some (.vmov c tt f)
  | 0xC5, 3 => some (.vcmpr c tt f)
  | 0xC5, 4 => some (.vexpz c tt f)
  | 0xC5, 5 => some (.vexpm c tt f)
  | 0xC5, 6 => some (.vperm c tt f)
  | 0xCD, 0 => some (.scvt c tt f)
  | 0xCD, 1 => some (.scvtz c tt f)
  | 0xCD, 2 => some (.smov c tt f)
  | 0xCD, 3 => some (.scmpr c tt f)
  | 0xCD, 4 => some (.sexpz c tt f)
  | 0xCD, 5 => some (.sexpm c tt f)
  | 0xCD, 6 => some (.sperm c tt f)
  | _, _ => none

/-- Opcodes 0xC0 to 0xCE and 0xE0 to 0xEF, which have the layout of R266 (R298, R301, R339). -/
def readVector (c : Core) (x : SIns) : Option Instr :=
  if 0xE0 ≤ x.opc.toNat then some (.extensionInstruction c (bits x.opc 0 4) x.fn x.f)
  else match readElement c x with
    | some i => some i
    | none => readPair c x

/-- The instruction whose fields a word holds, by its major opcode (R264, R317); fields that it does not use are not looked at. -/
def readWord? (c : Core) (w : W48) : Option Instr :=
  let o := (bits w 40 8).toNat
  if o = 0x01 then readInt c w
  else if o = 0x02 then readCarry c w
  else if o = 0x03 then readCompare c w
  else if o < 0x30 then readImm c w
  else if o < 0x37 then readBranch c w
  else if o = 0x37 then readLoop c w
  else if o = 0x38 then readStack c w
  else if o = 0x40 then readFloat c w
  else if o = 0x41 then readFused c w
  else if o = 0x42 then some (.fcmp c (regField w 35) (regField w 30) (regField w 25) (bits w 0 3) (bit w 4) (bits w 5 3))
  else if o = 0x43 then readConvert c w
  else if o = 0x50 then readDecimal c w
  else if o = 0x51 then readBlock c w
  else if o = 0x60 then readSystem c w
  else if o < 0xC0 then none
  else if o = 0xCF then readMask c w
  else if o < 0xCF then readVector c (SIns.ofWord w)
  else if o < 0xE0 then readControl c w
  else if o < 0xF0 then readVector c (SIns.ofWord w)
  else none

end Sys2Proof.Machine

namespace Sys2Proof

open Sys2Proof.Machine

/-- What core `c` reads in a word: the instruction whose word it is, in every bit; none for a word that holds a reserved value, which raises
ILLEGAL (R265, R317, R420). -/
def Instr.ofWord (c : Core) (w : W48) : Option Instr :=
  (readWord? c w).filter (fun i => i.wellFormed && i.word == some w)

/-- The instruction without the operands that no encoding holds: what the CRC guard sees of an LDQ (log 26), where a block-repeat
instruction is interrupted (R334). -/
def Instr.encoded : Instr → Instr
  | .ldq c d a i _ => .ldq c d a i none
  | .movr c a b e z w _ => .movr c a b e z w none
  | .fillr c a b e z w _ => .fillr c a b e z w none
  | .cmpr c d a b e z w _ => .cmpr c d a b e z w none
  | .scanr c d a b e z w n _ => .scanr c d a b e z w n none
  | i => i

end Sys2Proof
end

