-- ==== Sys2Proof/Machine/System.lean ====
section
/-! DEFINITION. The system instructions (R313, R314, R338, R377, R381, R426, R431 to R436, R444, R448, R449, R602). -/

namespace Sys2Proof.Machine

/-- FENCE waits until every earlier store of the core is visible and every earlier load has its value (R338, R356). -/
def execFence (c : Core) (s : State) : Host.Outcome State Fault Refusal :=
  runIns c { legal := (Instr.fence c).wellFormed } (fun t => if storesPending t c ∨ loadsPending t c then .stall else .done t) s

/-- ISYNC: fetched instructions are discarded, and fetch restarts at the next instruction (R338, R360). -/
def execIsync (c : Core) (s : State) : Host.Outcome State Fault Refusal :=
  runIns c { legal := (Instr.isync c).wellFormed } (fun t => .done (discardFetched t c)) s

/-- GETSTW: Gd = STW (R312, R338). -/
def execGetstw (c : Core) (d : Reg) (s : State) : Host.Outcome State Fault Refusal :=
  runIns c { legal := (Instr.getstw c d).wellFormed } (fun t => .done (setG t c d (ctxOf t c).stw)) s

/-- SETFPS: FLAGS, SATS, RM, FTZ and DAZ from Ga; ILLEGAL for a reserved rounding mode (R313). -/
def execSetfps (c : Core) (a : Reg) (s : State) : Host.Outcome State Fault Refusal :=
  runIns c { legal := (Instr.setfps c a).wellFormed }
    (fun t =>
      let v := getG t c a
      if roundOk (bits v 6 3) then .done (setStw t c (setBits (ctxOf t c).stw 0 (bits v 0 11))) else .trap illegal t) s

/-- SETMODE: IE from Ga[14] and, on a scalar core, LVL from Ga[12]; interrupts are held for two instructions (R314, R377, R436). -/
def execSetmode (c : Core) (a : Reg) (s : State) : Host.Outcome State Fault Refusal :=
  runIns c { legal := (Instr.setmode c a).wellFormed, sup := true, kind := .setmode }
    (fun t =>
      let v := getG t c a
      let x := ctxOf t c
      if c.val ≠ 4 ∧ x.inXcall ∧ bit v 12 = false then .trap privilege t
      else
        let t1 := if c.val = 4 then t else setStw t c (setBit x.stw 12 (bit v 12))
        let t2 := setIe t1 c (bit v 14)
        .done (setCore t2 c { coreOf t2 c with shadow := 3 })) s

/-- SVC: the system-call exception, with imm in DETAIL (R338, R420). -/
def execSvc (c : Core) (imm : BitVec 12) (s : State) : Host.Outcome State Fault Refusal :=
  runIns c { legal := (Instr.svc c imm).wellFormed, cost := fun _ => none }
    (fun t => .trap { cause := 0x09, detail := imm.setWidth 32 } t) s

/-! XCALL and XRET (R431 to R435). -/

/-- Cause GATE with its reason and failing address (R420, R433). -/
def gateExc (reason : BitVec 8) (a : Addr) : Exc := { cause := 0x0A, faddr := a, detail := reason.setWidth 32, reason }

/-- The world that a gate leads to reads its gate table, and owns the callee area (R431). -/
def gateWho (s : State) (c : Core) (w : Bool) : Who :=
  { code := ownerCode (partOf s c) w, safety := w, sup := true, core := c, master := BitVec.ofNat 8 (16 + c.val) }

/-- The first ply of the gate table of world `w` of partition `p` (R431). -/
def gateTable (s : State) (p : Nat) (w : Bool) : Nat :=
  let a := (rd s (.capGate p (cond w 1 0))).toNat * 0x10000
  if plyInWord a = 0 then a else a + 6 - plyInWord a

/-- A read or write of R433 that faults: reason MEMORY. -/
def Got.orGate {α : Type} (g : Got α) (f : α → State → Res) : Res :=
  match g with
  | .ok v t => f v t
  | .fault e t => .trap (gateExc 5 e.faddr) t
  | .held => .stall

/-- The callee's context at entry (R433 step 7): `x` the caller's, T and SIZE of its callee area. -/
def calleeCtx (x : Ctx) (w : Bool) (entry top : Addr) (size : Nat) : Ctx :=
  { x with
    xc := (x.pc + 4).setWidth 48 ||| 0x10000000000
    xstw := x.stw
    xdspU := x.dspU
    xdspS := x.dspS
    xrspU := x.rspU
    xrspS := x.rspS
    xxfp := x.xfp
    stw := setBit (entryStw x.stw) 13 w
    xfp := top - 480
    dspS := top - 480
    rspS := top - BitVec.ofNat 40 (3 * size)
    dspU := 0
    rspU := 0
    pc := pcAlign entry }

/-- XCALL of gate `Ga` (R432, R433). -/
def gateCall (s : State) (c : Core) (g : W48) : Res :=
  let x := ctxOf s c
  let p := partOf s c
  let w := !x.safety
  let i := g.toNat
  if 256 ≤ i ∨ (rdF s (.capGcnt p (cond w 1 0)) 0 9).toNat ≤ i then .trap (gateExc 1 0) s
  else
    let who := gateWho s c w
    (loadWords s who (gateTable s p w + 12 * i) 2 0).orGate fun l t =>
      let e0 := l.getD 0 0
      let e1 := l.getD 1 0
      let size := (bits e1 40 16).toNat
      if bit e0 40 = false ∨ size % 2 = 1 ∨ size < 256 then .trap (gateExc 2 0) t
      else if bit e0 (if x.sup then 42 else 41) = false then .trap (gateExc 3 0) t
      else if x.inXcall then .trap (gateExc 4 0) t
      else
        let top := bits e1 0 40 - BitVec.ofNat 40 (6 * size * (32 * c.val + bankOf t c))
        let frame := frameWords x [] { cause := 0x1E } (x.pc + 4) none
        (storeWords t who (top - 480).toNat frame 0).orGate fun _ u =>
          let u1 := setCtx u c (calleeCtx (ctxOf u c) w (bits e0 0 40) top size)
          .away (showBelay (setCore u1 c { coreOf u1 c with reservation := none }) c)

/-- XCALL: the call of a gate of the other world (R433). -/
def execXcall (c : Core) (a : Reg) (s : State) : Host.Outcome State Fault Refusal :=
  runIns c { legal := (Instr.xcall c a).wellFormed, cost := fun _ => none } (fun t0 => microcoded c t0 fun t => gateCall t c (getG t c a)) s

/-- The caller's context as XRET gives it back (R435). -/
def callerCtx (x : Ctx) : Ctx :=
  { x with
    pc := pcAlign (bits x.xc 0 40)
    stw := x.xstw
    dspU := x.xdspU
    dspS := x.xdspS
    rspU := x.xrspU
    rspS := x.xrspS
    xfp := x.xxfp
    xc := setBit x.xc 40 false }

/-- XRET: return to the caller of the gate (R435). -/
def gateReturn (s : State) (c : Core) : Res :=
  let x := ctxOf s c
  if x.inXcall = false then .trap (controlFlow 0) s
  else match loadWords s (coreWho s c) x.xfp.toNat 1 0 with
    | .held => .stall
    | .fault e t => .trap e t
    | .ok l t =>
      if bits (l.getD 0 0) 40 8 ≠ (0x1E : BitVec 8) then .trap (controlFlow 0) t
      else match lazyReload t c with
        | .held => .stall
        | .fault e u => .trap e u
        | .ok _ u =>
          let u1 := discardFetched (setCtx u c (callerCtx (ctxOf u c))) c
          .away (showBelay (setCore u1 c { coreOf u1 c with reservation := none }) c)

/-- XRET (R435). -/
def execXret (c : Core) (s : State) : Host.Outcome State Fault Refusal :=
  runIns c { legal := (Instr.xret c).wellFormed, cost := fun _ => none } (fun t0 => microcoded c t0 fun t => gateReturn t c) s

/-- ERET: return from exception (R426). -/
def execEret (c : Core) (s : State) : Host.Outcome State Fault Refusal :=
  runIns c { legal := (Instr.eret c).wellFormed, sup := true, kind := .eret, cost := fun _ => some 10 }
    (fun t => match returnFrom t c with
      | .ok _ u => .away u
      | .fault e u => .trap e u
      | .held => .stall) s

/-- WAIT: the bank of a scalar core yields; the lifeline core waits for an interrupt (R338, R381, R444). -/
def execWait (c : Core) (s : State) : Host.Outcome State Fault Refusal :=
  runIns c { legal := (Instr.wait c).wellFormed, kind := .wait, cost := fun _ => none }
    (fun t =>
      let u := setPc t c (pcOf t c + 4)
      .away (if c.val = 4 then setCore u c { coreOf u c with waiting := true } else yieldBank u c)) s

/-! MFBW and MTBW (R448, R449). -/

/-- The running context may reach bank `b` of its core (R449). -/
def mayReachBank (s : State) (c b : Nat) : Bool :=
  let w := (ctxOf s c).safety
  if b < 4 then decide (2 ≤ b) == w
  else match slotOfBank s c b with
    | some t => taskWorld s c t == w
    | none => false

/-- What `n` and a slice name in the bank that BANKWIN selects; none where R449 gives PRIVILEGE. -/
def bankRead (s : State) (c n j : Nat) : Option W48 :=
  let b := (coreOf s c).bankwin
  if n = 127 then (if j = 0 then some (b.setWidth 48) else none)
  else if mayReachBank s c b.toNat = false ∨ (89 ≤ n ∧ n < 92) then none
  else ((ctxAt s (ctxKey c b.toNat)).bankGet [] n j).map (fun v => bits v 0 48)

/-- MFBW: Gd = a register of the bank that BANKWIN selects (R448, R449). -/
def execMfbw (c : Core) (d a : Reg) (s : State) : Host.Outcome State Fault Refusal :=
  runIns c { legal := (Instr.mfbw c d a).wellFormed, sup := true, cost := fun _ => some 2 }
    (fun t =>
      let v := getG t c a
      match bankRead t c (bits v 0 7).toNat (bits v 8 2).toNat with
      | some x => .done (setG t c d x)
      | none => .trap privilege t) s

/-- A register of a bank takes a value. IE so written neither opens nor ends a belay window, which only a switch and SETMODE do (R437). -/
def bankWrite (s : State) (c b n j : Nat) (v : W48) : State :=
  let k := ctxKey c b
  setCtxAt s k ((ctxAt s k).bankSet n j (v.setWidth 72))

/-- A write of STW with a reserved rounding-mode code (R449): ILLEGAL, which R421 puts before PRIVILEGE. -/
def badBankStw (sel v : W48) : Bool := bits sel 0 7 == (97 : BitVec 7) && bits sel 8 2 == (0 : BitVec 2) && !roundOk (bits v 6 3)

/-- MTBW: a register of the bank that BANKWIN selects = Gb (R448, R449). -/
def execMtbw (c : Core) (a b : Reg) (s : State) : Host.Outcome State Fault Refusal :=
  runIns c { legal := (Instr.mtbw c a b).wellFormed && !badBankStw (getG s c a) (getG s c b), sup := true, cost := fun _ => some 2 }
    (fun t =>
      let n := (bits (getG t c a) 0 7).toNat
      let j := (bits (getG t c a) 8 2).toNat
      let v := getG t c b
      let k := (coreOf t c).bankwin.toNat
      if (bankRead t c n j).isNone ∨ isSaveState n ∨ (n = 96 ∧ k = bankOf t c) then .trap privilege t
      else if n = 127 then .done (setCore t c { coreOf t c with bankwin := bits v 0 5 })
      else .done (bankWrite t c k n j v)) s

/-- BRK: the probe claims it on a core that it may debug, and the core halts, in a delay slot at the slot, or BREAK is raised (R420, R602, R614,
R622). -/
def execBrk (c : Core) (s : State) : Host.Outcome State Fault Refusal :=
  runIns c { legal := (Instr.brk c).wellFormed }
    (fun t => if rdB t .dbgCtl (8 + c.val) && mayDebugCore t c then .pause (haltCore (if (coreOf t c).slot.isSome then t else retire t c) c 2) else .trap { cause := 0x0B } t) s

end Sys2Proof.Machine
end

