-- ==== Sys2Proof/Machine/Rows.lean ====
section
/-! DEFINITION. The commands of the block outside the instruction streams: one definition per row of the opcode table, each over the
operations of the blocks. In OFF only the supplies act (R549, R635). -/

namespace Sys2Proof.Machine

/-- The step of a command outside the instruction streams. -/
abbrev Answer := Host.Outcome State Fault Refusal

/-- A write of register `r`. -/
def putReg (w : Writer) (r : Rg) (v : Reg24) (s : State) : Answer := live s (regWrite s w r.index v)

/-! Cores: exceptions, interrupts, belay limits, switches (R396, R398, R400, R424, R437, R445). -/

/-- The lifeline core takes its lowest pending interrupt at this boundary (R396 to R398): an open chain whose closing
instruction waits is discarded (R222), and so is a WAIT (R381). -/
def takeInterrupt (s : State) : State :=
  if ¬ (inRun s ∧ (phase s = 0 ∨ phase s = 1) ∧ ¬ halted s 4 ∧ llState s = 2) then s
  else if (ctxOf s 4).chain ≠ [] ∧ ¬ (coreOf s 4).closing then s
  else match irqEligible s with
    | none => s
    | some k =>
      let s1 := discardChain s 4
      let s2 := setCore s1 4 { coreOf s1 4 with waiting := false }
      match takeIrq s2 k (pcOf s2 4) with
      | some t => stepEnds t 4
      | none => s

/-- The pair is ENABLED at last; with HOR it halts at its first instruction (R407, R605). -/
def enableEnds (s : State) (ok : Bool) : State :=
  let t := enableComplete s ok
  if llState s = 1 ∧ llState t = 2 ∧ haltOnRelease t 4 then haltCore t 4 3 else t

/-- A roll-back ends, which ends a step of the probe (R403, R604). -/
def rollbackEnds (s : State) (ok : Bool) : State :=
  let t := rollbackComplete s ok
  if llState s = 3 ∧ llState t = 2 then stepEnds t 4 else t

/-! The crossbar, the scrubber, the log (R32, R139, R155, R166, R473, R572, R653). -/

/-- The crossbar takes requests of a master: in RUN, BRING-UP and RECOVERY; in READY depth 1 those of Aftar, and those of the rings, which
wait for its clock; in emulated modes those of Aftar (R40, R556, R600, R607, R622; log 132). -/
def crossbarRuns (s : State) (m : Master) : Bool :=
  inRun s || inBringUp s || inRecovery s || (s.modes.emulated && m == .aftar) || (mode s == 3 && (match m with | .aftar => true | .smpDma _ => true | _ => false))

/-- The descriptor of a splice that a refused address lies under, by its number in order of first naming (R253; log 139). -/
def refusedDesc (p : Splice) (a : Nat) : Nat :=
  (p.descs.findIdx? (fun x => match Desc.span x.2 with
    | some (lo, hi) => decide (lo ≤ (a : Int)) && decide ((a : Int) ≤ hi)
    | none => false)).getD 0

/-- What a refused access does to its master (R32): a pump ends its splice ACCESS, at the element at which the splice last stood, since the
request names none (R252; log 139); a core takes the access fault at the instruction. -/
def settleOne (s : State) (q : Request) : State :=
  match q.master with
  | .pump i => match spliceOn s i with
    | some p => endSplice s p (some i) 1 (refusedDesc p q.addr)
    | none => s
  | .core c => if coreRuns s c then trapTo s s c (accessExc q.addr (if q.write.isSome then 2 else 0)) else s
  | _ => s

/-- The accesses refused in this step take their effect on their masters. -/
def settleRefused (s : State) : State := s.store.refused.foldl settleOne { s with store := { s.store with refused := [] } }

/-- The end of a command that may have let waiting accesses go on: refused ones reach their masters, and the requests that wait on the
ports go on (R32, R526). -/
def settled (s : State) : State := serveHosts (settleRefused s)

/-- A core's write that covers a register in one ply only raises the alignment fault at its instruction (R653). -/
def halfFault (s : State) (m : Master) (a : Nat) (write : Option (BitVec 6 × Word72)) : State :=
  match m, write with
  | .core c, some (mask, _) => if halfMask mask ∧ coreRuns s c then trapTo s s c (alignExc a) else s
  | _, _ => s

/-- A request of a core must wait: a store while an earlier one stands elsewhere than at its own port, since the stores of a core become visible
in order (R354); an access of the control registers while one is not visible (R357), or while the core does not run. -/
def coreOrdered (s : State) (m : Master) (a : Nat) (write : Option (BitVec 6 × Word72)) : Bool :=
  match m with
  | .core c =>
    if regionOf a = some .registers then coreRuns s c && !storesPending s c
    else write.isNone || !(s.store.held.any (fun q => q.master == .core c && q.write.isSome) ||
      s.store.tagWait.any (fun q => q.master == .core c && q.write.isSome && targetOf q.addr != targetOf a))
  | _ => true

/-- A request of a crossbar master; one of a core that must wait changes nothing (R354, R357). -/
def masterRequest (s : State) (m : Master) (a : Nat) (write : Option (BitVec 6 × Word72)) : State :=
  if ¬ crossbarRuns s m ∨ ¬ coreOrdered s m a write then s
  else if regionOf a = some .registers ∧ (masterWriter m).isSome then
    (let t := settleRefused (masterRegisters s m a write)
     if requestLeaves { master := m, addr := a, write } then t else halfFault t m a write)
  else settleRefused (request s { master := m, addr := a, write })

/-- The scrubber takes its next step in a unit; an uncorrectable word of the checkpoint store locks the lifeline (R155, R405). -/
def scrubStep (s : State) (u : Nat) : State :=
  if ¬ scrubbed s u then s
  else
    let i := (scrubOf s u).pos
    let bad := u == 157 && badCheckpoint s (0x60010000 + 6 * i) && (llState s == 1 || llState s == 2 || llState s == 3)
    let t := scrubAdvance (scrubWord s u i) u
    if bad then lockLifeline t else t

/-- The log flush: the entries reach the circular log, the newest over the oldest, and the retirements both copies of their record (R153,
R572; log 158). -/
def flushLog (s : State) : State :=
  { s with
    flash := { s.flash with
      log := (s.flash.unflushed ++ s.flash.log).take logPlaces
      logAt := (s.flash.logAt + s.flash.unflushed.length) % logPlaces
      unflushed := []
      retired := s.flash.retired ++ s.store.retiring
      retiredTwin := s.flash.retired ++ s.store.retiring }
    store := { s.store with retiring := [] } }

/-- A control-store word that reads uncorrectable is repaired (R473, R474). -/
def repairStore (s : State) (scalar : Bool) (k : Nat) : State :=
  if k < (if scalar then 8192 else 43691) then
    match decodeWord (cellAt s ((if scalar then 0x58000000 else 0x50000000) + 6 * k)) with
    | .ue => repair s scalar k 0xFF
    | .ace => repair s scalar k 0xFF
    | _ => s
  else s

/-! Cisterns, owners, functions, the debug commands. -/

/-- A power transition ends; in the real READY depths 2 and 3 the cisterns are then held at RETENTION (R182, R559, R607). -/
def powerEnds (s : State) (n : Nat) : State :=
  let t := completePower s n
  if (mode t = 4 ∨ mode t = 5) ∧ ¬ t.modes.emulated then retainCisterns t else t

/-- The register that holds the OWNER of a resource of chapter 13. -/
def ownedRg : Owned → Rg
  | .line n => .evrLine n
  | .timer n => .tmrOwn n
  | .rxLane n => .rxCfg n
  | .txLane n => .txCfg n

/-- A debug command of Aftar: OP, CORE, BANK, N and SLICE of DBG_CMD (R601). -/
def debugWord (op : BitVec 3) (c : BitVec 3) (bank : BitVec 5) (n : BitVec 7) (slice : BitVec 2) : Reg24 :=
  BitVec.ofNat 24 (op.toNat + c.toNat * 8 + bank.toNat * 64 + n.toNat * 2048 + slice.toNat * 2 ^ 18)

/-- The mailbox command word with its direction in bit 0: 0 read, 1 write (R545). -/
def mailboxWord (v : Reg24) (write : Bool) : Reg24 := setBit v 0 write

/-! The rows. -/

/-- Core `c` meets a word: one that spells no instruction (a reserved opcode, a non-zero unused field, an unlisted value, all zeros) raises ILLEGAL,
as its decoding does, or CHAIN_BROKEN where a chain is open and its opcode is no stream instruction's (R219, R222, R265); one that spells an
instruction does nothing here, its own row being that instruction (R317, R421). -/
def meetWord (c : Core) (w : W48) (s : State) : State :=
  if (Instr.ofWord c w).isSome then s
  else
    let opc := (bits w 40 8).toNat
    let stream := (0xC0 ≤ opc ∧ opc < 0xC8) ∨ (0xE0 ≤ opc ∧ opc < 0xF0)
    runCore c { legal := false, kind := if stream then .stream else .plain } (fun _ => .stall) s

/-- Entry of an exception of causes 0x01 to 0x0B by a core that runs (R419, R424), or what it raises at a word (R317). -/
def execExceptionEntry (c : Core) (r : Raised) (s : State) : Answer :=
  live s (match r with
    | .exc e => if coreRuns s c ∧ 1 ≤ e.cause.toNat ∧ e.cause.toNat ≤ 11 then trapTo s s c e else s
    | .word w => meetWord c w s)

/-- Entry of an interrupt of the lifeline core (R398). -/
def execInterruptEntry (s : State) : Answer := live s (takeInterrupt s)

/-- The belay limit of the lifeline core (R400). -/
def execBelayLimit (s : State) : Answer := live s (Sys2Proof.Machine.belayLimit s 4)

/-- The belay limit of a scalar core (R437). -/
def execCapstanBelayLimit (c : Fin 4) (s : State) : Answer := live s (Sys2Proof.Machine.belayLimit s c)

/-- A switch (R445 to R447). -/
def execCapstanSwitch (c : Fin 4) (s : State) : Answer := live s (switchCore s c)

/-- A comparison mismatch (R403). -/
def execLockstepMismatch (s : State) : Answer := live s (Sys2Proof.Machine.lockstepMismatch s)

/-- The end of a roll-back (R403). -/
def execRollbackComplete (ok : Bool) (s : State) : Answer := live s (rollbackEnds s ok)

/-- A write of LL_CTL that asks EN = 1 (R407). -/
def execLlEnable (w : Writer) (v : BitVec 24) (s : State) : Answer := putReg w .llCtl (setBit v 0 true) s

/-- The end of enabling (R407). -/
def execLlEnableComplete (ok : Bool) (s : State) : Answer := live s (settled (enableEnds s ok))

/-- A write of LL_CTL that asks EN = 0 (R408). -/
def execLlDisable (w : Writer) (v : BitVec 24) (s : State) : Answer := putReg w .llCtl (setBit v 0 false) s

/-- The end of disabling (R408). -/
def execLlDisableComplete (s : State) : Answer := live s (settled (disableComplete s))

/-- The dispatcher starts or resumes a splice (R227). -/
def execSpliceAccept (s : State) : Answer := live s (accept s)

/-- A splice ends (R230). -/
def execSpliceComplete (i : Fin 16) (s : State) : Answer := live s (completeOn s i)

/-- The check of the dispatcher (R228). -/
def execPreemptCheck (s : State) : Answer := live s (Sys2Proof.Machine.preemptCheck s)

/-- A preemption ends (R246). -/
def execPreemptionComplete (i : Fin 16) (s : State) : Answer := live s (completePreemption s i)

/-- A pump fails its group check (R254). -/
def execPumpFault (i : Fin 16) (s : State) : Answer := live s (Sys2Proof.Machine.pumpFault s i)

/-- A write of SPL_KILL (R257). -/
def execSplKill (w : Writer) (v : BitVec 24) (s : State) : Answer := putReg w .splKill v s

/-- The killed splices are gone (R257). -/
def execSplKillComplete (s : State) : Answer := live s (completeKill s)

/-- A read by a crossbar master (R32, R140). -/
def execMemoryRead (m : Master) (a : BitVec 40) (s : State) : Answer := live s (masterRequest s m a.toNat none)

/-- A write by a crossbar master (R32, R55). -/
def execMemoryWrite (m : Master) (a : BitVec 40) (mask : BitVec 6) (data : BitVec 72) (s : State) : Answer :=
  live s (masterRequest s m a.toNat (some (mask, data)))

/-- A waiting request gets a tag (R97). -/
def execTagWaitRelease (n : Fin 128) (s : State) : Answer := live s (settled (releaseTag s n))

/-- A read returns (R98). -/
def execReadDataReturn (n : Fin 128) (k : Nat) (lat : BitVec 12) (s : State) : Answer := live s (serveHosts (returnRead s n k lat))

/-- Refresh spends slots of a channel: no state that the spec gives the machine changes (R84). -/
def execRefresh (_n : Fin 128) (s : State) : Answer := live s (s)

/-- A step of the scrubber (R155). -/
def execScrubStep (u : Fin 158) (s : State) : Answer := live s (Sys2Proof.Machine.scrubStep s u)

/-- A lap passes its limit (R161). -/
def execLapOverdue (u : Fin 158) (s : State) : Answer := live s (lapIsOverdue s u)

/-- The log count restarts (R166). -/
def execLogIntervalEnd (s : State) : Answer := live s ({ s with store := { s.store with logCount := 0 } })

/-- The log flush (R153, R572). -/
def execLogFlush (s : State) : Answer := live s (flushLog s)

/-- A control-store word is repaired (R473). -/
def execControlStoreRepair (scalar : Bool) (k : Nat) (s : State) : Answer := live s (repairStore s scalar k)

/-- SET_OWNER of command set `k` (R122, R124). -/
def execSetOwner (w : Writer) (k : Fin 5) (s : State) : Answer := putReg w (.ftOp k) 1 s

/-- SET_RIGHTS of command set `k` (R122, R124). -/
def execSetRights (w : Writer) (k : Fin 5) (s : State) : Answer := putReg w (.ftOp k) 2 s

/-- PIN of command set `k` (R122). -/
def execPin (w : Writer) (k : Fin 5) (s : State) : Answer := putReg w (.ftOp k) 3 s

/-- UNPIN of command set `k` (R122). -/
def execUnpin (w : Writer) (k : Fin 5) (s : State) : Answer := putReg w (.ftOp k) 4 s

/-- RETIRE of command set `k` (R122). -/
def execRetire (w : Writer) (k : Fin 5) (s : State) : Answer := putReg w (.ftOp k) 5 s

/-- READ of command set `k` (R122). -/
def execRead (w : Writer) (k : Fin 5) (s : State) : Answer := putReg w (.ftOp k) 6 s

/-- A move of a frame ends (R124). -/
def execFrameMoveComplete (k : Fin 5) (s : State) : Answer := live s (settled (completeMove s k))

/-- A write of DS_CH_CFG_n (R105). -/
def execDsChCfg (w : Writer) (n : Fin 128) (v : BitVec 24) (s : State) : Answer := putReg w (.dsChCfg n) v s

/-- A reservation becomes active (R105). -/
def execReservationActive (n : Fin 128) (s : State) : Answer := live s (activateReservation s n)

/-- A write of ECC_INJ_CTL (R167). -/
def execEccInjCtl (w : Writer) (v : BitVec 24) (s : State) : Answer := putReg w .eccInjCtl v s

/-- A write of CIS_OWNER_n (R179). -/
def execCisOwner (w : Writer) (n : Fin 16) (v : BitVec 24) (s : State) : Answer := putReg w (.cisOwner n) v s

/-- A handover ends (R179). -/
def execHandoverComplete (n : Fin 16) (s : State) : Answer := live s (settled (completeHandover s n))

/-- A write of CIS_PWR_n (R184). -/
def execCisPwr (w : Writer) (n : Fin 16) (v : BitVec 24) (s : State) : Answer := putReg w (.cisPwr n) v s

/-- A power transition ends (R182). -/
def execPowerTransitionComplete (n : Fin 16) (s : State) : Answer := live s (settled (powerEnds s n))

/-- A write of XB_CFG (R191). -/
def execXbCfg (w : Writer) (v : BitVec 24) (s : State) : Answer := putReg w .xbCfg v s

/-- The new mapping is in force (R191). -/
def execRemapComplete (s : State) : Answer := live s (settled (completeRemap s))

/-- An asserted line fires (R481). -/
def execEventFire (m : Fin 256) (s : State) : Answer := live s (Sys2Proof.Machine.eventFire s m)

/-- A guard interval ends (R483). -/
def execGuardRelease (m : Fin 256) (s : State) : Answer := live s (Sys2Proof.Machine.guardRelease s m)

/-- A write of EVR_PULSE (R485). -/
def execEvrPulse (w : Writer) (v : BitVec 24) (s : State) : Answer := putReg w .evrPulse v s

/-- A write of the register that holds an OWNER (R477). -/
def execOwnerChange (w : Writer) (r : Owned) (v : BitVec 24) (s : State) : Answer := putReg w (ownedRg r) v s

/-- A counting tick of a channel (R487). -/
def execCountingTick (n : Fin 16) (s : State) : Answer := live s (Sys2Proof.Machine.countingTick s n)

/-- A write of TMR_PER_n (R492). -/
def execPeriodWrite (w : Writer) (n : Fin 16) (v : BitVec 24) (s : State) : Answer := putReg w (.tmrPer n) v s

/-- A write of TMR_CMPk_n (R491). -/
def execCompareWrite (w : Writer) (n : Fin 16) (k : Fin 4) (v : BitVec 24) (s : State) : Answer := putReg w (.tmrCmp n k) v s

/-- A capture edge of a channel (R495). -/
def execCaptureEdge (n : Fin 16) (s : State) : Answer := live s (Sys2Proof.Machine.captureEdge s n)

/-- A frame arrives on an input lane (R500). -/
def execFrameReceive (n : Fin 16) (bits : BitVec 20) (s : State) : Answer := live s (receiveFrame s n bits)

/-- A receive timeout (R502). -/
def execReceiveTimeout (n : Fin 16) (s : State) : Answer := live s (Sys2Proof.Machine.receiveTimeout s n)

/-- A write of SMP_RXTOUT_n (R502). -/
def execSmpRxtout (w : Writer) (n : Fin 16) (v : BitVec 24) (s : State) : Answer := putReg w (.rxTout n) v s

/-- A write of SMP_TX_n (R504). -/
def execSmpTx (w : Writer) (n : Fin 16) (v : BitVec 24) (s : State) : Answer := putReg w (.tx n) v s

/-- A frame enters the serialiser (R504). -/
def execSerialiserLoad (n : Fin 16) (s : State) : Answer := live s (loadSerialiser s n)

/-- The safe frame is sent again (R506). -/
def execSafeFrameRepeat (n : Fin 16) (s : State) : Answer := live s (repeatSafe s n)

/-- A write of WD_KICK_x (R510). -/
def execWatchdogKick (w : Writer) (x : Fin 5) (v : BitVec 24) (s : State) : Answer := putReg w (.wdKick x) v s

/-- A watchdog expires (R510). -/
def execWatchdogExpire (x : Fin 5) (s : State) : Answer := live s (Sys2Proof.Machine.watchdogExpire s x)

/-- A write of CAP_TSK of slot `t` of core `c` (R442). -/
def execCapTsk (w : Writer) (c : Fin 4) (t : Fin 64) (j : Fin 3) (v : BitVec 24) (s : State) : Answer :=
  putReg w (.capTsk c t j) v s

/-- A host write to BAR0 (R522). -/
def execBar0Write (f : Fin 4) (i : Nat) (dw : Nat) (be : BitVec 4) (v : BitVec 32) (s : State) : Answer :=
  live s (hostRequest s f (.registerWrite i dw be v))

/-- A host write to the window (R524). -/
def execBar2Write (f : Fin 4) (off : Nat) (bytes : List Byte) (ep : Bool) (s : State) : Answer :=
  live s (hostRequest s f (.windowWrite off bytes ep false))

/-- A host read of the window, of the registers or of the MSI-X table (R519, R522, R525). -/
def execBar2Read (f : Fin 4) (off : HostPlace) (len : Nat) (s : State) : Answer := live s (hostRequest s f (.read off len))

/-- A link comes up (R516). -/
def execLinkTrained (p : PortEvent) (gen : BitVec 3) (width : BitVec 4) (s : State) : Answer :=
  live s (trainLink s p.port p.perstN gen width)

/-- A link goes down (R521, R632). -/
def execLinkDown (p : PortEvent) (s : State) : Answer := live s (dropLink s p.port p.perstN)

/-- A function-level reset (R521). -/
def execFunctionLevelReset (f : Fin 4) (s : State) : Answer := live s (if reachable s f then resetFunction s f else s)

/-- A vector is unmasked (R528). -/
def execMsixUnmask (f : Fin 4) (v : Fin 64) (s : State) : Answer := live s (hostRequest s f (.unmask v))

/-- A mailbox read command (R545). -/
def execMailboxRead (w : Writer) (f : Fin 4) (v : BitVec 24) (s : State) : Answer := putReg w (.odCmd f) (mailboxWord v false) s

/-- A mailbox write command (R545). -/
def execMailboxWrite (w : Writer) (f : Fin 4) (v : BitVec 24) (s : State) : Answer := putReg w (.odCmd f) (mailboxWord v true) s

/-- A USDO request (R536). -/
def execUsdoRequest (n : BitVec 7) (bus : Bool) (idx : BitVec 16) (sub : BitVec 8) (value : Option (List Byte)) (segmented : Bool) (s : State) : Answer :=
  live s (Sys2Proof.Machine.usdoRequest s n bus idx.toNat sub.toNat value segmented)

/-- An idle session is aborted (R536). -/
def execUsdoSessionTimeout (n : BitVec 7) (s : State) : Answer := live s (sessionTimeout s n)

/-- A write of 0x2001 (R551). -/
def execModeRequest (k : Client) (p : Fin 4) (v : Byte) (s : State) : Answer := live s (clientWrite s k 0x2001 (p.val + 1) [v])

/-- A write of 0x2100 (R558). -/
def execWakeLatencyBudget (k : Client) (p : Fin 4) (v : BitVec 32) (s : State) : Answer :=
  live s (clientWrite s k 0x2100 (p.val + 1) (leBytes 4 v.toNat))

/-- A write of 0x2010 or 0x2011 (R29). -/
def execPartitionLayout (k : Client) (bindings : Bool) (sub : BitVec 8) (value : List Byte) (s : State) : Answer :=
  live s (clientWrite s k (if bindings then 0x2010 else 0x2011) sub.toNat value)

/-- An NMT command (R536). -/
def execNmtStateChange (cmd : NmtCommand) (s : State) : Answer := live s (nmtCommand s cmd)

/-- NMT reset communication or reset node (R538). -/
def execNmtResetCommunication (_node : Bool) (s : State) : Answer := live s (resetCommunication s)

/-- A SYNC frame (R542). -/
def execSync (bus : Bool) (s : State) : Answer := live s (syncFrame s bus)

/-- A heartbeat is sent (R536). -/
def execHeartbeat (s : State) : Answer := live s (produceHeartbeat s)

/-- A TPDO is sent (R536). -/
def execTpdo (n : Fin 8) (s : State) : Answer := live s (sendTpdo s n)

/-- A bus enters bus-off (R535). -/
def execBusOff (bus : Bool) (s : State) : Answer := live s (setBus s bus 2)

/-- A bus recovers (R535). -/
def execBusOffRecovery (bus : Bool) (s : State) : Answer := live s (recoverBus s bus)

/-- LSS switch state global (R538). -/
def execSwitchStateGlobal (config : Bool) (s : State) : Answer := live s (switchGlobal s config)

/-- LSS switch state selective (R538). -/
def execSwitchStateSelective (id : BitVec 128) (s : State) : Answer := live s (switchSelective s id)

/-- LSS configure node-ID (R538). -/
def execConfigureNodeId (n : Byte) (s : State) : Answer := live s (configureNode s n)

/-- LSS configure bit timing (R538). -/
def execConfigureBitTiming (nominal data : BitVec 16) (s : State) : Answer := live s (configureTiming s nominal data)

/-- LSS store configuration (R538). -/
def execStoreConfiguration (s : State) : Answer := live s (storeLss s)

/-- LSS inquire identity (R538). -/
def execInquireIdentity (field : Fin 4) (s : State) : Answer := live s (inquire s field)

/-- LSS inquire node-ID (R538). -/
def execInquireNodeId (s : State) : Answer := live s (inquireNode s)

/-- LSS identify remote slave (R538). -/
def execIdentifyRemoteSlave (vendor product revLow revHigh serLow serHigh : BitVec 32) (s : State) : Answer :=
  live s (identify s vendor product revLow revHigh serLow serHigh)

/-- A step of LSS fastscan (R538). -/
def execFastscan (idn : BitVec 32) (bitChecked : Byte) (lssSub lssNext : Byte) (s : State) : Answer :=
  live s (fastscanStep s idn bitChecked lssSub lssNext)

/-- A download of 0x1F50:01 (R588). -/
def execImageDownload (k : Client) (bytes : List Byte) (s : State) : Answer := live s (clientWrite s k 0x1F50 1 bytes)

/-- A write of FW_CMD that asks CLEAR (R584). -/
def execClear (w : Writer) (s : State) : Answer := putReg w .fwCmd 1 s

/-- A write of FW_CMD that asks PROGRAM (R589). -/
def execProgram (w : Writer) (s : State) : Answer := putReg w .fwCmd 2 s

/-- A write of FW_CMD that asks ACTIVATE (R587). -/
def execActivate (w : Writer) (s : State) : Answer := putReg w .fwCmd 3 s

/-- A write of FW_CMD that asks COMMIT (R583). -/
def execCommit (w : Writer) (s : State) : Answer := putReg w .fwCmd 4 s

/-- A write of FW_CMD that asks KEYPROG (R591). -/
def execKeyprog (w : Writer) (s : State) : Answer := putReg w .fwCmd 5 s

/-- A firmware command ends (R594). -/
def execFirmwareCommandComplete (flashOk : Bool) (s : State) : Answer := live s (completeFw s flashOk)

/-- No splice runs (R555). -/
def execDrainComplete (s : State) : Answer := live s (Sys2Proof.Machine.drainComplete s)

/-- The drain limit (R555). -/
def execDrainLimit (s : State) : Answer := live s (Sys2Proof.Machine.drainLimit s)

/-- The READY depth is reached (R555). -/
def execDepthReached (s : State) : Answer := live s (Sys2Proof.Machine.depthReached s)

/-- The main domains go off (R555). -/
def execStandbySwitchOff (s : State) : Answer := live s (Sys2Proof.Machine.standbySwitchOff s)

/-- RUN is reached (R556). -/
def execWakeComplete (s : State) : Answer := live s (settled (Sys2Proof.Machine.wakeComplete s))

/-- VIN_AUX becomes valid (R554). -/
def execVinAuxValid (level : BitVec 12) (s : State) : Answer := .next (auxValid s level)

/-- VIN_AUX is lost (R566). -/
def execVinAuxLoss (s : State) : Answer := live s (auxLoss s)

/-- VIN_MAIN is in range, in OFF too (R554, R566, R635). -/
def execVinMainValid (level : BitVec 12) (recoveryN split : Bool) (s : State) : Answer :=
  .next (mainValid s level recoveryN split)

/-- VIN_MAIN is lost, in OFF too (R566, R635). -/
def execVinMainLoss (s : State) : Answer := .next (mainLoss s)

/-- A supply is measured as it leaves its range (R540, R566). -/
def execSupplyOutOfRange (main : Bool) (level : BitVec 12) (s : State) : Answer := .next (supplyLevel s main level)

/-- The lid leaves its range, in OFF too, as the rows of the lid, of RESET_N and of the clocks below (R540, R566; log 110). -/
def execLidOutOfRange (t : BitVec 12) (s : State) : Answer := .next (lidLevel s t)

/-- The lid is too hot (R566). -/
def execThermalShutdown (s : State) : Answer := .next (tooHot s)

/-- The lid has cooled (R566). -/
def execThermalReturn (t : BitVec 12) (s : State) : Answer := .next (coolAgain s t)

/-- RESET_N is low (R563). -/
def execResetNLow (s : State) : Answer := .next (resetLow s)

/-- RESET_N is high (R563). -/
def execResetNHigh (s : State) : Answer := .next (resetHigh s)

/-- BRING-UP ends (R560). -/
def execBootComplete (trained : BitVec 128) (s : State) : Answer := live s (Sys2Proof.Machine.bootComplete s trained)

/-- RECOVERY is left (R590). -/
def execRecoveryExit (recoveryN : Bool) (s : State) : Answer := live s (Sys2Proof.Machine.recoveryExit s recoveryN)

/-- The clock check (R626). -/
def execClockMonitorCheck (stopped unlocked : Bool) (s : State) : Answer := .next (clockCheck s stopped unlocked)

/-- The clocks are good again (R626). -/
def execClockRecovery (s : State) : Answer := .next (Sys2Proof.Machine.clockRecovery s)

/-- Aftar reads a word (R597). -/
def execWordRead (a : BitVec 40) (inc : Bool) (s : State) : Answer := live s (aftarAccess s 1 a 0 inc)

/-- Aftar writes a word (R597). -/
def execWordWrite (a : BitVec 40) (data : BitVec 72) (inc : Bool) (s : State) : Answer := live s (aftarAccess s 2 a data inc)

/-- Aftar reads a register (R597, R613). -/
def execRegisterRead (i : Nat) (inc : Bool) (s : State) : Answer :=
  live s (aftarAccess s 3 (BitVec.ofNat 40 i) ((0 : Reg24).setWidth 72) inc)

/-- Aftar writes a register (R597). -/
def execRegisterWrite (i : Nat) (v : BitVec 24) (inc : Bool) (s : State) : Answer :=
  live s (aftarAccess s 4 (BitVec.ofNat 40 i) ((v : Reg24).setWidth 72) inc)

/-- Aftar reads a register and clears its RC fields (R597, R613). -/
def execConsumingRegisterRead (i : Nat) (inc : Bool) (s : State) : Answer :=
  live s (aftarAccess s 5 (BitVec.ofNat 40 i) ((0 : Reg24).setWidth 72) inc)

/-- An access of Aftar ends (R597). -/
def execAftarAccessComplete (s : State) : Answer := live s (aftarComplete s)

/-- TRST_N is low (R596). -/
def execTrstNLow (s : State) : Answer := live s (resetTap s)

/-- HALT of core `n` (R601, R603). -/
def execHalt (n : BitVec 3) (s : State) : Answer := putReg .aftar .dbgCmd (debugWord 1 n 0 0 0) s

/-- A halt is taken (R603). -/
def execHaltTaken (c : Core) (s : State) : Answer := live s (Sys2Proof.Machine.haltTaken s c)

/-- RESUME of core `n` (R601). -/
def execResume (n : BitVec 3) (s : State) : Answer := putReg .aftar .dbgCmd (debugWord 2 n 0 0 0) s

/-- STEP of core `n` (R604). -/
def execStep (n : BitVec 3) (s : State) : Answer := putReg .aftar .dbgCmd (debugWord 3 n 0 0 0) s

/-- REGRD (R601). -/
def execRegrd (n : BitVec 3) (bank : BitVec 5) (r : BitVec 7) (slice : BitVec 2) (s : State) : Answer :=
  putReg .aftar .dbgCmd (debugWord 4 n bank r slice) s

/-- REGWR (R601). -/
def execRegwr (n : BitVec 3) (bank : BitVec 5) (r : BitVec 7) (slice : BitVec 2) (s : State) : Answer :=
  putReg .aftar .dbgCmd (debugWord 5 n bank r slice) s

/-- RELEASE of core `n` (R606). -/
def execRelease (n : BitVec 3) (s : State) : Answer := putReg .aftar .dbgCmd (debugWord 6 n 0 0 0) s

/-- A write of DBG_FREEZE (R608). -/
def execDbgFreeze (w : Writer) (v : BitVec 24) (s : State) : Answer := putReg w .dbgFreeze v s

/-- A write of DBG_STIM (R611). -/
def execStimulus (w : Writer) (world : Bool) (k : Fin 32) (v : BitVec 24) (s : State) : Answer :=
  putReg w (.dbgStim (cond world 1 0) k) v s

/-- The sync packet (R610). -/
def execSyncPacket (s : State) : Answer := live s (syncPacket' s)

/-- A write of a control register (R16, R21). -/
def execControlRegisterWrite (w : Writer) (i : Nat) (v : BitVec 24) (s : State) : Answer := live s (regWrite s w i v)

/-- PIN, UNPIN, RETIRE or READ ends (R128). -/
def execFrameCommandComplete (k : Fin 5) (s : State) : Answer := live s (completeFrameCommand s k)

/-- A supply is measured as it comes back into its range (R540, R566). -/
def execSupplyBackInRange (main : Bool) (level : BitVec 12) (s : State) : Answer := .next (supplyLevel s main level)

/-- The lid is back in its range (R540). -/
def execLidBackInRange (t : BitVec 12) (s : State) : Answer := .next (lidLevel s t)

/-- A configuration write (R520). -/
def execConfigurationRequest (f : Fin 4) (item : ConfigItem) (write : Bool) (v : BitVec 32) (s : State) : Answer :=
  live s (hostRequest s f (.config item write v))

/-- A write of the MSI-X table (R528). -/
def execMsixTableWrite (f : Fin 4) (v : Fin 64) (mask : Bool) (addr : BitVec 64) (data : BitVec 32) (s : State) : Answer :=
  live s (hostRequest s f (.tableWrite v { masked := mask, addr, data }))

/-- A heartbeat arrives (R536). -/
def execHeartbeatReceived (n : BitVec 7) (s : State) : Answer := live s (heardHeartbeat s n)

/-- A monitored node is silent (R536). -/
def execHeartbeatConsumerTimeout (n : BitVec 7) (s : State) : Answer := live s (heartbeatLost s n)

/-- A bus passes between error active and error passive (R547). -/
def execErrorPassive (bus passive : Bool) (s : State) : Answer := live s (Sys2Proof.Machine.errorPassive s bus passive)

/-- A trace packet leaves (R610). -/
def execTracePacketSent (s : State) : Answer := live s (sendTrace s)

end Sys2Proof.Machine
end

