-- ==== Sys2Proof/Machine/Scalar.lean ====
section
/-! DEFINITION. The scalar integer instructions (R318 to R321), loads and stores (R323, R335), stack pointers (R324), branches and
calls (R325, R326) and hardware loops (R390, R391). -/

namespace Sys2Proof.Machine

/-- An instruction whose effect is one value for Gd. -/
def runAlu (c : Core) (i : Instr) (cost : Option Nat) (d : Reg) (f : State → W48) (s : State) : Host.Outcome State Fault Refusal :=
  runIns c { legal := i.wellFormed, cost := fun _ => cost } (fun t => .done (setG t c d (f t))) s

/-! Integer operations (R318 to R320). -/

/-- ADD: Ga + Gb modulo 2^48 (R318). -/
def execAdd (c : Core) (d a b : Reg) (s : State) : Host.Outcome State Fault Refusal :=
  runAlu c (.add c d a b) (some 1) d (fun t => getG t c a + getG t c b) s

/-- SUB: Ga − Gb modulo 2^48 (R318). -/
def execSub (c : Core) (d a b : Reg) (s : State) : Host.Outcome State Fault Refusal :=
  runAlu c (.sub c d a b) (some 1) d (fun t => getG t c a - getG t c b) s

/-- AND: Ga AND Gb (R318). -/
def execAnd (c : Core) (d a b : Reg) (s : State) : Host.Outcome State Fault Refusal :=
  runAlu c (.and c d a b) (some 1) d (fun t => getG t c a &&& getG t c b) s

/-- OR: Ga OR Gb (R318). -/
def execOr (c : Core) (d a b : Reg) (s : State) : Host.Outcome State Fault Refusal :=
  runAlu c (.or c d a b) (some 1) d (fun t => getG t c a ||| getG t c b) s

/-- XOR: Ga XOR Gb (R318). -/
def execXor (c : Core) (d a b : Reg) (s : State) : Host.Outcome State Fault Refusal :=
  runAlu c (.xor c d a b) (some 1) d (fun t => getG t c a ^^^ getG t c b) s

/-- ANDN: Ga AND NOT Gb (R318). -/
def execAndn (c : Core) (d a b : Reg) (s : State) : Host.Outcome State Fault Refusal :=
  runAlu c (.andn c d a b) (some 1) d (fun t => getG t c a &&& ~~~(getG t c b)) s

/-- SHL: Ga shifted left by Gb (R318, R319). -/
def execShl (c : Core) (d a b : Reg) (s : State) : Host.Outcome State Fault Refusal :=
  runAlu c (.shl c d a b) (some 1) d (fun t => BitVec.ofNat 48 (shiftLeft 48 (getG t c a).toNat (getG t c b).toNat)) s

/-- SHR: Ga shifted right by Gb, zero fill (R318, R319). -/
def execShr (c : Core) (d a b : Reg) (s : State) : Host.Outcome State Fault Refusal :=
  runAlu c (.shr c d a b) (some 1) d (fun t => BitVec.ofNat 48 (shiftRight 48 (getG t c a).toNat (getG t c b).toNat)) s

/-- SAR: Ga shifted right by Gb, sign fill (R318, R319). -/
def execSar (c : Core) (d a b : Reg) (s : State) : Host.Outcome State Fault Refusal :=
  runAlu c (.sar c d a b) (some 1) d (fun t => BitVec.ofNat 48 (shiftArith 48 (getG t c a).toNat (getG t c b).toNat)) s

/-- MIN: the smaller, signed (R318). -/
def execMin (c : Core) (d a b : Reg) (s : State) : Host.Outcome State Fault Refusal :=
  runAlu c (.min c d a b) (some 1) d (fun t => if (getG t c a).slt (getG t c b) then getG t c a else getG t c b) s

/-- MINU: the smaller, unsigned (R318). -/
def execMinu (c : Core) (d a b : Reg) (s : State) : Host.Outcome State Fault Refusal :=
  runAlu c (.minu c d a b) (some 1) d (fun t => if getG t c a < getG t c b then getG t c a else getG t c b) s

/-- MAX: the larger, signed (R318). -/
def execMax (c : Core) (d a b : Reg) (s : State) : Host.Outcome State Fault Refusal :=
  runAlu c (.max c d a b) (some 1) d (fun t => if (getG t c a).slt (getG t c b) then getG t c b else getG t c a) s

/-- MAXU: the larger, unsigned (R318). -/
def execMaxu (c : Core) (d a b : Reg) (s : State) : Host.Outcome State Fault Refusal :=
  runAlu c (.maxu c d a b) (some 1) d (fun t => if getG t c a < getG t c b then getG t c b else getG t c a) s

/-- SEL: Gb if Ga ≠ 0, else Gc (R318). -/
def execSel (c : Core) (d a b e : Reg) (s : State) : Host.Outcome State Fault Refusal :=
  runAlu c (.sel c d a b e) (some 1) d (fun t => if getG t c a ≠ 0 then getG t c b else getG t c e) s

/-- CLZ: leading zero bits (R318). -/
def execClz (c : Core) (d a : Reg) (s : State) : Host.Outcome State Fault Refusal :=
  runAlu c (.clz c d a) (some 1) d (fun t => BitVec.ofNat 48 (leadingZeros (getG t c a) 48)) s

/-- POPC: set bits (R318). -/
def execPopc (c : Core) (d a : Reg) (s : State) : Host.Outcome State Fault Refusal :=
  runAlu c (.popc c d a) (some 1) d (fun t => BitVec.ofNat 48 (popCount (getG t c a))) s

/-- CMPEQ: Ga = Gb (R311, R318). -/
def execCmpeq (c : Core) (d a b : Reg) (s : State) : Host.Outcome State Fault Refusal :=
  runAlu c (.cmpeq c d a b) (some 1) d (fun t => truth (getG t c a == getG t c b)) s

/-- CMPNE: Ga ≠ Gb (R311, R318). -/
def execCmpne (c : Core) (d a b : Reg) (s : State) : Host.Outcome State Fault Refusal :=
  runAlu c (.cmpne c d a b) (some 1) d (fun t => truth (getG t c a != getG t c b)) s

/-- CMPLT: Ga < Gb, signed (R318). -/
def execCmplt (c : Core) (d a b : Reg) (s : State) : Host.Outcome State Fault Refusal :=
  runAlu c (.cmplt c d a b) (some 1) d (fun t => truth ((getG t c a).slt (getG t c b))) s

/-- CMPLTU: Ga < Gb, unsigned (R318). -/
def execCmpltu (c : Core) (d a b : Reg) (s : State) : Host.Outcome State Fault Refusal :=
  runAlu c (.cmpltu c d a b) (some 1) d (fun t => truth (decide (getG t c a < getG t c b))) s

/-- CMPLE: Ga ≤ Gb, signed (R318). -/
def execCmple (c : Core) (d a b : Reg) (s : State) : Host.Outcome State Fault Refusal :=
  runAlu c (.cmple c d a b) (some 1) d (fun t => truth ((getG t c a).sle (getG t c b))) s

/-- CMPLEU: Ga ≤ Gb, unsigned (R318). -/
def execCmpleu (c : Core) (d a b : Reg) (s : State) : Host.Outcome State Fault Refusal :=
  runAlu c (.cmpleu c d a b) (some 1) d (fun t => truth (decide (getG t c a ≤ getG t c b))) s

/-- ADDC: Ga + Gb + Gc[0] modulo 2^48 (R320). -/
def execAddc (c : Core) (d a b e : Reg) (s : State) : Host.Outcome State Fault Refusal :=
  runAlu c (.addc c d a b e) (some 1) d (fun t => getG t c a + getG t c b + ((getG t c e) &&& 1)) s

/-- ADDCO: bit 48 of Ga + Gb + Gc[0] (R320). -/
def execAddco (c : Core) (d a b e : Reg) (s : State) : Host.Outcome State Fault Refusal :=
  runAlu c (.addco c d a b e) (some 1) d (fun t => truth (decide (2 ^ 48 ≤ (getG t c a).toNat + (getG t c b).toNat + (((getG t c e) &&& 1)).toNat))) s

/-- SUBB: Ga − Gb − Gc[0] modulo 2^48 (R320). -/
def execSubb (c : Core) (d a b e : Reg) (s : State) : Host.Outcome State Fault Refusal :=
  runAlu c (.subb c d a b e) (some 1) d (fun t => getG t c a - getG t c b - ((getG t c e) &&& 1)) s

/-- SUBBO: 1 if Ga < Gb + Gc[0], unsigned (R320). -/
def execSubbo (c : Core) (d a b e : Reg) (s : State) : Host.Outcome State Fault Refusal :=
  runAlu c (.subbo c d a b e) (some 1) d (fun t => truth (decide ((getG t c a).toNat < (getG t c b).toNat + (((getG t c e) &&& 1)).toNat))) s

/-- MUL: the low 48 bits of the product (R320). -/
def execMul (c : Core) (d a b : Reg) (s : State) : Host.Outcome State Fault Refusal :=
  runAlu c (.mul c d a b) (some 2) d (fun t => getG t c a * getG t c b) s

/-- MULW: the 96-bit signed product in a pair (R310, R320). -/
def execMulw (c : Core) (d a b : Reg) (s : State) : Host.Outcome State Fault Refusal :=
  runIns c { legal := (Instr.mulw c d a b).wellFormed, cost := fun _ => some 3 }
    (fun t => .done (setPair t c d ((getG t c a).signExtend 96 * (getG t c b).signExtend 96))) s

/-- MULWU: the 96-bit unsigned product in a pair (R310, R320). -/
def execMulwu (c : Core) (d a b : Reg) (s : State) : Host.Outcome State Fault Refusal :=
  runIns c { legal := (Instr.mulwu c d a b).wellFormed, cost := fun _ => some 3 }
    (fun t => .done (setPair t c d ((getG t c a).setWidth 96 * (getG t c b).setWidth 96))) s

/-- A divide or remainder: its result, with DZ in STW.FLAGS for a zero divisor (R280, R320); its count is not fixed (R343). -/
def runDiv (c : Core) (i : Instr) (d : Reg) (f : State → Out) (s : State) : Host.Outcome State Fault Refusal :=
  runIns c { legal := i.wellFormed, cost := fun _ => none }
    (fun t => .done (setG (orStw t c (f t).fl false) c d (BitVec.ofNat 48 (f t).v))) s

/-- DIV: the signed quotient (R280, R320). -/
def execDiv (c : Core) (d a b : Reg) (s : State) : Host.Outcome State Fault Refusal :=
  runDiv c (.div c d a b) d (fun t => divInt 48 true false (getG t c a).toNat (getG t c b).toNat) s

/-- DIVU: the unsigned quotient (R280, R320). -/
def execDivu (c : Core) (d a b : Reg) (s : State) : Host.Outcome State Fault Refusal :=
  runDiv c (.divu c d a b) d (fun t => divInt 48 false false (getG t c a).toNat (getG t c b).toNat) s

/-- REM: the signed remainder (R280, R320). -/
def execRem (c : Core) (d a b : Reg) (s : State) : Host.Outcome State Fault Refusal :=
  runDiv c (.rem c d a b) d (fun t => remInt 48 true (getG t c a).toNat (getG t c b).toNat) s

/-- REMU: the unsigned remainder (R280, R320). -/
def execRemu (c : Core) (d a b : Reg) (s : State) : Host.Outcome State Fault Refusal :=
  runDiv c (.remu c d a b) d (fun t => remInt 48 false (getG t c a).toNat (getG t c b).toNat) s

/-! Immediates (R321). -/

/-- ADDI: Ga + IMM20 (R321). -/
def execAddi (c : Core) (d a : Reg) (imm : BitVec 20) (s : State) : Host.Outcome State Fault Refusal :=
  runAlu c (.addi c d a imm) (some 1) d (fun t => getG t c a + simm imm) s

/-- ANDI: Ga AND IMM20 (R321). -/
def execAndi (c : Core) (d a : Reg) (imm : BitVec 20) (s : State) : Host.Outcome State Fault Refusal :=
  runAlu c (.andi c d a imm) (some 1) d (fun t => getG t c a &&& simm imm) s

/-- ORI: Ga OR IMM20 (R321). -/
def execOri (c : Core) (d a : Reg) (imm : BitVec 20) (s : State) : Host.Outcome State Fault Refusal :=
  runAlu c (.ori c d a imm) (some 1) d (fun t => getG t c a ||| simm imm) s

/-- XORI: Ga XOR IMM20 (R321). -/
def execXori (c : Core) (d a : Reg) (imm : BitVec 20) (s : State) : Host.Outcome State Fault Refusal :=
  runAlu c (.xori c d a imm) (some 1) d (fun t => getG t c a ^^^ simm imm) s

/-- SHLI: as SHL with count IMM20[5:0] (R321). -/
def execShli (c : Core) (d a : Reg) (imm : BitVec 20) (s : State) : Host.Outcome State Fault Refusal :=
  runAlu c (.shli c d a imm) (some 1) d (fun t => BitVec.ofNat 48 (shiftLeft 48 (getG t c a).toNat (imm.toNat % 64))) s

/-- SHRI: as SHR with count IMM20[5:0] (R321). -/
def execShri (c : Core) (d a : Reg) (imm : BitVec 20) (s : State) : Host.Outcome State Fault Refusal :=
  runAlu c (.shri c d a imm) (some 1) d (fun t => BitVec.ofNat 48 (shiftRight 48 (getG t c a).toNat (imm.toNat % 64))) s

/-- SARI: as SAR with count IMM20[5:0] (R321). -/
def execSari (c : Core) (d a : Reg) (imm : BitVec 20) (s : State) : Host.Outcome State Fault Refusal :=
  runAlu c (.sari c d a imm) (some 1) d (fun t => BitVec.ofNat 48 (shiftArith 48 (getG t c a).toNat (imm.toNat % 64))) s

/-- CMPEQI: Ga = IMM20 (R321). -/
def execCmpeqi (c : Core) (d a : Reg) (imm : BitVec 20) (s : State) : Host.Outcome State Fault Refusal :=
  runAlu c (.cmpeqi c d a imm) (some 1) d (fun t => truth (getG t c a == simm imm)) s

/-- CMPLTI: Ga < IMM20, signed (R321). -/
def execCmplti (c : Core) (d a : Reg) (imm : BitVec 20) (s : State) : Host.Outcome State Fault Refusal :=
  runAlu c (.cmplti c d a imm) (some 1) d (fun t => truth ((getG t c a).slt (simm imm))) s

/-- CMPLTUI: Ga < IMM20 sign-extended, unsigned (R321). -/
def execCmpltui (c : Core) (d a : Reg) (imm : BitVec 20) (s : State) : Host.Outcome State Fault Refusal :=
  runAlu c (.cmpltui c d a imm) (some 1) d (fun t => truth (decide (getG t c a < simm imm))) s

/-- LI: IMM30 sign-extended (R321). -/
def execLi (c : Core) (d : Reg) (imm : BitVec 30) (s : State) : Host.Outcome State Fault Refusal :=
  runAlu c (.li c d imm) (some 1) d (fun _ => simm imm) s

/-- LIH: Gd[47:30] = IMM30[17:0], Gd[29:0] kept (R321). -/
def execLih (c : Core) (d : Reg) (imm : BitVec 30) (s : State) : Host.Outcome State Fault Refusal :=
  runAlu c (.lih c d imm) (some 1) d (fun t => bits imm 0 18 ++ bits (getG t c d) 0 30) s

/-! Loads and stores (R322, R323). -/

/-- A load of `n` plies into what `put` writes; `fills` when it names an F register (R427). -/
def runLoad (c : Core) (i : Instr) (fills : Bool) (a : Reg) (imm : BitVec 20) (n : Nat) (put : State → Nat → State) (s : State) :
    Host.Outcome State Fault Refusal :=
  runIns c { legal := i.wellFormed, fills, cost := fun t => accessCost t (effAddr t c a imm).toNat n false }
    (fun t => (loadAligned t c (effAddr t c a imm).toNat n).andDone (fun v u => put u v)) s

/-- A store of `n` plies of the value that `get` reads; `fills` when it names an F register (R427). -/
def runStore (c : Core) (i : Instr) (fills : Bool) (a : Reg) (imm : BitVec 20) (n : Nat) (get : State → Nat) (s : State) :
    Host.Outcome State Fault Refusal :=
  runIns c { legal := i.wellFormed, fills, cost := fun t => accessCost t (effAddr t c a imm).toNat n true }
    (fun t => (storeAligned t c (effAddr t c a imm).toNat n (get t)).andDone (fun _ u => u)) s

/-- LDP: one ply, zero-extended (R323). -/
def execLdp (c : Core) (d a : Reg) (imm : BitVec 20) (s : State) : Host.Outcome State Fault Refusal :=
  runLoad c (.ldp c d a imm) false a imm 1 (fun t v => setG t c d (BitVec.ofNat 48 v)) s

/-- LDPS: one ply, sign-extended (R323). -/
def execLdps (c : Core) (d a : Reg) (imm : BitVec 20) (s : State) : Host.Outcome State Fault Refusal :=
  runLoad c (.ldps c d a imm) false a imm 1 (fun t v => setG t c d ((BitVec.ofNat 12 v).signExtend 48)) s

/-- LDD: two plies, zero-extended (R323). -/
def execLdd (c : Core) (d a : Reg) (imm : BitVec 20) (s : State) : Host.Outcome State Fault Refusal :=
  runLoad c (.ldd c d a imm) false a imm 2 (fun t v => setG t c d (BitVec.ofNat 48 v)) s

/-- LDDS: two plies, sign-extended (R323). -/
def execLdds (c : Core) (d a : Reg) (imm : BitVec 20) (s : State) : Host.Outcome State Fault Refusal :=
  runLoad c (.ldds c d a imm) false a imm 2 (fun t v => setG t c d ((BitVec.ofNat 24 v).signExtend 48)) s

/-- An upset of a line that stands in a first-level cache of core `c`: one of its data bits is inverted (R149). -/
def upsetLine (s : State) (c : Nat) (u : Option LineUpset) : State :=
  match u with
  | none => s
  | some x =>
    let k := l1Key c x.fetch x.set
    let l := (s.store.l1.get k []).map (fun l => if l.way = x.way.val then l.upset x.bit.val else l)
    { s with store := { s.store with l1 := s.store.l1.put k l [] } }

/-- LDQ: four plies (R323), after the upset of a line that its fetch or its load may read (R149). -/
def execLdq (c : Core) (d a : Reg) (imm : BitVec 20) (upset : Option LineUpset) (s : State) : Host.Outcome State Fault Refusal :=
  runLoad c (.ldq c d a imm upset) false a imm 4 (fun t v => setG t c d (BitVec.ofNat 48 v))
    (if coreRuns s c then upsetLine s c upset else s)

/-- LDWP: a word into a pair (R310, R323). -/
def execLdwp (c : Core) (d a : Reg) (imm : BitVec 20) (s : State) : Host.Outcome State Fault Refusal :=
  runLoad c (.ldwp c d a imm) false a imm 6 (fun t v => setPair t c d (BitVec.ofNat 96 v)) s

/-- LDF24: an F24 value, boxed (R67, R323). -/
def execLdf24 (c : Core) (d a : Reg) (imm : BitVec 20) (s : State) : Host.Outcome State Fault Refusal :=
  runLoad c (.ldf24 c d a imm) true a imm 2 (fun t v => setFr t c d (boxed v)) s

/-- LDF48: an F48 value (R323). -/
def execLdf48 (c : Core) (d a : Reg) (imm : BitVec 20) (s : State) : Host.Outcome State Fault Refusal :=
  runLoad c (.ldf48 c d a imm) true a imm 4 (fun t v => setFr t c d (BitVec.ofNat 48 v)) s

/-- STP: Gb[11:0] (R323). -/
def execStp (c : Core) (a b : Reg) (imm : BitVec 20) (s : State) : Host.Outcome State Fault Refusal :=
  runStore c (.stp c a b imm) false a imm 1 (fun t => (getG t c b).toNat % 2 ^ 12) s

/-- STD: Gb[23:0] (R323). -/
def execStd (c : Core) (a b : Reg) (imm : BitVec 20) (s : State) : Host.Outcome State Fault Refusal :=
  runStore c (.std c a b imm) false a imm 2 (fun t => (getG t c b).toNat % 2 ^ 24) s

/-- STQ: Gb (R323). -/
def execStq (c : Core) (a b : Reg) (imm : BitVec 20) (s : State) : Host.Outcome State Fault Refusal :=
  runStore c (.stq c a b imm) false a imm 4 (fun t => (getG t c b).toNat) s

/-- STWP: a pair as a word (R310, R323). -/
def execStwp (c : Core) (a b : Reg) (imm : BitVec 20) (s : State) : Host.Outcome State Fault Refusal :=
  runStore c (.stwp c a b imm) false a imm 6 (fun t => (getPair t c b).toNat % 2 ^ 72) s

/-- STF24: Fb[23:0] (R67, R323). -/
def execStf24 (c : Core) (a b : Reg) (imm : BitVec 20) (s : State) : Host.Outcome State Fault Refusal :=
  runStore c (.stf24 c a b imm) true a imm 2 (fun t => (getFr t c b).toNat % 2 ^ 24) s

/-- STF48: Fb (R323). -/
def execStf48 (c : Core) (a b : Reg) (imm : BitVec 20) (s : State) : Host.Outcome State Fault Refusal :=
  runStore c (.stf48 c a b imm) true a imm 4 (fun t => (getFr t c b).toNat) s

/-- LDL: four plies, and the reservation on their word (R335, R336). -/
def execLdl (c : Core) (d a : Reg) (imm : BitVec 20) (s : State) : Host.Outcome State Fault Refusal :=
  runIns c { legal := (Instr.ldl c d a imm).wellFormed, cost := fun t => accessCost t (effAddr t c a imm).toNat 4 false }
    (fun t =>
      let x := (effAddr t c a imm).toNat
      if linkAligned x = false then .trap (alignExc x) t
      else if reservable x = false then .trap (accessExc x 0) (countFailure t)
      else (coreLoad t c x 4).andDone (fun v u =>
        setG (setCore u c { coreOf u c with reservation := some (wordBase x) }) c d (BitVec.ofNat 48 v))) s

/-- STC: four plies are stored while the reservation is set on their word, Gd telling whether; the reservation is cleared (R335). Without it
nothing is stored, and nothing is checked (DEDUCED, log 175). -/
def execStc (c : Core) (d a b : Reg) (imm : BitVec 20) (s : State) : Host.Outcome State Fault Refusal :=
  runIns c { legal := (Instr.stc c d a b imm).wellFormed, cost := fun t => accessCost t (effAddr t c a imm).toNat 4 true }
    (fun t =>
      let x := (effAddr t c a imm).toNat
      let free := fun (u : State) => setCore u c { coreOf u c with reservation := none }
      if linkAligned x = false then .trap (alignExc x) t
      else if reservable x = false then .trap (accessExc x 2) (countFailure t)
      else if waitsFor t c x 4 .write then .stall
      else if (coreOf t c).reservation = some (wordBase x) then
        (coreStore t c x 4 (getG t c b).toNat).andDone (fun _ u => setG (free u) c d 1)
      else .done (setG (free t) c d 0)) s

/-! Stack pointers (R324). -/

/-- PUSH: DSP falls by 4 and Ga is stored there (R324). -/
def execPush (c : Core) (a : Reg) (s : State) : Host.Outcome State Fault Refusal :=
  runIns c { legal := (Instr.push c a).wellFormed, cost := fun t => accessCost t ((ctxOf t c).dsp - 4).toNat 4 true }
    (fun t =>
      let p := (ctxOf t c).dsp - 4
      (storeAligned t c p.toNat 4 (getG t c a).toNat).andDone (fun _ u => setCtx u c ((ctxOf u c).setDsp p))) s

/-- POP: Gd is loaded from DSP, which rises by 4 (R324). -/
def execPop (c : Core) (d : Reg) (s : State) : Host.Outcome State Fault Refusal :=
  runIns c { legal := (Instr.pop c d).wellFormed, cost := fun t => accessCost t (ctxOf t c).dsp.toNat 4 false }
    (fun t =>
      let p := (ctxOf t c).dsp
      (loadAligned t c p.toNat 4).andDone (fun v u => setG (setCtx u c ((ctxOf u c).setDsp (p + 4))) c d (BitVec.ofNat 48 v))) s

/-- The stack pointer that a selector names: DSP, RSP, SSP (R324). -/
def stackPointer (x : Ctx) (p : BitVec 2) : Addr := if p = 0 then x.dsp else if p = 1 then x.rsp else x.ssp

/-- GETSP: a stack pointer into Gd (R324). -/
def execGetsp (c : Core) (d : Reg) (p : BitVec 2) (s : State) : Host.Outcome State Fault Refusal :=
  runAlu c (.getsp c d p) (some 1) d (fun t => (stackPointer (ctxOf t c) p).setWidth 48) s

/-- SETSP: a stack pointer from Ga; SSP at safety supervisor only (R324). -/
def execSetsp (c : Core) (a : Reg) (p : BitVec 2) (s : State) : Host.Outcome State Fault Refusal :=
  runIns c { legal := (Instr.setsp c a p).wellFormed }
    (fun t =>
      let x := ctxOf t c
      let v : Addr := bits (getG t c a) 0 40
      if p = 2 ∧ ¬ (x.safety ∧ x.sup) then .trap privilege t
      else .done (setCtx t c (if p = 0 then x.setDsp v else if p = 1 then x.setRsp v else { x with ssp := v }))) s

/-! Branches and calls (R325, R326, R386). -/

/-- The target of a format-J branch (R326). -/
def target (s : State) (c : Nat) (imm : BitVec 30) : Addr := pcOf s c + 4 * imm.signExtend 40

/-- A branch whose target, when taken, `f` gives. -/
def runBranch (c : Core) (i : Instr) (f : State → Option Addr) (s : State) : Host.Outcome State Fault Refusal :=
  runIns c { legal := i.wellFormed, kind := .branch } (fun t => .branch t (f t)) s

/-- BZ: branch if Ga = 0 (R326). -/
def execBz (c : Core) (a : Reg) (imm : BitVec 30) (s : State) : Host.Outcome State Fault Refusal :=
  runBranch c (.bz c a imm) (fun t => if getG t c a = 0 then some (target t c imm) else none) s

/-- BNZ: branch if Ga ≠ 0 (R326). -/
def execBnz (c : Core) (a : Reg) (imm : BitVec 30) (s : State) : Host.Outcome State Fault Refusal :=
  runBranch c (.bnz c a imm) (fun t => if getG t c a = 0 then none else some (target t c imm)) s

/-- JMP: branch (R326). -/
def execJmp (c : Core) (imm : BitVec 30) (s : State) : Host.Outcome State Fault Refusal :=
  runBranch c (.jmp c imm) (fun t => some (target t c imm)) s

/-- JR: branch to Ga[39:0]; ALIGN when Ga[1:0] is not zero (R326). -/
def execJr (c : Core) (a : Reg) (s : State) : Host.Outcome State Fault Refusal :=
  runIns c { legal := (Instr.jr c a).wellFormed, kind := .branch }
    (fun t =>
      let v : Addr := bits (getG t c a) 0 40
      if bits v 0 2 = (0 : BitVec 2) then .branch t (some v) else .trap { alignExc v.toNat with detail := 1 } t) s

/-- The return word of a call: the instruction after it, past the delay slot of the lifeline core (R325, R386). -/
def returnAddr (s : State) (c : Core) : Addr := pcOf s c + (if c.val = 4 then 8 else 4)

/-- The count of a call or return: 1 and that of its return-stack word (R384). -/
def callCost (s : State) (c : Core) (write : Bool) : Option Nat :=
  (accessCost s ((ctxOf s c).rsp - (if write then 6 else 0)).toNat 6 write).map (· + 1)

/-- A call of `v` (R325). -/
def callTo (s : State) (c : Core) (v : Addr) : Res :=
  match pushReturn s c (returnAddr s c) with
  | .ok _ t => .branch t (some v)
  | .fault e t => .trap e t
  | .held => .stall

/-- CALL: the return word on both stacks, then the branch (R325, R326). -/
def execCall (c : Core) (imm : BitVec 30) (s : State) : Host.Outcome State Fault Refusal :=
  runIns c { legal := (Instr.call c imm).wellFormed, kind := .branch, cost := fun t => callCost t c true }
    (fun t => callTo t c (target t c imm)) s

/-- CALLR: a call of Ga[39:0] (R325, R326). -/
def execCallr (c : Core) (a : Reg) (s : State) : Host.Outcome State Fault Refusal :=
  runIns c { legal := (Instr.callr c a).wellFormed, kind := .branch, cost := fun t => callCost t c true }
    (fun t =>
      let v : Addr := bits (getG t c a) 0 40
      if bits v 0 2 = (0 : BitVec 2) then callTo t c v else .trap { alignExc v.toNat with detail := 1 } t) s

/-- RET: return to the word that both stacks hold (R325). -/
def execRet (c : Core) (s : State) : Host.Outcome State Fault Refusal :=
  runIns c { legal := (Instr.ret c).wellFormed, kind := .branch, cost := fun t => callCost t c false }
    (fun t => match popReturn t c with
      | .ok v u => .branch u (some v)
      | .fault e u => .trap e u
      | .held => .stall) s

/-! Hardware loops (R390, R391). -/

/-- LOOP: a level opens with count Ga[23:0] over the k + 1 instructions that follow; a count of 0 skips them (R391). -/
def execLoop (c : Core) (a : Reg) (k : BitVec 7) (s : State) : Host.Outcome State Fault Refusal :=
  runIns c { legal := (Instr.loop c a k).wellFormed, kind := .loopOp }
    (fun t =>
      let n : BitVec 24 := bits (getG t c a) 0 24
      let pc := pcOf t c
      let x := coreOf t c
      if 3 ≤ x.loops.length then .trap illegal t
      else if n = 0 then .away (setPc t c (pc + 8 + 4 * k.setWidth 40))
      else .away (setPc (setCore t c { x with loops := { start := pc + 4, count := n, k } :: x.loops }) c (pc + 4))) s

/-- ENDLOOP: the innermost open level is discarded (R390). -/
def execEndloop (c : Core) (s : State) : Host.Outcome State Fault Refusal :=
  runIns c { legal := (Instr.endloop c).wellFormed, kind := .loopOp }
    (fun t => .done (setCore t c { coreOf t c with loops := (coreOf t c).loops.tail })) s

/-- LCRD: the remaining count of the loop j levels out, 0 if none (R390). -/
def execLcrd (c : Core) (d : Reg) (j : BitVec 2) (s : State) : Host.Outcome State Fault Refusal :=
  runAlu c (.lcrd c d j) (some 1) d (fun t => (((coreOf t c).loops[j.toNat]?).map (fun l => l.count.setWidth 48)).getD 0) s

end Sys2Proof.Machine
end

