-- ==== Sys2Proof/Machine/Vector.lean ====
section
/-! DEFINITION. Vector instructions on a core: stream instructions and the issue of a splice (R218 to R229, R240, R264 to R288,
R339), descriptors (R305, R306), the fence and the fault record (R244, R307). What a splice computes stands in Splice. -/

namespace Sys2Proof.Machine

/-- The closing instruction must wait: an earlier store is not yet visible, the lifeline pump is not idle, the owner code's queue is full, or too
few range registers are free (R225, R229, R240, R358, R361). -/
def mustWait (s : State) (c : Core) (l : Captured) : Bool :=
  storesPending s c ||
  (if c.val = 4 then !idlePump s (llPump s) || s.splices.list.any (fun p => p.core == 4)
   else 32 ≤ (s.splices.list.filter (fun p => p.core != 4 && p.owner == coreCode s c && p.phase == .waiting)).length) ||
    decide (16 < rangesUsed s c + (l.filter (fun x => !(Desc.constant x.2))).length)

/-- A stream instruction with CH = 1 opens or extends the chain (R219, R268). -/
def extendChain (s : State) (c : Core) (x : SIns) : Res :=
  let k := ctxOf s c
  if badLink s (k.chain.map SIns.ofWord) k.chain.length x then .trap (vectorIssue 0x0C) s
  else .done (setCtx (setCore s c { coreOf s c with closing := false }) c { k with chain := k.chain ++ [x.word], chainPc := if k.chain = [] then k.pc else k.chainPc })

/-- A stream instruction with CH = 0 closes the chain: the splice is checked, and issued when nothing makes it wait (R218, R219,
R222, R223). -/
def closeChain (s : State) (c : Core) (x : SIns) : Res :=
  let ins := (ctxOf s c).chain.map SIns.ofWord ++ [x]
  let l := capture s c ins
  let reason := issueReason s (coreCode s c) ins l
  if reason ≠ 0 then .trap (vectorIssue reason) s
  else if mustWait s c l then .pause (setCore s c { coreOf s c with closing := true })
  else .done (setCore (issueSplice s c ins) c { coreOf s c with closing := false })

/-- A stream instruction (R219 to R223). -/
def streamStep (s : State) (c : Core) (x : SIns) : Res :=
  if 6 ≤ (ctxOf s c).chain.length then .trap (vectorIssue 0x0B) s
  else if x.f.ch then extendChain s c x
  else closeChain s c x

/-- A stream instruction of core `c` reads the dispatch entries of the extension instructions of its chain, correctable errors being corrected and
written back (R462, R472). -/
def entryReads (c : Core) (x : SIns) (s : State) : State :=
  (readEntries s (((ctxOf s c).chain.map SIns.ofWord ++ [x]).filter (fun y => 0xE0 ≤ y.opc.toNat)) (BitVec.ofNat 8 (16 + c.val))).2

/-- A stream instruction of core `c`, `x` in the layout of R266. -/
def runStream (c : Core) (i : Instr) (x : SIns) (s : State) : Host.Outcome State Fault Refusal :=
  runIns c { legal := i.wellFormed, fills := true, kind := .stream, reads := entryReads c x } (fun t => streamStep t c x) s

/-- An extension instruction joins its splice; without VALID in its dispatch entry it is illegal (R339, R463, R475). A poisoned entry reads as
zero, so without VALID (DEDUCED, log 185). -/
def execExtensionInstruction (c : Core) (op : BitVec 4) (fn : BitVec 7) (f : StreamFields) (s : State) :
    Host.Outcome State Fault Refusal :=
  let x : SIns := { opc := 0xE0 + op.setWidth 8, fn, f }
  let ok := (Instr.extensionInstruction c op fn f).wellFormed
  runIns c { legal := ok, fills := true, kind := .stream, reads := entryReads c x, allowed := fun t => bit (x.entry t) 14 }
    (fun t => streamStep t c x) s

/-! ALU (R276). -/

/-- VADD: A + B (R276). -/
def execVadd (c : Core) (f : StreamFields) (s : State) : Host.Outcome State Fault Refusal :=
  runStream c (.vadd c f) { opc := 0xC0, fn := 0, f } s

/-- VSUB: A − B (R276). -/
def execVsub (c : Core) (f : StreamFields) (s : State) : Host.Outcome State Fault Refusal :=
  runStream c (.vsub c f) { opc := 0xC0, fn := 1, f } s

/-- VMIN: minimum (R276). -/
def execVmin (c : Core) (f : StreamFields) (s : State) : Host.Outcome State Fault Refusal :=
  runStream c (.vmin c f) { opc := 0xC0, fn := 2, f } s

/-- VMAX: maximum (R276). -/
def execVmax (c : Core) (f : StreamFields) (s : State) : Host.Outcome State Fault Refusal :=
  runStream c (.vmax c f) { opc := 0xC0, fn := 3, f } s

/-- VABS: absolute value (R276). -/
def execVabs (c : Core) (f : StreamFields) (s : State) : Host.Outcome State Fault Refusal :=
  runStream c (.vabs c f) { opc := 0xC0, fn := 4, f } s

/-- VNEG: −A (R276). -/
def execVneg (c : Core) (f : StreamFields) (s : State) : Host.Outcome State Fault Refusal :=
  runStream c (.vneg c f) { opc := 0xC0, fn := 5, f } s

/-- VAND: A AND B (R276). -/
def execVand (c : Core) (f : StreamFields) (s : State) : Host.Outcome State Fault Refusal :=
  runStream c (.vand c f) { opc := 0xC0, fn := 8, f } s

/-- VOR: A OR B (R276). -/
def execVor (c : Core) (f : StreamFields) (s : State) : Host.Outcome State Fault Refusal :=
  runStream c (.vor c f) { opc := 0xC0, fn := 9, f } s

/-- VXOR: A XOR B (R276). -/
def execVxor (c : Core) (f : StreamFields) (s : State) : Host.Outcome State Fault Refusal :=
  runStream c (.vxor c f) { opc := 0xC0, fn := 10, f } s

/-- VANDN: A AND NOT B (R276). -/
def execVandn (c : Core) (f : StreamFields) (s : State) : Host.Outcome State Fault Refusal :=
  runStream c (.vandn c f) { opc := 0xC0, fn := 11, f } s

/-- VSHL: shift left (R276). -/
def execVshl (c : Core) (f : StreamFields) (s : State) : Host.Outcome State Fault Refusal :=
  runStream c (.vshl c f) { opc := 0xC0, fn := 12, f } s

/-- VSHR: shift right, zero fill (R276). -/
def execVshr (c : Core) (f : StreamFields) (s : State) : Host.Outcome State Fault Refusal :=
  runStream c (.vshr c f) { opc := 0xC0, fn := 13, f } s

/-- VSAR: shift right, sign fill (R276). -/
def execVsar (c : Core) (f : StreamFields) (s : State) : Host.Outcome State Fault Refusal :=
  runStream c (.vsar c f) { opc := 0xC0, fn := 14, f } s

/-- VCMP: compare (R276, R293). -/
def execVcmp (c : Core) (pred : BitVec 3) (f : StreamFields) (s : State) : Host.Outcome State Fault Refusal :=
  runStream c (.vcmp c pred f) { opc := 0xC0, fn := 16 + pred.setWidth 7, f } s

/-- VSEL: A if C, else B (R276). -/
def execVsel (c : Core) (f : StreamFields) (s : State) : Host.Outcome State Fault Refusal :=
  runStream c (.vsel c f) { opc := 0xC0, fn := 24, f } s

/-! MUL, FMA, DIV/SQRT (R277 to R280). -/

/-- VMUL: A × B (R277). -/
def execVmul (c : Core) (f : StreamFields) (s : State) : Host.Outcome State Fault Refusal :=
  runStream c (.vmul c f) { opc := 0xC1, fn := 0, f } s

/-- VMULH: upper half of A × B (R277). -/
def execVmulh (c : Core) (f : StreamFields) (s : State) : Host.Outcome State Fault Refusal :=
  runStream c (.vmulh c f) { opc := 0xC1, fn := 1, f } s

/-- VMULW: exact A × B (R277). -/
def execVmulw (c : Core) (f : StreamFields) (s : State) : Host.Outcome State Fault Refusal :=
  runStream c (.vmulw c f) { opc := 0xC1, fn := 2, f } s

/-- VFMA: A × B + C (R278). -/
def execVfma (c : Core) (f : StreamFields) (s : State) : Host.Outcome State Fault Refusal :=
  runStream c (.vfma c f) { opc := 0xC2, fn := 0, f } s

/-- VFMS: A × B − C (R278). -/
def execVfms (c : Core) (f : StreamFields) (s : State) : Host.Outcome State Fault Refusal :=
  runStream c (.vfms c f) { opc := 0xC2, fn := 1, f } s

/-- VFNMA: C − A × B (R278). -/
def execVfnma (c : Core) (f : StreamFields) (s : State) : Host.Outcome State Fault Refusal :=
  runStream c (.vfnma c f) { opc := 0xC2, fn := 2, f } s

/-- VFNMS: −(A × B) − C (R278). -/
def execVfnms (c : Core) (f : StreamFields) (s : State) : Host.Outcome State Fault Refusal :=
  runStream c (.vfnms c f) { opc := 0xC2, fn := 3, f } s

/-- VDIV: A / B (R279, R280). -/
def execVdiv (c : Core) (f : StreamFields) (s : State) : Host.Outcome State Fault Refusal :=
  runStream c (.vdiv c f) { opc := 0xC3, fn := 0, f } s

/-- VREM: remainder (R279, R280). -/
def execVrem (c : Core) (f : StreamFields) (s : State) : Host.Outcome State Fault Refusal :=
  runStream c (.vrem c f) { opc := 0xC3, fn := 1, f } s

/-- VSQRT: square root (R279, R280). -/
def execVsqrt (c : Core) (f : StreamFields) (s : State) : Host.Outcome State Fault Refusal :=
  runStream c (.vsqrt c f) { opc := 0xC3, fn := 2, f } s

/-! REDUCE/DOT (R249, R281, R282). -/

/-- VRSUM: sum (R281). -/
def execVrsum (c : Core) (aw : BitVec 3) (f : StreamFields) (s : State) : Host.Outcome State Fault Refusal :=
  runStream c (.vrsum c aw f) { opc := 0xC4, fn := aw ++ (0 : BitVec 4), f } s

/-- VRMIN: minimum (R281). -/
def execVrmin (c : Core) (aw : BitVec 3) (f : StreamFields) (s : State) : Host.Outcome State Fault Refusal :=
  runStream c (.vrmin c aw f) { opc := 0xC4, fn := aw ++ (1 : BitVec 4), f } s

/-- VRMAX: maximum (R281). -/
def execVrmax (c : Core) (aw : BitVec 3) (f : StreamFields) (s : State) : Host.Outcome State Fault Refusal :=
  runStream c (.vrmax c aw f) { opc := 0xC4, fn := aw ++ (2 : BitVec 4), f } s

/-- VDOT: dot product (R281). -/
def execVdot (c : Core) (aw : BitVec 3) (f : StreamFields) (s : State) : Host.Outcome State Fault Refusal :=
  runStream c (.vdot c aw f) { opc := 0xC4, fn := aw ++ (3 : BitVec 4), f } s

/-- VRCNT: count of set bits (R281). -/
def execVrcnt (c : Core) (aw : BitVec 3) (f : StreamFields) (s : State) : Host.Outcome State Fault Refusal :=
  runStream c (.vrcnt c aw f) { opc := 0xC4, fn := aw ++ (4 : BitVec 4), f } s

/-! CONVERT/PERMUTE (R283 to R286). -/

/-- VCVT: conversion (R283, R284, R286). -/
def execVcvt (c : Core) (tt : BitVec 4) (f : StreamFields) (s : State) : Host.Outcome State Fault Refusal :=
  runStream c (.vcvt c tt f) { opc := 0xC5, fn := (0 : BitVec 3) ++ tt, f } s

/-- VCVTZ: conversion toward zero (R283, R284, R286). -/
def execVcvtz (c : Core) (tt : BitVec 4) (f : StreamFields) (s : State) : Host.Outcome State Fault Refusal :=
  runStream c (.vcvtz c tt f) { opc := 0xC5, fn := (1 : BitVec 3) ++ tt, f } s

/-- VMOV: copy (R283, R284, R286). -/
def execVmov (c : Core) (tt : BitVec 4) (f : StreamFields) (s : State) : Host.Outcome State Fault Refusal :=
  runStream c (.vmov c tt f) { opc := 0xC5, fn := (2 : BitVec 3) ++ tt, f } s

/-- VCMPR: compress (R283, R284, R286). -/
def execVcmpr (c : Core) (tt : BitVec 4) (f : StreamFields) (s : State) : Host.Outcome State Fault Refusal :=
  runStream c (.vcmpr c tt f) { opc := 0xC5, fn := (3 : BitVec 3) ++ tt, f } s

/-- VEXPZ: expand, zero elsewhere (R283, R284, R286). -/
def execVexpz (c : Core) (tt : BitVec 4) (f : StreamFields) (s : State) : Host.Outcome State Fault Refusal :=
  runStream c (.vexpz c tt f) { opc := 0xC5, fn := (4 : BitVec 3) ++ tt, f } s

/-- VEXPM: expand, nothing elsewhere (R283, R284, R286). -/
def execVexpm (c : Core) (tt : BitVec 4) (f : StreamFields) (s : State) : Host.Outcome State Fault Refusal :=
  runStream c (.vexpm c tt f) { opc := 0xC5, fn := (5 : BitVec 3) ++ tt, f } s

/-- VPERM: permute (R283, R284, R286). -/
def execVperm (c : Core) (tt : BitVec 4) (f : StreamFields) (s : State) : Host.Outcome State Fault Refusal :=
  runStream c (.vperm c tt f) { opc := 0xC5, fn := (6 : BitVec 3) ++ tt, f } s

/-! Gather and scatter (R288). -/

/-- VGATH: gather (R288). -/
def execVgath (c : Core) (f : StreamFields) (s : State) : Host.Outcome State Fault Refusal :=
  runStream c (.vgath c f) { opc := 0xC6, fn := 0, f } s

/-- VSCAT: scatter (R288). -/
def execVscat (c : Core) (f : StreamFields) (s : State) : Host.Outcome State Fault Refusal :=
  runStream c (.vscat c f) { opc := 0xC7, fn := 0, f } s

/-! Descriptors (R305, R306). -/

/-- VDLD: VDd from the two words at Ga + imm (R305). -/
def execVdld (c : Core) (v : BitVec 5) (a : Reg) (imm : BitVec 20) (s : State) : Host.Outcome State Fault Refusal :=
  runIns c { legal := (Instr.vdld c v a imm).wellFormed, fills := true, cost := fun t => accessCost t (effAddr t c a imm).toNat 12 false }
    (fun t =>
      let p := (effAddr t c a imm).toNat
      if plyInWord p ≠ 0 then .trap (alignExc p) t
      else (coreLoad t c p 12).andDone (fun x u => setCtx u c ((ctxOf u c).setVdr v.toNat (BitVec.ofNat 144 x)))) s

/-- VDST: VDd to the two words at Ga + imm (R305). -/
def execVdst (c : Core) (v : BitVec 5) (a : Reg) (imm : BitVec 20) (s : State) : Host.Outcome State Fault Refusal :=
  runIns c { legal := (Instr.vdst c v a imm).wellFormed, fills := true, cost := fun t => accessCost t (effAddr t c a imm).toNat 12 true }
    (fun t =>
      let p := (effAddr t c a imm).toNat
      if plyInWord p ≠ 0 then .trap (alignExc p) t
      else (coreStore t c p 12 ((ctxOf t c).vdr v.toNat).toNat).andDone (fun _ u => u)) s

/-- A descriptor with the field that `f` selects written from a register (R306). -/
def setField (d : Desc) (f : BitVec 2) (g : W48) : Desc :=
  match f.toNat with
  | 0 => setBits d 0 (bits g 0 40)
  | 1 => setBits d 72 (bits g 0 36)
  | 2 => setBits d 108 (bits g 0 36)
  | _ => setBits d 40 (bits g 0 8)

/-- The field that `f` selects (R306). -/
def getField (d : Desc) (f : BitVec 2) : W48 :=
  match f.toNat with
  | 0 => d.base.setWidth 48
  | 1 => (bits d 72 36).signExtend 48
  | 2 => (bits d 108 36).setWidth 48
  | _ => (bits d 40 8).setWidth 48

/-- VDSET: one field of VDd (R306). -/
def execVdset (c : Core) (v : BitVec 5) (a : Reg) (sel : BitVec 2) (s : State) : Host.Outcome State Fault Refusal :=
  runIns c { legal := (Instr.vdset c v a sel).wellFormed, fills := true }
    (fun t => .done (setCtx t c ((ctxOf t c).setVdr v.toNat (setField ((ctxOf t c).vdr v.toNat) sel (getG t c a))))) s

/-- VDGET: one field of VDa (R306). -/
def execVdget (c : Core) (d : Reg) (v : BitVec 5) (sel : BitVec 2) (s : State) : Host.Outcome State Fault Refusal :=
  runIns c { legal := (Instr.vdget c d v sel).wellFormed, fills := true }
    (fun t => .done (setG t c d (getField ((ctxOf t c).vdr v.toNat) sel))) s

/-- VDADD: BASE = (BASE + Ga[39:0]) mod 2^40 (R305). -/
def execVdadd (c : Core) (v : BitVec 5) (a : Reg) (s : State) : Host.Outcome State Fault Refusal :=
  runIns c { legal := (Instr.vdadd c v a).wellFormed, fills := true }
    (fun t =>
      let d : Desc := (ctxOf t c).vdr v.toNat
      .done (setCtx t c ((ctxOf t c).setVdr v.toNat (setBits d 0 (d.base + bits (getG t c a) 0 40))))) s

/-! The fence and the fault record (R244, R253, R307). -/

/-- Every splice of a context is final. -/
def allFinal (s : State) (cid : Nat) : Bool := s.splices.list.all (fun p => p.cid != cid)

/-- VFENCE: waits for the splices of the context; Gd takes their status and number, and STW their flags (R244). -/
def execVfence (c : Core) (d : Reg) (s : State) : Host.Outcome State Fault Refusal :=
  runIns c { legal := (Instr.vfence c d).wellFormed, kind := .vfence, cost := fun _ => none }
    (fun t =>
      let k := (ctxOf t c).cid
      let r := trailOf t k
      if allFinal t k then
        let t1 := setTrail t k { r with ended := 0, count := 0, taken := false }
        .done (setG (orStw t1 c (bits r.ended 10 5) false) c d (r.count ++ r.ended))
      else .stall) s

/-- VFRD: half of VFR into Gd (R305). -/
def execVfrd (c : Core) (d : Reg) (h : Bool) (s : State) : Host.Outcome State Fault Refusal :=
  runIns c { legal := (Instr.vfrd c d h).wellFormed, fills := true }
    (fun t =>
      let v := (ctxOf t c).vfr
      .done (setG t c d (if h then (bits v 48 24).setWidth 48 else bits v 0 48))) s

/-- VFRCLR: VFR becomes zero (R305). -/
def execVfrclr (c : Core) (s : State) : Host.Outcome State Fault Refusal :=
  runIns c { legal := (Instr.vfrclr c).wellFormed, fills := true } (fun t => .done (setCtx t c { ctxOf t c with vfr := 0 })) s

end Sys2Proof.Machine
end

