-- ==== Sys2Proof/Machine/Short.lean ====
section
/-! DEFINITION. Short-vector and mask-register instructions (R295 to R303). -/

namespace Sys2Proof.Machine

/-! S registers and lanes (R295 to R298). -/

/-- Sk as a number of 192 bits (R295). -/
def sReg (s : State) (c : Core) (k : Nat) : Nat :=
  let f := fun j => (getFr s c (4 * k + j)).toNat * 2 ^ (48 * j)
  f 0 + f 1 + f 2 + f 3

/-- Sk takes a value. -/
def setSReg (s : State) (c : Core) (k v : Nat) : State :=
  (List.range 4).foldl (fun t j => setFr t c (4 * k + j) (BitVec.ofNat 48 (v / 2 ^ (48 * j)))) s

/-- Lane `i` of a register of lanes of type `t` (R296). -/
def laneAt (t : BitVec 4) (v i : Nat) : Nat := v / 2 ^ (typeBits t * i) % 2 ^ typeBits t

/-- Lane `i` of the register that a field names. -/
def sLane (s : State) (c : Core) (t : BitVec 4) (r : BitVec 5) (i : Nat) : Nat := laneAt t (sReg s c r.toNat) i

/-- Mask register `r` of the running context. -/
def mReg (s : State) (c : Core) (r : Nat) : BitVec 16 := (ctxOf s c).mr r

/-- It takes a value. -/
def setMReg (s : State) (c : Core) (r : Nat) (v : BitVec 16) : State := setCtx s c ((ctxOf s c).setMr r v)

/-- Lane `i` is active (R272, R298). -/
def laneOn (s : State) (c : Core) (f : StreamFields) (i : Nat) : Bool := f.msk == 0 || bit (mReg s c f.mreg.toNat) i

/-- The flags of the active lanes. -/
def laneFlags (s : State) (c : Core) (f : StreamFields) (n : Nat) (out : Nat → Out) : FFlags :=
  (List.range n).foldl (fun x i => if laneOn s c f i then x ||| (out i).fl else x) 0

/-- Some active lane saturates. -/
def laneSat (s : State) (c : Core) (f : StreamFields) (n : Nat) (out : Nat → Out) : Bool :=
  (List.range n).any (fun i => laneOn s c f i && (out i).sat)

/-- Sd takes lanes of type `rt`: an inactive one is kept, or zero in zero mode; flags and saturation reach STW (R298, R303). -/
def putLanes (s : State) (c : Core) (f : StreamFields) (rt : BitVec 4) (out : Nat → Out) : State :=
  let n := lanesOf rt
  let lanes := (List.range n).map (fun i =>
    if laneOn s c f i then (out i).v % 2 ^ typeBits rt else if f.msk = 2 then 0 else sLane s c rt f.dst i)
  let v := lanes.foldr (fun x y => x + y * 2 ^ typeBits rt) 0
  setSReg (orStw s c (laneFlags s c f n out) (laneSat s c f n out)) c f.dst.toNat v

/-- A short-vector instruction into lanes of type `rt`. -/
def runShort (c : Core) (i : Instr) (f : StreamFields) (cost : Option Nat) (rt : BitVec 4) (out : State → Nat → Out) (s : State) :
    Host.Outcome State Fault Refusal :=
  runIns c { legal := i.wellFormed, fills := true, cost := fun _ => cost } (fun t => .done (putLanes t c f rt (out t))) s

/-- Lane `i` of an element operation: `cs` gives lane `i` of operand C. -/
def shortElem (op : ElemOp) (c : Core) (f : StreamFields) (s : State) (i : Nat) : Out :=
  elemOp op f.ot f.sat (modeOf s c 7) (sLane s c f.ot f.sa i) (sLane s c f.ot f.sb i) (sLane s c f.ot f.sc i)

/-- The fixed count of a divide or square root: integer ones have none (R384). -/
def divideCost (t : BitVec 4) (f24' f48' : Nat) : Option Nat := if t = 6 then some f24' else if t = 7 then some f48' else none

/-! ALU (R276, R298, R299). -/

/-- SADD: A + B, lane by lane (R276, R298). -/
def execSadd (c : Core) (f : StreamFields) (s : State) : Host.Outcome State Fault Refusal :=
  runShort c (.sadd c f) f (some 2) f.ot (shortElem .add c f) s

/-- SSUB: A − B, lane by lane (R276, R298). -/
def execSsub (c : Core) (f : StreamFields) (s : State) : Host.Outcome State Fault Refusal :=
  runShort c (.ssub c f) f (some 2) f.ot (shortElem .sub c f) s

/-- SMIN: minimum (R292), lane by lane (R276, R298). -/
def execSmin (c : Core) (f : StreamFields) (s : State) : Host.Outcome State Fault Refusal :=
  runShort c (.smin c f) f (some 2) f.ot (shortElem .min c f) s

/-- SMAX: maximum (R292), lane by lane (R276, R298). -/
def execSmax (c : Core) (f : StreamFields) (s : State) : Host.Outcome State Fault Refusal :=
  runShort c (.smax c f) f (some 2) f.ot (shortElem .max c f) s

/-- SABS: absolute value, lane by lane (R276, R298). -/
def execSabs (c : Core) (f : StreamFields) (s : State) : Host.Outcome State Fault Refusal :=
  runShort c (.sabs c f) f (some 2) f.ot (shortElem .abs c f) s

/-- SNEG: −A, lane by lane (R276, R298). -/
def execSneg (c : Core) (f : StreamFields) (s : State) : Host.Outcome State Fault Refusal :=
  runShort c (.sneg c f) f (some 2) f.ot (shortElem .neg c f) s

/-- SAND: A AND B, lane by lane (R276, R298). -/
def execSand (c : Core) (f : StreamFields) (s : State) : Host.Outcome State Fault Refusal :=
  runShort c (.sand c f) f (some 2) f.ot (shortElem .and c f) s

/-- SOR: A OR B, lane by lane (R276, R298). -/
def execSor (c : Core) (f : StreamFields) (s : State) : Host.Outcome State Fault Refusal :=
  runShort c (.sor c f) f (some 2) f.ot (shortElem .or c f) s

/-- SXOR: A XOR B, lane by lane (R276, R298). -/
def execSxor (c : Core) (f : StreamFields) (s : State) : Host.Outcome State Fault Refusal :=
  runShort c (.sxor c f) f (some 2) f.ot (shortElem .xor c f) s

/-- SANDN: A AND NOT B, lane by lane (R276, R298). -/
def execSandn (c : Core) (f : StreamFields) (s : State) : Host.Outcome State Fault Refusal :=
  runShort c (.sandn c f) f (some 2) f.ot (shortElem .andn c f) s

/-- SSHL: shift left (R294), lane by lane (R276, R298). -/
def execSshl (c : Core) (f : StreamFields) (s : State) : Host.Outcome State Fault Refusal :=
  runShort c (.sshl c f) f (some 2) f.ot (shortElem .shl c f) s

/-- SSHR: shift right, zero fill (R294), lane by lane (R276, R298). -/
def execSshr (c : Core) (f : StreamFields) (s : State) : Host.Outcome State Fault Refusal :=
  runShort c (.sshr c f) f (some 2) f.ot (shortElem .shr c f) s

/-- SSAR: shift right, sign fill (R294), lane by lane (R276, R298). -/
def execSsar (c : Core) (f : StreamFields) (s : State) : Host.Outcome State Fault Refusal :=
  runShort c (.ssar c f) f (some 2) f.ot (shortElem .sar c f) s

/-- SCMP: the predicate on each lane into Md; bits above the lanes are zero (R293, R297, R299). -/
def execScmp (c : Core) (pred : BitVec 3) (f : StreamFields) (s : State) : Host.Outcome State Fault Refusal :=
  runIns c { legal := (Instr.scmp c pred f).wellFormed, fills := true, cost := fun _ => some 2 }
    (fun t =>
      let out := shortElem (.cmp pred) c f t
      let n := lanesOf f.ot
      let old := mReg t c f.dst.toNat
      let v := (List.range n).foldl (fun (m : BitVec 16) i =>
        setBit m i (if laneOn t c f i then (out i).v == 1 else if f.msk = 2 then false else bit old i)) 0
      .done (setMReg (orStw t c (laneFlags t c f n out) false) c f.dst.toNat v)) s

/-- SSEL: A where the selector M register holds 1, else B (R299). -/
def execSsel (c : Core) (f : StreamFields) (s : State) : Host.Outcome State Fault Refusal :=
  runShort c (.ssel c f) f (some 2) f.ot
    (fun t i => { v := if bit (mReg t c f.sc.toNat) i then sLane t c f.ot f.sa i else sLane t c f.ot f.sb i }) s

/-! MUL, FMA, DIV/SQRT (R277 to R280, R299). -/

/-- SMUL: A × B, lane by lane (R277). -/
def execSmul (c : Core) (f : StreamFields) (s : State) : Host.Outcome State Fault Refusal :=
  runShort c (.smul c f) f (some 3) f.ot (shortElem .mul c f) s

/-- SMULH: upper half of A × B (R277). -/
def execSmulh (c : Core) (f : StreamFields) (s : State) : Host.Outcome State Fault Refusal :=
  runShort c (.smulh c f) f (some 3) f.ot (shortElem .mulh c f) s

/-- SMULWL: the exact products of the lower half of the lanes (R277, R299). -/
def execSmulwl (c : Core) (f : StreamFields) (s : State) : Host.Outcome State Fault Refusal :=
  runShort c (.smulwl c f) f (some 3) (nextWider f.ot) (shortElem .mulw c f) s

/-- SMULWH: the exact products of the upper half of the lanes (R277, R299). -/
def execSmulwh (c : Core) (f : StreamFields) (s : State) : Host.Outcome State Fault Refusal :=
  runShort c (.smulwh c f) f (some 3) (nextWider f.ot) (fun t i => shortElem .mulw c f t (lanesOf f.ot / 2 + i)) s

/-- SFMA: A × B + C (R278). -/
def execSfma (c : Core) (f : StreamFields) (s : State) : Host.Outcome State Fault Refusal :=
  runShort c (.sfma c f) f (some 4) f.ot (shortElem .fma c f) s

/-- SFMS: A × B − C (R278). -/
def execSfms (c : Core) (f : StreamFields) (s : State) : Host.Outcome State Fault Refusal :=
  runShort c (.sfms c f) f (some 4) f.ot (shortElem .fms c f) s

/-- SFNMA: C − A × B (R278). -/
def execSfnma (c : Core) (f : StreamFields) (s : State) : Host.Outcome State Fault Refusal :=
  runShort c (.sfnma c f) f (some 4) f.ot (shortElem .fnma c f) s

/-- SFNMS: −(A × B) − C (R278). -/
def execSfnms (c : Core) (f : StreamFields) (s : State) : Host.Outcome State Fault Refusal :=
  runShort c (.sfnms c f) f (some 4) f.ot (shortElem .fnms c f) s

/-- SDIV: A / B on all lanes (R280, R299). -/
def execSdiv (c : Core) (f : StreamFields) (s : State) : Host.Outcome State Fault Refusal :=
  runShort c (.sdiv c f) f (divideCost f.ot 8 14) f.ot (shortElem .div c f) s

/-- SREM: remainder on all lanes (R280, R299). -/
def execSrem (c : Core) (f : StreamFields) (s : State) : Host.Outcome State Fault Refusal :=
  runShort c (.srem c f) f none f.ot (shortElem .rem c f) s

/-- SSQRT: square root on all lanes (R280, R299). -/
def execSsqrt (c : Core) (f : StreamFields) (s : State) : Host.Outcome State Fault Refusal :=
  runShort c (.ssqrt c f) f (divideCost f.ot 10 16) f.ot (shortElem .sqrt c f) s

/-! Reductions and SDOT (R249, R281, R299, R300). -/

/-- A reduction of the active lanes of A into lane 0 of Sd, with lane 0 of Sc as initial value (R249, R299). -/
def reduceLanes (s : State) (c : Core) (op : RedOp) (aw : BitVec 3) (f : StreamFields) : State :=
  let t := op.acc f.ot aw
  let md := modeOf s c 7
  let acc := (List.range 16).map (fun i =>
    if i < lanesOf f.ot ∧ laneOn s c f i then some (redTerm op f.ot t f.sat md none (sLane s c f.ot f.sa i) 0).v else none)
  let r := redResult op t f.sat md acc (if f.sc = 31 then none else some (sLane s c t f.sc 0))
  setSReg (orStw s c r.fl r.sat) c f.dst.toNat (r.v % 2 ^ typeBits t)

/-- A short-vector reduction. -/
def runReduce (c : Core) (i : Instr) (op : RedOp) (aw : BitVec 3) (f : StreamFields) (s : State) :
    Host.Outcome State Fault Refusal :=
  runIns c { legal := i.wellFormed, fills := true, cost := fun _ => some 5 } (fun t => .done (reduceLanes t c op aw f)) s

/-- SRSUM: sum (R281, R299). -/
def execSrsum (c : Core) (aw : BitVec 3) (f : StreamFields) (s : State) : Host.Outcome State Fault Refusal :=
  runReduce c (.srsum c aw f) .sum aw f s

/-- SRMIN: minimum (R281, R292, R299). -/
def execSrmin (c : Core) (aw : BitVec 3) (f : StreamFields) (s : State) : Host.Outcome State Fault Refusal :=
  runReduce c (.srmin c aw f) .min aw f s

/-- SRMAX: maximum (R281, R292, R299). -/
def execSrmax (c : Core) (aw : BitVec 3) (f : StreamFields) (s : State) : Host.Outcome State Fault Refusal :=
  runReduce c (.srmax c aw f) .max aw f s

/-- One floating lane of SDOT: the addend and the products summed exactly and rounded once (R300); NaN and invalid cases as for a
fused operation, the addend first (R63, R291). -/
def dotFloat (m : Fmt) (md : FMode) (c0 : Nat) (terms0 : List (Nat × Nat)) : Out :=
  let c := m.read md.daz c0
  let terms := terms0.map (fun x => (m.read md.daz x.1, m.read md.daz x.2))
  let sign := fun x : Nat × Nat => m.sign x.1 != m.sign x.2
  let infs := (if m.isInf c then [m.sign c] else []) ++
    (terms.filter (fun x => m.isInf x.1 || m.isInf x.2)).map sign
  if terms.any (fun x => (m.isInf x.1 && m.isZero x.2) || (m.isZero x.1 && m.isInf x.2)) then
    { v := if m.isNan c && !m.isSnan c then c else m.defaultNan, fl := flagNV }
  else (m.nanOf (c :: terms.flatMap (fun x => [x.1, x.2]))).getD
    (match infs with
      | b :: t => if t.any (fun x => x != b) then m.invalid else { v := m.inf b }
      | [] => m.deliver md ((terms.map (fun x => mulDyadic (m.value x.1) (m.value x.2))).foldl (addDyadic md.rm) (m.value c)))

/-- Lane `j` of SDOT (R300). -/
def dotLane (s : State) (c : Core) (aw : BitVec 3) (f : StreamFields) (j : Nat) : Out :=
  let t := RedOp.acc .dot f.ot aw
  let r := lanesOf f.ot / lanesOf t
  let md := modeOf s c 7
  let old := sLane s c t f.dst j
  let terms := (List.range r).map (fun k => (sLane s c f.ot f.sa (r * j + k), sLane s c f.ot f.sb (r * j + k)))
  if isFloat f.ot then
    dotFloat (fmtOf t) md old (terms.map (fun x => (redOperand f.ot t md.daz x.1, redOperand f.ot t md.daz x.2)))
  else reduceInt t f.sat (terms.foldl (fun a x => a + valOf f.ot x.1 * valOf f.ot x.2) (valOf t old))

/-- SDOT: each lane of Sd gathers the products of its source lanes (R300). -/
def execSdot (c : Core) (aw : BitVec 3) (f : StreamFields) (s : State) : Host.Outcome State Fault Refusal :=
  runShort c (.sdot c aw f) f (some 5) (RedOp.acc .dot f.ot aw) (fun t j => dotLane t c aw f j) s

/-! CONVERT/PERMUTE (R283 to R286, R299). -/

/-- A conversion of each lane; a lane of the target type that has no source lane is free (log 15). -/
def runConvert (c : Core) (i : Instr) (tt : BitVec 4) (zero : Bool) (f : StreamFields) (s : State) :
    Host.Outcome State Fault Refusal :=
  runIns c { legal := i.wellFormed, fills := true, cost := fun _ => some 2 }
    (fun t =>
      let out := fun k => if k < lanesOf f.ot then shortElem (.cvt tt zero) c f t k else { v := (Config.freeBits 48 (t.free + k)).toNat }
      .done (putLanes { t with free := t.free + 16 } c f tt out)) s

/-- SCVT: conversion (R284, R285). -/
def execScvt (c : Core) (tt : BitVec 4) (f : StreamFields) (s : State) : Host.Outcome State Fault Refusal :=
  runConvert c (.scvt c tt f) tt false f s

/-- SCVTZ: conversion toward zero (R284, R285). -/
def execScvtz (c : Core) (tt : BitVec 4) (f : StreamFields) (s : State) : Host.Outcome State Fault Refusal :=
  runConvert c (.scvtz c tt f) tt true f s

/-- SMOV: the lanes of A (R283). -/
def execSmov (c : Core) (tt : BitVec 4) (f : StreamFields) (s : State) : Host.Outcome State Fault Refusal :=
  runShort c (.smov c tt f) f (some 2) f.ot (shortElem .mov c f) s

/-- The lanes that a selector M register selects below lane `n`. -/
def selected (m : BitVec 16) (n : Nat) : List Nat := (List.range n).filter (fun i => bit m i)

/-- SCMPR: the selected lanes packed from lane 0, zero above (R286, R299). -/
def execScmpr (c : Core) (tt : BitVec 4) (f : StreamFields) (s : State) : Host.Outcome State Fault Refusal :=
  runShort c (.scmpr c tt f) f (some 2) f.ot
    (fun t i => { v := match (selected (mReg t c f.sc.toNat) (lanesOf f.ot))[i]? with
      | some j => sLane t c f.ot f.sa j
      | none => 0 }) s

/-- Lane `i` of an expand: the next lane of A where it is selected, else `other` (R286). -/
def expandLane (s : State) (c : Core) (f : StreamFields) (other i : Nat) : Out :=
  let m := mReg s c f.sc.toNat
  { v := if bit m i then sLane s c f.ot f.sa (selected m i).length else other }

/-- SEXPZ: lanes of A in order into the selected places, zero elsewhere (R286, R299). -/
def execSexpz (c : Core) (tt : BitVec 4) (f : StreamFields) (s : State) : Host.Outcome State Fault Refusal :=
  runShort c (.sexpz c tt f) f (some 2) f.ot (fun t i => expandLane t c f 0 i) s

/-- SEXPM: lanes of A in order into the selected places, the others kept (R286, R299). -/
def execSexpm (c : Core) (tt : BitVec 4) (f : StreamFields) (s : State) : Host.Outcome State Fault Refusal :=
  runShort c (.sexpm c tt f) f (some 2) f.ot (fun t i => expandLane t c f (sLane t c f.ot f.dst i) i) s

/-- SPERM: lane i is lane (B[i] mod N) of A (R299). -/
def execSperm (c : Core) (tt : BitVec 4) (f : StreamFields) (s : State) : Host.Outcome State Fault Refusal :=
  runShort c (.sperm c tt f) f (some 2) f.ot
    (fun t i => { v := sLane t c f.ot f.sa (sLane t c f.ot f.sb i % lanesOf f.ot) }) s

/-! SLD and SST (R301). -/

/-- The address of SLD and SST: Ga + Gb (R301). -/
def shortAddr (s : State) (c : Core) (f : StreamFields) : Nat := (getG s c f.sa.toNat + getG s c f.sb.toNat).toNat % 2 ^ 40

/-- SLD: 16 plies into Sd, by lanes of OT (R301). -/
def execSld (c : Core) (f : StreamFields) (s : State) : Host.Outcome State Fault Refusal :=
  runIns c { legal := (Instr.sld c f).wellFormed, fills := true, cost := fun t => accessCost t (shortAddr t c f) 16 false }
    (fun t => (loadAligned t c (shortAddr t c f) 16).andDone (fun v u => putLanes u c f f.ot (fun i => { v := laneAt f.ot v i }))) s

/-- The stretches of active lanes of a merging SST, as ply offset, plies and value. -/
def activeRuns (s : State) (c : Core) (f : StreamFields) (v : Nat) : List (Nat × Nat × Nat) :=
  let w := typePlies f.ot
  ((List.range (lanesOf f.ot)).filter (laneOn s c f)).foldl (fun l i =>
    match l.getLast? with
    | some x => if x.1 + x.2.1 = w * i then l.dropLast ++ [(x.1, x.2.1 + w, x.2.2 + laneAt f.ot v i * 2 ^ (12 * x.2.1))]
      else l ++ [(w * i, w, laneAt f.ot v i)]
    | none => [(w * i, w, laneAt f.ot v i)]) []

/-- Stretches are stored from address `a`, in order, up to the first that faults (R116, R301); none when one of them is held. -/
def storeRuns (s : State) (c : Core) (a : Nat) (l : List (Nat × Nat × Nat)) : Got Unit :=
  let one := fun (t : State) (x : Nat × Nat × Nat) => coreStore t c (a + x.1) x.2.1 x.2.2
  if l.any (fun x => match one s x with | .held => true | _ => false) then .held
  else l.foldl (fun g x => match g with | .ok _ t => one t x | _ => g) (.ok () s)

/-- What SST stores: all of Sd, inactive lanes zero in zero mode, and only active lanes in merge mode (R301). -/
def shortStore (s : State) (c : Core) (f : StreamFields) : List (Nat × Nat × Nat) :=
  let v := sReg s c f.dst.toNat
  if f.msk = 1 then activeRuns s c f v
  else
    let w := typeBits f.ot
    [(0, 16, (List.range (lanesOf f.ot)).foldl (fun x i => if laneOn s c f i then x + laneAt f.ot v i * 2 ^ (w * i) else x) 0)]

/-- SST: 16 plies of Sd (R301). -/
def execSst (c : Core) (f : StreamFields) (s : State) : Host.Outcome State Fault Refusal :=
  runIns c { legal := (Instr.sst c f).wellFormed, fills := true, cost := fun t => accessCost t (shortAddr t c f) 16 true }
    (fun t =>
      let a := shortAddr t c f
      if aligned a 16 then (storeRuns t c a (shortStore t c f)).andDone (fun _ u => u) else .trap (alignExc a) t) s

/-! Mask registers (R302). -/

/-- A mask operation into Md. -/
def runMask (c : Core) (i : Instr) (d : MReg) (f : State → BitVec 16) (s : State) : Host.Outcome State Fault Refusal :=
  runIns c { legal := i.wellFormed, fills := true } (fun t => .done (setMReg t c d (f t))) s

/-- MAND: Ma AND Mb (R302). -/
def execMand (c : Core) (d a b : MReg) (s : State) : Host.Outcome State Fault Refusal :=
  runMask c (.mand c d a b) d (fun t => mReg t c a &&& mReg t c b) s

/-- MOR: Ma OR Mb (R302). -/
def execMor (c : Core) (d a b : MReg) (s : State) : Host.Outcome State Fault Refusal :=
  runMask c (.mor c d a b) d (fun t => mReg t c a ||| mReg t c b) s

/-- MXOR: Ma XOR Mb (R302). -/
def execMxor (c : Core) (d a b : MReg) (s : State) : Host.Outcome State Fault Refusal :=
  runMask c (.mxor c d a b) d (fun t => mReg t c a ^^^ mReg t c b) s

/-- MANDN: Ma AND NOT Mb (R302). -/
def execMandn (c : Core) (d a b : MReg) (s : State) : Host.Outcome State Fault Refusal :=
  runMask c (.mandn c d a b) d (fun t => mReg t c a &&& ~~~mReg t c b) s

/-- MNOT: NOT Ma (R302). -/
def execMnot (c : Core) (d a : MReg) (s : State) : Host.Outcome State Fault Refusal :=
  runMask c (.mnot c d a) d (fun t => ~~~mReg t c a) s

/-- MPOP: the number of set bits of Ma into Gd (R302). -/
def execMpop (c : Core) (d : Reg) (a : MReg) (s : State) : Host.Outcome State Fault Refusal :=
  runIns c { legal := (Instr.mpop c d a).wellFormed, fills := true }
    (fun t => .done (setG t c d (BitVec.ofNat 48 (popCount (mReg t c a))))) s

/-- MTOG: Ma into Gd, zero-extended (R302). -/
def execMtog (c : Core) (d : Reg) (a : MReg) (s : State) : Host.Outcome State Fault Refusal :=
  runIns c { legal := (Instr.mtog c d a).wellFormed, fills := true } (fun t => .done (setG t c d ((mReg t c a).setWidth 48))) s

/-- MFROMG: Ga[15:0] into Md (R302). -/
def execMfromg (c : Core) (d : MReg) (a : Reg) (s : State) : Host.Outcome State Fault Refusal :=
  runMask c (.mfromg c d a) d (fun t => bits (getG t c a) 0 16) s

/-- MTAIL: bits 0 to min(Ga, 16) − 1 of Md set (R302). -/
def execMtail (c : Core) (d : MReg) (a : Reg) (s : State) : Host.Outcome State Fault Refusal :=
  runMask c (.mtail c d a) d (fun t => BitVec.ofNat 16 (2 ^ Nat.min (getG t c a).toNat 16 - 1)) s

end Sys2Proof.Machine
end

