-- ==== Sys2Proof/Machine/Dispatch.lean ====
section
/-! DEFINITION. The dispatch of the commands: one arm per constructor of `Instr`, in the order of the opcode table. -/

namespace Sys2Proof.Machine

/-- The effect of a command on everything but the queue. -/
def exec (i : Instr) (s : State) : Host.Outcome State Fault Refusal :=
  match i with
  | .add c d a b => Sys2Proof.Machine.execAdd c d a b s
  | .sub c d a b => Sys2Proof.Machine.execSub c d a b s
  | .and c d a b => Sys2Proof.Machine.execAnd c d a b s
  | .or c d a b => Sys2Proof.Machine.execOr c d a b s
  | .xor c d a b => Sys2Proof.Machine.execXor c d a b s
  | .andn c d a b => Sys2Proof.Machine.execAndn c d a b s
  | .shl c d a b => Sys2Proof.Machine.execShl c d a b s
  | .shr c d a b => Sys2Proof.Machine.execShr c d a b s
  | .sar c d a b => Sys2Proof.Machine.execSar c d a b s
  | .min c d a b => Sys2Proof.Machine.execMin c d a b s
  | .minu c d a b => Sys2Proof.Machine.execMinu c d a b s
  | .max c d a b => Sys2Proof.Machine.execMax c d a b s
  | .maxu c d a b => Sys2Proof.Machine.execMaxu c d a b s
  | .sel c d a b e => Sys2Proof.Machine.execSel c d a b e s
  | .clz c d a => Sys2Proof.Machine.execClz c d a s
  | .popc c d a => Sys2Proof.Machine.execPopc c d a s
  | .cmpeq c d a b => Sys2Proof.Machine.execCmpeq c d a b s
  | .cmpne c d a b => Sys2Proof.Machine.execCmpne c d a b s
  | .cmplt c d a b => Sys2Proof.Machine.execCmplt c d a b s
  | .cmpltu c d a b => Sys2Proof.Machine.execCmpltu c d a b s
  | .cmple c d a b => Sys2Proof.Machine.execCmple c d a b s
  | .cmpleu c d a b => Sys2Proof.Machine.execCmpleu c d a b s
  | .addc c d a b e => Sys2Proof.Machine.execAddc c d a b e s
  | .addco c d a b e => Sys2Proof.Machine.execAddco c d a b e s
  | .subb c d a b e => Sys2Proof.Machine.execSubb c d a b e s
  | .subbo c d a b e => Sys2Proof.Machine.execSubbo c d a b e s
  | .mul c d a b => Sys2Proof.Machine.execMul c d a b s
  | .mulw c d a b => Sys2Proof.Machine.execMulw c d a b s
  | .mulwu c d a b => Sys2Proof.Machine.execMulwu c d a b s
  | .div c d a b => Sys2Proof.Machine.execDiv c d a b s
  | .divu c d a b => Sys2Proof.Machine.execDivu c d a b s
  | .rem c d a b => Sys2Proof.Machine.execRem c d a b s
  | .remu c d a b => Sys2Proof.Machine.execRemu c d a b s
  | .addi c d a imm => Sys2Proof.Machine.execAddi c d a imm s
  | .andi c d a imm => Sys2Proof.Machine.execAndi c d a imm s
  | .ori c d a imm => Sys2Proof.Machine.execOri c d a imm s
  | .xori c d a imm => Sys2Proof.Machine.execXori c d a imm s
  | .shli c d a imm => Sys2Proof.Machine.execShli c d a imm s
  | .shri c d a imm => Sys2Proof.Machine.execShri c d a imm s
  | .sari c d a imm => Sys2Proof.Machine.execSari c d a imm s
  | .cmpeqi c d a imm => Sys2Proof.Machine.execCmpeqi c d a imm s
  | .cmplti c d a imm => Sys2Proof.Machine.execCmplti c d a imm s
  | .cmpltui c d a imm => Sys2Proof.Machine.execCmpltui c d a imm s
  | .li c d imm => Sys2Proof.Machine.execLi c d imm s
  | .lih c d imm => Sys2Proof.Machine.execLih c d imm s
  | .ldp c d a imm => Sys2Proof.Machine.execLdp c d a imm s
  | .ldps c d a imm => Sys2Proof.Machine.execLdps c d a imm s
  | .ldd c d a imm => Sys2Proof.Machine.execLdd c d a imm s
  | .ldds c d a imm => Sys2Proof.Machine.execLdds c d a imm s
  | .ldq c d a imm upset => Sys2Proof.Machine.execLdq c d a imm upset s
  | .ldwp c d a imm => Sys2Proof.Machine.execLdwp c d a imm s
  | .ldf24 c d a imm => Sys2Proof.Machine.execLdf24 c d a imm s
  | .ldf48 c d a imm => Sys2Proof.Machine.execLdf48 c d a imm s
  | .stp c a b imm => Sys2Proof.Machine.execStp c a b imm s
  | .std c a b imm => Sys2Proof.Machine.execStd c a b imm s
  | .stq c a b imm => Sys2Proof.Machine.execStq c a b imm s
  | .stwp c a b imm => Sys2Proof.Machine.execStwp c a b imm s
  | .stf24 c a b imm => Sys2Proof.Machine.execStf24 c a b imm s
  | .stf48 c a b imm => Sys2Proof.Machine.execStf48 c a b imm s
  | .ldl c d a imm => Sys2Proof.Machine.execLdl c d a imm s
  | .stc c d a b imm => Sys2Proof.Machine.execStc c d a b imm s
  | .push c a => Sys2Proof.Machine.execPush c a s
  | .pop c d => Sys2Proof.Machine.execPop c d s
  | .getsp c d p => Sys2Proof.Machine.execGetsp c d p s
  | .setsp c a p => Sys2Proof.Machine.execSetsp c a p s
  | .bz c a imm => Sys2Proof.Machine.execBz c a imm s
  | .bnz c a imm => Sys2Proof.Machine.execBnz c a imm s
  | .jmp c imm => Sys2Proof.Machine.execJmp c imm s
  | .jr c a => Sys2Proof.Machine.execJr c a s
  | .call c imm => Sys2Proof.Machine.execCall c imm s
  | .callr c a => Sys2Proof.Machine.execCallr c a s
  | .ret c => Sys2Proof.Machine.execRet c s
  | .loop c a k => Sys2Proof.Machine.execLoop c a k s
  | .endloop c => Sys2Proof.Machine.execEndloop c s
  | .lcrd c d j => Sys2Proof.Machine.execLcrd c d j s
  | .fadd c d a b p rms => Sys2Proof.Machine.execFadd c d a b p rms s
  | .fsub c d a b p rms => Sys2Proof.Machine.execFsub c d a b p rms s
  | .fmul c d a b p rms => Sys2Proof.Machine.execFmul c d a b p rms s
  | .fdiv c d a b p rms => Sys2Proof.Machine.execFdiv c d a b p rms s
  | .fsqrt c d a p rms => Sys2Proof.Machine.execFsqrt c d a p rms s
  | .fmin c d a b p rms => Sys2Proof.Machine.execFmin c d a b p rms s
  | .fmax c d a b p rms => Sys2Proof.Machine.execFmax c d a b p rms s
  | .fneg c d a p rms => Sys2Proof.Machine.execFneg c d a p rms s
  | .fabs c d a p rms => Sys2Proof.Machine.execFabs c d a p rms s
  | .fmv c d a p rms => Sys2Proof.Machine.execFmv c d a p rms s
  | .fma c d a b e p rms => Sys2Proof.Machine.execFma c d a b e p rms s
  | .fms c d a b e p rms => Sys2Proof.Machine.execFms c d a b e p rms s
  | .fnma c d a b e p rms => Sys2Proof.Machine.execFnma c d a b e p rms s
  | .fnms c d a b e p rms => Sys2Proof.Machine.execFnms c d a b e p rms s
  | .fcmp c d a b pred p rms => Sys2Proof.Machine.execFcmp c d a b pred p rms s
  | .gtof c d a p rms => Sys2Proof.Machine.execGtof c d a p rms s
  | .ftog c d a p rms => Sys2Proof.Machine.execFtog c d a p rms s
  | .cvtif c d a p rms u => Sys2Proof.Machine.execCvtif c d a p rms u s
  | .cvtfi c d a p rms u => Sys2Proof.Machine.execCvtfi c d a p rms u s
  | .cvtff c d a p rms => Sys2Proof.Machine.execCvtff c d a p rms s
  | .cvtfh c d a p rms h => Sys2Proof.Machine.execCvtfh c d a p rms h s
  | .cvthf c d a p rms h => Sys2Proof.Machine.execCvthf c d a p rms h s
  | .dadd c d a b => Sys2Proof.Machine.execDadd c d a b s
  | .dsub c d a b => Sys2Proof.Machine.execDsub c d a b s
  | .dtob c d a => Sys2Proof.Machine.execDtob c d a s
  | .btod c d a => Sys2Proof.Machine.execBtod c d a s
  | .movr c a b e sz down stop => Sys2Proof.Machine.execMovr c a b e sz down stop s
  | .fillr c a b e sz down stop => Sys2Proof.Machine.execFillr c a b e sz down stop s
  | .cmpr c d a b e sz down stop => Sys2Proof.Machine.execCmpr c d a b e sz down stop s
  | .scanr c d a b e sz down ne stop => Sys2Proof.Machine.execScanr c d a b e sz down ne stop s
  | .fence c => Sys2Proof.Machine.execFence c s
  | .isync c => Sys2Proof.Machine.execIsync c s
  | .getstw c d => Sys2Proof.Machine.execGetstw c d s
  | .setfps c a => Sys2Proof.Machine.execSetfps c a s
  | .setmode c a => Sys2Proof.Machine.execSetmode c a s
  | .svc c imm => Sys2Proof.Machine.execSvc c imm s
  | .xcall c a => Sys2Proof.Machine.execXcall c a s
  | .xret c => Sys2Proof.Machine.execXret c s
  | .eret c => Sys2Proof.Machine.execEret c s
  | .wait c => Sys2Proof.Machine.execWait c s
  | .mfbw c d a => Sys2Proof.Machine.execMfbw c d a s
  | .mtbw c a b => Sys2Proof.Machine.execMtbw c a b s
  | .brk c => Sys2Proof.Machine.execBrk c s
  | .extensionInstruction c op fn f => Sys2Proof.Machine.execExtensionInstruction c op fn f s
  | .vadd c f => Sys2Proof.Machine.execVadd c f s
  | .vsub c f => Sys2Proof.Machine.execVsub c f s
  | .vmin c f => Sys2Proof.Machine.execVmin c f s
  | .vmax c f => Sys2Proof.Machine.execVmax c f s
  | .vabs c f => Sys2Proof.Machine.execVabs c f s
  | .vneg c f => Sys2Proof.Machine.execVneg c f s
  | .vand c f => Sys2Proof.Machine.execVand c f s
  | .vor c f => Sys2Proof.Machine.execVor c f s
  | .vxor c f => Sys2Proof.Machine.execVxor c f s
  | .vandn c f => Sys2Proof.Machine.execVandn c f s
  | .vshl c f => Sys2Proof.Machine.execVshl c f s
  | .vshr c f => Sys2Proof.Machine.execVshr c f s
  | .vsar c f => Sys2Proof.Machine.execVsar c f s
  | .vcmp c pred f => Sys2Proof.Machine.execVcmp c pred f s
  | .vsel c f => Sys2Proof.Machine.execVsel c f s
  | .vmul c f => Sys2Proof.Machine.execVmul c f s
  | .vmulh c f => Sys2Proof.Machine.execVmulh c f s
  | .vmulw c f => Sys2Proof.Machine.execVmulw c f s
  | .vfma c f => Sys2Proof.Machine.execVfma c f s
  | .vfms c f => Sys2Proof.Machine.execVfms c f s
  | .vfnma c f => Sys2Proof.Machine.execVfnma c f s
  | .vfnms c f => Sys2Proof.Machine.execVfnms c f s
  | .vdiv c f => Sys2Proof.Machine.execVdiv c f s
  | .vrem c f => Sys2Proof.Machine.execVrem c f s
  | .vsqrt c f => Sys2Proof.Machine.execVsqrt c f s
  | .vrsum c aw f => Sys2Proof.Machine.execVrsum c aw f s
  | .vrmin c aw f => Sys2Proof.Machine.execVrmin c aw f s
  | .vrmax c aw f => Sys2Proof.Machine.execVrmax c aw f s
  | .vdot c aw f => Sys2Proof.Machine.execVdot c aw f s
  | .vrcnt c aw f => Sys2Proof.Machine.execVrcnt c aw f s
  | .vcvt c tt f => Sys2Proof.Machine.execVcvt c tt f s
  | .vcvtz c tt f => Sys2Proof.Machine.execVcvtz c tt f s
  | .vmov c tt f => Sys2Proof.Machine.execVmov c tt f s
  | .vcmpr c tt f => Sys2Proof.Machine.execVcmpr c tt f s
  | .vexpz c tt f => Sys2Proof.Machine.execVexpz c tt f s
  | .vexpm c tt f => Sys2Proof.Machine.execVexpm c tt f s
  | .vperm c tt f => Sys2Proof.Machine.execVperm c tt f s
  | .vgath c f => Sys2Proof.Machine.execVgath c f s
  | .vscat c f => Sys2Proof.Machine.execVscat c f s
  | .sadd c f => Sys2Proof.Machine.execSadd c f s
  | .ssub c f => Sys2Proof.Machine.execSsub c f s
  | .smin c f => Sys2Proof.Machine.execSmin c f s
  | .smax c f => Sys2Proof.Machine.execSmax c f s
  | .sabs c f => Sys2Proof.Machine.execSabs c f s
  | .sneg c f => Sys2Proof.Machine.execSneg c f s
  | .sand c f => Sys2Proof.Machine.execSand c f s
  | .sor c f => Sys2Proof.Machine.execSor c f s
  | .sxor c f => Sys2Proof.Machine.execSxor c f s
  | .sandn c f => Sys2Proof.Machine.execSandn c f s
  | .sshl c f => Sys2Proof.Machine.execSshl c f s
  | .sshr c f => Sys2Proof.Machine.execSshr c f s
  | .ssar c f => Sys2Proof.Machine.execSsar c f s
  | .scmp c pred f => Sys2Proof.Machine.execScmp c pred f s
  | .ssel c f => Sys2Proof.Machine.execSsel c f s
  | .smul c f => Sys2Proof.Machine.execSmul c f s
  | .smulh c f => Sys2Proof.Machine.execSmulh c f s
  | .smulwl c f => Sys2Proof.Machine.execSmulwl c f s
  | .smulwh c f => Sys2Proof.Machine.execSmulwh c f s
  | .sfma c f => Sys2Proof.Machine.execSfma c f s
  | .sfms c f => Sys2Proof.Machine.execSfms c f s
  | .sfnma c f => Sys2Proof.Machine.execSfnma c f s
  | .sfnms c f => Sys2Proof.Machine.execSfnms c f s
  | .sdiv c f => Sys2Proof.Machine.execSdiv c f s
  | .srem c f => Sys2Proof.Machine.execSrem c f s
  | .ssqrt c f => Sys2Proof.Machine.execSsqrt c f s
  | .srsum c aw f => Sys2Proof.Machine.execSrsum c aw f s
  | .srmin c aw f => Sys2Proof.Machine.execSrmin c aw f s
  | .srmax c aw f => Sys2Proof.Machine.execSrmax c aw f s
  | .sdot c aw f => Sys2Proof.Machine.execSdot c aw f s
  | .scvt c tt f => Sys2Proof.Machine.execScvt c tt f s
  | .scvtz c tt f => Sys2Proof.Machine.execScvtz c tt f s
  | .smov c tt f => Sys2Proof.Machine.execSmov c tt f s
  | .scmpr c tt f => Sys2Proof.Machine.execScmpr c tt f s
  | .sexpz c tt f => Sys2Proof.Machine.execSexpz c tt f s
  | .sexpm c tt f => Sys2Proof.Machine.execSexpm c tt f s
  | .sperm c tt f => Sys2Proof.Machine.execSperm c tt f s
  | .sld c f => Sys2Proof.Machine.execSld c f s
  | .sst c f => Sys2Proof.Machine.execSst c f s
  | .mand c d a b => Sys2Proof.Machine.execMand c d a b s
  | .mor c d a b => Sys2Proof.Machine.execMor c d a b s
  | .mxor c d a b => Sys2Proof.Machine.execMxor c d a b s
  | .mandn c d a b => Sys2Proof.Machine.execMandn c d a b s
  | .mnot c d a => Sys2Proof.Machine.execMnot c d a s
  | .mpop c d a => Sys2Proof.Machine.execMpop c d a s
  | .mtog c d a => Sys2Proof.Machine.execMtog c d a s
  | .mfromg c d a => Sys2Proof.Machine.execMfromg c d a s
  | .mtail c d a => Sys2Proof.Machine.execMtail c d a s
  | .vdld c v a imm => Sys2Proof.Machine.execVdld c v a imm s
  | .vdst c v a imm => Sys2Proof.Machine.execVdst c v a imm s
  | .vdset c v a sel => Sys2Proof.Machine.execVdset c v a sel s
  | .vdget c d v sel => Sys2Proof.Machine.execVdget c d v sel s
  | .vdadd c v a => Sys2Proof.Machine.execVdadd c v a s
  | .vfence c d => Sys2Proof.Machine.execVfence c d s
  | .vfrd c d h => Sys2Proof.Machine.execVfrd c d h s
  | .vfrclr c => Sys2Proof.Machine.execVfrclr c s
  | .exceptionEntry c e => Sys2Proof.Machine.execExceptionEntry c e s
  | .interruptEntry => Sys2Proof.Machine.execInterruptEntry s
  | .belayLimit => Sys2Proof.Machine.execBelayLimit s
  | .capstanBelayLimit c => Sys2Proof.Machine.execCapstanBelayLimit c s
  | .capstanSwitch c => Sys2Proof.Machine.execCapstanSwitch c s
  | .lockstepMismatch => Sys2Proof.Machine.execLockstepMismatch s
  | .rollbackComplete ok => Sys2Proof.Machine.execRollbackComplete ok s
  | .llEnable w v => Sys2Proof.Machine.execLlEnable w v s
  | .llEnableComplete ok => Sys2Proof.Machine.execLlEnableComplete ok s
  | .llDisable w v => Sys2Proof.Machine.execLlDisable w v s
  | .llDisableComplete => Sys2Proof.Machine.execLlDisableComplete s
  | .spliceAccept => Sys2Proof.Machine.execSpliceAccept s
  | .spliceComplete ix => Sys2Proof.Machine.execSpliceComplete ix s
  | .preemptCheck => Sys2Proof.Machine.execPreemptCheck s
  | .preemptionComplete ix => Sys2Proof.Machine.execPreemptionComplete ix s
  | .pumpFault ix => Sys2Proof.Machine.execPumpFault ix s
  | .splKill w v => Sys2Proof.Machine.execSplKill w v s
  | .splKillComplete => Sys2Proof.Machine.execSplKillComplete s
  | .memoryRead m a => Sys2Proof.Machine.execMemoryRead m a s
  | .memoryWrite m a mask data => Sys2Proof.Machine.execMemoryWrite m a mask data s
  | .tagWaitRelease n => Sys2Proof.Machine.execTagWaitRelease n s
  | .readDataReturn n k lat => Sys2Proof.Machine.execReadDataReturn n k lat s
  | .refresh n => Sys2Proof.Machine.execRefresh n s
  | .scrubStep u => Sys2Proof.Machine.execScrubStep u s
  | .lapOverdue u => Sys2Proof.Machine.execLapOverdue u s
  | .logIntervalEnd => Sys2Proof.Machine.execLogIntervalEnd s
  | .logFlush => Sys2Proof.Machine.execLogFlush s
  | .controlStoreRepair scalar k => Sys2Proof.Machine.execControlStoreRepair scalar k s
  | .setOwner w k => Sys2Proof.Machine.execSetOwner w k s
  | .setRights w k => Sys2Proof.Machine.execSetRights w k s
  | .pin w k => Sys2Proof.Machine.execPin w k s
  | .unpin w k => Sys2Proof.Machine.execUnpin w k s
  | .retire w k => Sys2Proof.Machine.execRetire w k s
  | .read w k => Sys2Proof.Machine.execRead w k s
  | .frameMoveComplete k => Sys2Proof.Machine.execFrameMoveComplete k s
  | .dsChCfg w n v => Sys2Proof.Machine.execDsChCfg w n v s
  | .reservationActive n => Sys2Proof.Machine.execReservationActive n s
  | .eccInjCtl w v => Sys2Proof.Machine.execEccInjCtl w v s
  | .cisOwner w n v => Sys2Proof.Machine.execCisOwner w n v s
  | .handoverComplete n => Sys2Proof.Machine.execHandoverComplete n s
  | .cisPwr w n v => Sys2Proof.Machine.execCisPwr w n v s
  | .powerTransitionComplete n => Sys2Proof.Machine.execPowerTransitionComplete n s
  | .xbCfg w v => Sys2Proof.Machine.execXbCfg w v s
  | .remapComplete => Sys2Proof.Machine.execRemapComplete s
  | .eventFire m => Sys2Proof.Machine.execEventFire m s
  | .guardRelease m => Sys2Proof.Machine.execGuardRelease m s
  | .evrPulse w v => Sys2Proof.Machine.execEvrPulse w v s
  | .ownerChange w r v => Sys2Proof.Machine.execOwnerChange w r v s
  | .countingTick n => Sys2Proof.Machine.execCountingTick n s
  | .periodWrite w n v => Sys2Proof.Machine.execPeriodWrite w n v s
  | .compareWrite w n k v => Sys2Proof.Machine.execCompareWrite w n k v s
  | .captureEdge n => Sys2Proof.Machine.execCaptureEdge n s
  | .frameReceive n bits => Sys2Proof.Machine.execFrameReceive n bits s
  | .receiveTimeout n => Sys2Proof.Machine.execReceiveTimeout n s
  | .smpRxtout w n v => Sys2Proof.Machine.execSmpRxtout w n v s
  | .smpTx w n v => Sys2Proof.Machine.execSmpTx w n v s
  | .serialiserLoad n => Sys2Proof.Machine.execSerialiserLoad n s
  | .safeFrameRepeat n => Sys2Proof.Machine.execSafeFrameRepeat n s
  | .watchdogKick w x v => Sys2Proof.Machine.execWatchdogKick w x v s
  | .watchdogExpire x => Sys2Proof.Machine.execWatchdogExpire x s
  | .capTsk w c t j v => Sys2Proof.Machine.execCapTsk w c t j v s
  | .bar0Write f ix dw be v => Sys2Proof.Machine.execBar0Write f ix dw be v s
  | .bar2Write f off bytes ep => Sys2Proof.Machine.execBar2Write f off bytes ep s
  | .bar2Read f off len => Sys2Proof.Machine.execBar2Read f off len s
  | .linkTrained p gen width => Sys2Proof.Machine.execLinkTrained p gen width s
  | .linkDown p => Sys2Proof.Machine.execLinkDown p s
  | .functionLevelReset f => Sys2Proof.Machine.execFunctionLevelReset f s
  | .msixUnmask f v => Sys2Proof.Machine.execMsixUnmask f v s
  | .mailboxRead w f v => Sys2Proof.Machine.execMailboxRead w f v s
  | .mailboxWrite w f v => Sys2Proof.Machine.execMailboxWrite w f v s
  | .usdoRequest n bus idx sub value segmented => Sys2Proof.Machine.execUsdoRequest n bus idx sub value segmented s
  | .usdoSessionTimeout n => Sys2Proof.Machine.execUsdoSessionTimeout n s
  | .modeRequest k p v => Sys2Proof.Machine.execModeRequest k p v s
  | .wakeLatencyBudget k p v => Sys2Proof.Machine.execWakeLatencyBudget k p v s
  | .partitionLayout k bindings sub value => Sys2Proof.Machine.execPartitionLayout k bindings sub value s
  | .nmtStateChange cmd => Sys2Proof.Machine.execNmtStateChange cmd s
  | .nmtResetCommunication node => Sys2Proof.Machine.execNmtResetCommunication node s
  | .sync bus => Sys2Proof.Machine.execSync bus s
  | .heartbeat => Sys2Proof.Machine.execHeartbeat s
  | .tpdo n => Sys2Proof.Machine.execTpdo n s
  | .busOff bus => Sys2Proof.Machine.execBusOff bus s
  | .busOffRecovery bus => Sys2Proof.Machine.execBusOffRecovery bus s
  | .switchStateGlobal config => Sys2Proof.Machine.execSwitchStateGlobal config s
  | .switchStateSelective id => Sys2Proof.Machine.execSwitchStateSelective id s
  | .configureNodeId n => Sys2Proof.Machine.execConfigureNodeId n s
  | .configureBitTiming nominal data => Sys2Proof.Machine.execConfigureBitTiming nominal data s
  | .storeConfiguration => Sys2Proof.Machine.execStoreConfiguration s
  | .inquireIdentity field => Sys2Proof.Machine.execInquireIdentity field s
  | .inquireNodeId => Sys2Proof.Machine.execInquireNodeId s
  | .identifyRemoteSlave vendor product revLow revHigh serLow serHigh => Sys2Proof.Machine.execIdentifyRemoteSlave vendor product revLow revHigh serLow serHigh s
  | .fastscan idn bitChecked lssSub lssNext => Sys2Proof.Machine.execFastscan idn bitChecked lssSub lssNext s
  | .imageDownload k bytes => Sys2Proof.Machine.execImageDownload k bytes s
  | .clear w => Sys2Proof.Machine.execClear w s
  | .program w => Sys2Proof.Machine.execProgram w s
  | .activate w => Sys2Proof.Machine.execActivate w s
  | .commit w => Sys2Proof.Machine.execCommit w s
  | .keyprog w => Sys2Proof.Machine.execKeyprog w s
  | .firmwareCommandComplete flashOk => Sys2Proof.Machine.execFirmwareCommandComplete flashOk s
  | .drainComplete => Sys2Proof.Machine.execDrainComplete s
  | .drainLimit => Sys2Proof.Machine.execDrainLimit s
  | .depthReached => Sys2Proof.Machine.execDepthReached s
  | .standbySwitchOff => Sys2Proof.Machine.execStandbySwitchOff s
  | .wakeComplete => Sys2Proof.Machine.execWakeComplete s
  | .vinAuxValid level => Sys2Proof.Machine.execVinAuxValid level s
  | .vinAuxLoss => Sys2Proof.Machine.execVinAuxLoss s
  | .vinMainValid level recoveryN split => Sys2Proof.Machine.execVinMainValid level recoveryN split s
  | .vinMainLoss => Sys2Proof.Machine.execVinMainLoss s
  | .supplyOutOfRange main level => Sys2Proof.Machine.execSupplyOutOfRange main level s
  | .lidOutOfRange t => Sys2Proof.Machine.execLidOutOfRange t s
  | .thermalShutdown => Sys2Proof.Machine.execThermalShutdown s
  | .thermalReturn t => Sys2Proof.Machine.execThermalReturn t s
  | .resetNLow => Sys2Proof.Machine.execResetNLow s
  | .resetNHigh => Sys2Proof.Machine.execResetNHigh s
  | .bootComplete trained => Sys2Proof.Machine.execBootComplete trained s
  | .recoveryExit recoveryN => Sys2Proof.Machine.execRecoveryExit recoveryN s
  | .clockMonitorCheck stopped unlocked => Sys2Proof.Machine.execClockMonitorCheck stopped unlocked s
  | .clockRecovery => Sys2Proof.Machine.execClockRecovery s
  | .wordRead a inc => Sys2Proof.Machine.execWordRead a inc s
  | .wordWrite a data inc => Sys2Proof.Machine.execWordWrite a data inc s
  | .registerRead ix inc => Sys2Proof.Machine.execRegisterRead ix inc s
  | .registerWrite ix v inc => Sys2Proof.Machine.execRegisterWrite ix v inc s
  | .consumingRegisterRead ix inc => Sys2Proof.Machine.execConsumingRegisterRead ix inc s
  | .aftarAccessComplete => Sys2Proof.Machine.execAftarAccessComplete s
  | .trstNLow => Sys2Proof.Machine.execTrstNLow s
  | .halt n => Sys2Proof.Machine.execHalt n s
  | .haltTaken c => Sys2Proof.Machine.execHaltTaken c s
  | .resume n => Sys2Proof.Machine.execResume n s
  | .step n => Sys2Proof.Machine.execStep n s
  | .regrd n bank r slice => Sys2Proof.Machine.execRegrd n bank r slice s
  | .regwr n bank r slice => Sys2Proof.Machine.execRegwr n bank r slice s
  | .release n => Sys2Proof.Machine.execRelease n s
  | .dbgFreeze w v => Sys2Proof.Machine.execDbgFreeze w v s
  | .stimulus w world k v => Sys2Proof.Machine.execStimulus w world k v s
  | .syncPacket => Sys2Proof.Machine.execSyncPacket s
  | .controlRegisterWrite w ix v => Sys2Proof.Machine.execControlRegisterWrite w ix v s
  | .frameCommandComplete k => Sys2Proof.Machine.execFrameCommandComplete k s
  | .supplyBackInRange main level => Sys2Proof.Machine.execSupplyBackInRange main level s
  | .lidBackInRange t => Sys2Proof.Machine.execLidBackInRange t s
  | .configurationRequest f item write v => Sys2Proof.Machine.execConfigurationRequest f item write v s
  | .msixTableWrite f v mask addr data => Sys2Proof.Machine.execMsixTableWrite f v mask addr data s
  | .heartbeatReceived n => Sys2Proof.Machine.execHeartbeatReceived n s
  | .heartbeatConsumerTimeout n => Sys2Proof.Machine.execHeartbeatConsumerTimeout n s
  | .errorPassive bus passive => Sys2Proof.Machine.execErrorPassive bus passive s
  | .tracePacketSent => Sys2Proof.Machine.execTracePacketSent s

end Sys2Proof.Machine
end

