-- ==== Sys2Proof/Safety.lean ====
section
/-! DEFINITION. What a safe step is: the block stops for no command, so every step answers a next state. Also the words in
which claims about instructions are stated: which commands are instructions of a core, when one issues, how it ends; and the exact
values with which claims compare arithmetic, reductions and the reasons of an issue. -/

namespace Sys2Proof

open Sys2Proof.Machine

/-- The state that an outcome goes on from. -/
def after (o : Host.Outcome State Fault Refusal) : Option State :=
  match o with
  | .next t => some t
  | .fault _ => none
  | .refused _ => none

/-- The command completes on the state: it neither faults nor is refused. -/
def Completes (c : Instr) (s : State) : Prop := ∃ t, exec c s = .next t

/-- The step from the state answers a next state. -/
def SafeStep (s : State) : Prop := ∃ t, step s = .next t

/-- The core that executes a command which is an instruction; none for the other rows of the opcode table. -/
def Instr.core? : Instr → Option Core
  | .add c _ _ _ | .sub c _ _ _ | .and c _ _ _ | .or c _ _ _ | .xor c _ _ _ | .andn c _ _ _ | .shl c _ _ _
  | .shr c _ _ _ | .sar c _ _ _ | .min c _ _ _ | .minu c _ _ _ | .max c _ _ _ | .maxu c _ _ _ | .sel c _ _ _ _
  | .clz c _ _ | .popc c _ _ | .cmpeq c _ _ _ | .cmpne c _ _ _ | .cmplt c _ _ _ | .cmpltu c _ _ _ | .cmple c _ _ _
  | .cmpleu c _ _ _ | .addc c _ _ _ _ | .addco c _ _ _ _ | .subb c _ _ _ _ | .subbo c _ _ _ _ | .mul c _ _ _
  | .mulw c _ _ _ | .mulwu c _ _ _ | .div c _ _ _ | .divu c _ _ _ | .rem c _ _ _ | .remu c _ _ _ | .addi c _ _ _
  | .andi c _ _ _ | .ori c _ _ _ | .xori c _ _ _ | .shli c _ _ _ | .shri c _ _ _ | .sari c _ _ _ | .cmpeqi c _ _ _
  | .cmplti c _ _ _ | .cmpltui c _ _ _ | .li c _ _ | .lih c _ _ | .ldp c _ _ _ | .ldps c _ _ _ | .ldd c _ _ _
  | .ldds c _ _ _ | .ldq c _ _ _ _ | .ldwp c _ _ _ | .ldf24 c _ _ _ | .ldf48 c _ _ _ | .stp c _ _ _ | .std c _ _ _
  | .stq c _ _ _ | .stwp c _ _ _ | .stf24 c _ _ _ | .stf48 c _ _ _ | .ldl c _ _ _ | .stc c _ _ _ _ | .push c _
  | .pop c _ | .getsp c _ _ | .setsp c _ _ | .bz c _ _ | .bnz c _ _ | .jmp c _ | .jr c _ | .call c _ | .callr c _
  | .ret c | .loop c _ _ | .endloop c | .lcrd c _ _ | .fadd c _ _ _ _ _ | .fsub c _ _ _ _ _ | .fmul c _ _ _ _ _
  | .fdiv c _ _ _ _ _ | .fsqrt c _ _ _ _ | .fmin c _ _ _ _ _ | .fmax c _ _ _ _ _ | .fneg c _ _ _ _ | .fabs c _ _ _ _
  | .fmv c _ _ _ _ | .fma c _ _ _ _ _ _ | .fms c _ _ _ _ _ _ | .fnma c _ _ _ _ _ _ | .fnms c _ _ _ _ _ _
  | .fcmp c _ _ _ _ _ _ | .gtof c _ _ _ _ | .ftog c _ _ _ _ | .cvtif c _ _ _ _ _ | .cvtfi c _ _ _ _ _
  | .cvtff c _ _ _ _ | .cvtfh c _ _ _ _ _ | .cvthf c _ _ _ _ _ | .dadd c _ _ _ | .dsub c _ _ _ | .dtob c _ _
  | .btod c _ _ | .movr c _ _ _ _ _ _ | .fillr c _ _ _ _ _ _ | .cmpr c _ _ _ _ _ _ _ | .scanr c _ _ _ _ _ _ _ _
  | .fence c | .isync c | .getstw c _ | .setfps c _ | .setmode c _ | .svc c _ | .xcall c _ | .xret c | .eret c
  | .wait c | .mfbw c _ _ | .mtbw c _ _ | .brk c | .extensionInstruction c _ _ _ | .vadd c _ | .vsub c _ | .vmin c _
  | .vmax c _ | .vabs c _ | .vneg c _ | .vand c _ | .vor c _ | .vxor c _ | .vandn c _ | .vshl c _ | .vshr c _
  | .vsar c _ | .vcmp c _ _ | .vsel c _ | .vmul c _ | .vmulh c _ | .vmulw c _ | .vfma c _ | .vfms c _ | .vfnma c _
  | .vfnms c _ | .vdiv c _ | .vrem c _ | .vsqrt c _ | .vrsum c _ _ | .vrmin c _ _ | .vrmax c _ _ | .vdot c _ _
  | .vrcnt c _ _ | .vcvt c _ _ | .vcvtz c _ _ | .vmov c _ _ | .vcmpr c _ _ | .vexpz c _ _ | .vexpm c _ _
  | .vperm c _ _ | .vgath c _ | .vscat c _ | .sadd c _ | .ssub c _ | .smin c _ | .smax c _ | .sabs c _ | .sneg c _
  | .sand c _ | .sor c _ | .sxor c _ | .sandn c _ | .sshl c _ | .sshr c _ | .ssar c _ | .scmp c _ _ | .ssel c _
  | .smul c _ | .smulh c _ | .smulwl c _ | .smulwh c _ | .sfma c _ | .sfms c _ | .sfnma c _ | .sfnms c _ | .sdiv c _
  | .srem c _ | .ssqrt c _ | .srsum c _ _ | .srmin c _ _ | .srmax c _ _ | .sdot c _ _ | .scvt c _ _ | .scvtz c _ _
  | .smov c _ _ | .scmpr c _ _ | .sexpz c _ _ | .sexpm c _ _ | .sperm c _ _ | .sld c _ | .sst c _ | .mand c _ _ _
  | .mor c _ _ _ | .mxor c _ _ _ | .mandn c _ _ _ | .mnot c _ _ | .mpop c _ _ | .mtog c _ _ | .mfromg c _ _
  | .mtail c _ _ | .vdld c _ _ _ | .vdst c _ _ _ | .vdset c _ _ _ | .vdget c _ _ _ | .vdadd c _ _ | .vfence c _
  | .vfrd c _ _ | .vfrclr c => some c
  | .exceptionEntry _ _ | .interruptEntry | .belayLimit | .capstanBelayLimit _ | .capstanSwitch _ | .lockstepMismatch
  | .rollbackComplete _ | .llEnable _ _ | .llEnableComplete _ | .llDisable _ _ | .llDisableComplete | .spliceAccept
  | .spliceComplete _ | .preemptCheck | .preemptionComplete _ | .pumpFault _ | .splKill _ _ | .splKillComplete
  | .memoryRead _ _ | .memoryWrite _ _ _ _ | .tagWaitRelease _ | .readDataReturn _ _ _ | .refresh _ | .scrubStep _
  | .lapOverdue _ | .logIntervalEnd | .logFlush | .controlStoreRepair _ _ | .setOwner _ _ | .setRights _ _ | .pin _ _
  | .unpin _ _ | .retire _ _ | .read _ _ | .frameMoveComplete _ | .dsChCfg _ _ _ | .reservationActive _
  | .eccInjCtl _ _ | .cisOwner _ _ _ | .handoverComplete _ | .cisPwr _ _ _ | .powerTransitionComplete _ | .xbCfg _ _
  | .remapComplete | .eventFire _ | .guardRelease _ | .evrPulse _ _ | .ownerChange _ _ _ | .countingTick _
  | .periodWrite _ _ _ | .compareWrite _ _ _ _ | .captureEdge _ | .frameReceive _ _ | .receiveTimeout _
  | .smpRxtout _ _ _ | .smpTx _ _ _ | .serialiserLoad _ | .safeFrameRepeat _ | .watchdogKick _ _ _
  | .watchdogExpire _ | .capTsk _ _ _ _ _ | .bar0Write _ _ _ _ _ | .bar2Write _ _ _ _ | .bar2Read _ _ _
  | .linkTrained _ _ _ | .linkDown _ | .functionLevelReset _ | .msixUnmask _ _ | .mailboxRead _ _ _
  | .mailboxWrite _ _ _ | .usdoRequest _ _ _ _ _ _ | .usdoSessionTimeout _ | .modeRequest _ _ _
  | .wakeLatencyBudget _ _ _ | .partitionLayout _ _ _ _ | .nmtStateChange _ | .nmtResetCommunication _ | .sync _
  | .heartbeat | .tpdo _ | .busOff _ | .busOffRecovery _ | .switchStateGlobal _ | .switchStateSelective _
  | .configureNodeId _ | .configureBitTiming _ _ | .storeConfiguration | .inquireIdentity _ | .inquireNodeId
  | .identifyRemoteSlave _ _ _ _ _ _ | .fastscan _ _ _ _ | .imageDownload _ _ | .clear _ | .program _ | .activate _
  | .commit _ | .keyprog _ | .firmwareCommandComplete _ | .drainComplete | .drainLimit | .depthReached
  | .standbySwitchOff | .wakeComplete | .vinAuxValid _ | .vinAuxLoss | .vinMainValid _ _ _ | .vinMainLoss
  | .supplyOutOfRange _ _ | .lidOutOfRange _ | .thermalShutdown | .thermalReturn _ | .resetNLow | .resetNHigh
  | .bootComplete _ | .recoveryExit _ | .clockMonitorCheck _ _ | .clockRecovery | .wordRead _ _ | .wordWrite _ _ _
  | .registerRead _ _ | .registerWrite _ _ _ | .consumingRegisterRead _ _ | .aftarAccessComplete | .trstNLow
  | .halt _ | .haltTaken _ | .resume _ | .step _ | .regrd _ _ _ _ | .regwr _ _ _ _ | .release _ | .dbgFreeze _ _
  | .stimulus _ _ _ _ | .syncPacket | .controlRegisterWrite _ _ _ | .frameCommandComplete _ | .supplyBackInRange _ _
  | .lidBackInRange _ | .configurationRequest _ _ _ _ | .msixTableWrite _ _ _ _ _ | .heartbeatReceived _
  | .heartbeatConsumerTimeout _ | .errorPassive _ _ | .tracePacketSent => none

/-- The rules of an instruction's place that depend on its kind and its fixed count alone (R387, R394, R401). -/
def placeInfo (kind : InsKind) (cost : Option Nat) : InsInfo := { legal := true, kind, cost := fun _ => cost }

/-- Core `c` issues an instruction of a kind and fixed count in state `s`, and `u` is the state after its fetch: the core runs,
the fetch succeeds, no chain is open, and the instruction may stand where PC is. -/
structure Issues (kind : InsKind) (cost : Option Nat) (s u : State) (c : Core) : Prop where
  runs : coreRuns s c = true
  fetched : fetchIns s c = .ok () u
  chain : (ctxOf u c).chain = []
  placed : placeIllegal u c (placeInfo kind cost) = false

/-- As `Issues`, for an instruction that names lazy state (R427): `w` is the state after the fill that it triggers, if one is due, which no
interrupt of the lifeline core abandons in a delay slot (R382). -/
structure IssuesLazy (kind : InsKind) (cost : Option Nat) (s u w : State) (c : Core) : Prop where
  issues : Issues kind cost s u c
  filled : lazyFill u c = .ok () w
  quiet : c.val = 4 → fillDue u 4 = true → slotIrq u = none

/-- As `Issues`, for a stream instruction `x` that joins the open chain, with any chain open (R219, R222); `u` is the state after its fetch and
the reads of the dispatch entries that its chain names (R472). -/
structure IssuesStream (x : SIns) (s u : State) (c : Core) : Prop where
  runs : coreRuns s c = true
  fetched : ∃ v, fetchIns s c = .ok () v ∧ entryReads c x v = u
  placed : placeIllegal u c (placeInfo .stream (some 1)) = false

/-- The instruction has had its effect in `t` and completes: execution goes on at the next instruction (R315, R386, R392), and a step
of the probe ends (R604). -/
def completes (t : State) (c : Nat) : State := endStep (retire t c) c

/-- The instruction has had its effect in `t`, a branch: taken to `target`, or not taken (R326, R386). -/
def branches (t : State) (c : Nat) (target : Option Addr) : State := endStep (takeBranch t c target) c

/-- The instruction has had its effect in `t`, the place where execution goes on included. -/
def continues (t : State) (c : Nat) : State := endStep (passShadow t c) c

/-- An extension instruction has VALID in its dispatch entry (R463); every other stream instruction needs none. -/
def extensionValid (s : State) : Instr → Bool
  | .extensionInstruction _ op _ _ => bit (dispatchEntry s (0xE0 + op.toNat)) 14
  | _ => true

/-- A short-vector instruction that is one element operation on each lane: the operation, its fields, the type of the result's lanes, its
fixed count (R298, R299, R384). -/
def Instr.lanewise? : Instr → Option (ElemOp × StreamFields × BitVec 4 × Option Nat)
  | .sadd _ f => some (.add, f, f.ot, some 2)
  | .ssub _ f => some (.sub, f, f.ot, some 2)
  | .smin _ f => some (.min, f, f.ot, some 2)
  | .smax _ f => some (.max, f, f.ot, some 2)
  | .sabs _ f => some (.abs, f, f.ot, some 2)
  | .sneg _ f => some (.neg, f, f.ot, some 2)
  | .sand _ f => some (.and, f, f.ot, some 2)
  | .sor _ f => some (.or, f, f.ot, some 2)
  | .sxor _ f => some (.xor, f, f.ot, some 2)
  | .sandn _ f => some (.andn, f, f.ot, some 2)
  | .sshl _ f => some (.shl, f, f.ot, some 2)
  | .sshr _ f => some (.shr, f, f.ot, some 2)
  | .ssar _ f => some (.sar, f, f.ot, some 2)
  | .smul _ f => some (.mul, f, f.ot, some 3)
  | .smulh _ f => some (.mulh, f, f.ot, some 3)
  | .smulwl _ f => some (.mulw, f, nextWider f.ot, some 3)
  | .sfma _ f => some (.fma, f, f.ot, some 4)
  | .sfms _ f => some (.fms, f, f.ot, some 4)
  | .sfnma _ f => some (.fnma, f, f.ot, some 4)
  | .sfnms _ f => some (.fnms, f, f.ot, some 4)
  | .sdiv _ f => some (.div, f, f.ot, divideCost f.ot 8 14)
  | .srem _ f => some (.rem, f, f.ot, none)
  | .ssqrt _ f => some (.sqrt, f, f.ot, divideCost f.ot 10 16)
  | .smov _ _ f => some (.mov, f, f.ot, some 2)
  | _ => none

/-- Every word of the scalar control store reads clean, so that no microcode of a core meets another (R467, R473, R474). -/
def MicrocodeSound (s : State) : Prop := ∀ x ∈ s.mem.entries, 0x58000000 ≤ x.1 → x.1 < 0x5800C000 → decodeWord x.2 = .clean

/-- No host request waits on a port, and no refused access waits for its effect on its master: so it is between commands, host requests that meet
a moving frame or cistern apart (R32, R526). -/
def Quiet (s : State) : Prop := s.hostQueue = [] ∧ s.store.refused = []

/-- Every line of the caches has its eight words, and those of L2 are free of errors. -/
def CachesSound (s : State) : Prop :=
  (∀ e ∈ s.store.l2.entries, e.2.words.length = 8 ∧ ∀ x ∈ e.2.words, x.err = 0 ∧ x.fold = 0 ∧ x.poison = false) ∧
  ∀ e ∈ s.store.l1.entries, ∀ l ∈ e.2, l.words.length = 8

/-- A writer's writes of register `i` reach its block: the device is powered, a core runs and its stores are visible, boot firmware is at work in BRING-UP, a host's function
is reachable with its BARs on and no request waiting on a port, outside BRING-UP, and in READY the register is one that answers (R21, R357, R520, R522, R546, R562, R564). Aftar writes by
its own rows. -/
def Reaches (s : State) (w : Writer) (i : Nat) : Prop :=
  s.pwr.aux = true ∧
  match w with
  | .scalar c => coreRuns s c = true ∧ storesPending s c = false
  | .lifeline => coreRuns s 4 = true ∧ storesPending s 4 = false
  | .host f => s.hostQueue = [] ∧ reachable s f = true ∧ barsOn s f = true ∧ inBringUp s = false ∧ (inReady s = true → answersInReady i = true)
  | .aftar => False
  | .boot => inBringUp s = true

/-! The values that arithmetic gives, in exact numbers: what claims compare the operations of every engine with. -/

/-- An exact integer result in type `t`: wrapped, or under SAT clamped to the range of R50, with SAT status (R290). -/
def Reduced (t : BitVec 4) (sat : Bool) (i : ℤ) (o : Out) : Prop :=
  let w := typeBits t
  let lo : ℤ := if isSigned t then -2 ^ (w - 1) else 0
  let hi : ℤ := if isSigned t then 2 ^ (w - 1) - 1 else 2 ^ w - 1
  o.fl = 0 ∧ o.v < 2 ^ w ∧ (o.sat = true ↔ sat = true ∧ (i < lo ∨ hi < i)) ∧
    (o.v : ℤ) % 2 ^ w = (if sat = true ∧ i < lo then lo else if sat = true ∧ hi < i then hi else i) % 2 ^ w

/-- Magnitude number `n` of a format, counted from zero upwards, the exponents going on above the largest finite value (R61, R365). -/
def magnitude (m : Fmt) (n : Nat) : ℚ :=
  if n < 2 ^ m.f then (n : ℚ) * 2 ^ (1 - (m.bias : ℤ) - m.f)
  else (2 ^ m.f + n % 2 ^ m.f : ℕ) * 2 ^ ((n / 2 ^ m.f : ℕ) - (m.bias : ℤ) - m.f)

/-- The encoding without its sign. -/
def unsigned (m : Fmt) (x : Nat) : Nat := x % 2 ^ (m.e + m.f)

/-- The value of a finite encoding (R61). -/
def number (m : Fmt) (x : Nat) : ℚ := (if m.sign x then -1 else 1) * magnitude m (unsigned m x)

/-- An encoding from its sign and the rest. -/
def encoding (m : Fmt) (neg : Bool) (n : Nat) : Nat := (if neg then 2 ^ (m.e + m.f) else 0) + n

/-- A magnitude between the neighbours `lo`, `odd` or not, and `hi` rounds to `hi` (R64); `d q` has the sign of the magnitude less `q`. -/
def roundsUp (rm : BitVec 3) (neg odd : Bool) (lo hi : ℚ) (d : ℚ → ℚ) : Bool :=
  let mid := (lo + hi) / 2
  match rm.toNat with
  | 0 => decide (0 < d mid) || (decide (d mid = 0) && odd)
  | 2 => !neg && decide (0 < d lo)
  | 3 => neg && decide (0 < d lo)
  | 4 => decide (0 ≤ d mid)
  | _ => false

/-- `o` is a non-zero exact value rounded once into a format: overflow by the table of R365, tininess by R367, flush-to-zero by R66, NX and UF where
inexact. The magnitude of the value is given by `d`: `d q` has the sign of the magnitude less `q`. -/
def Rounded (m : Fmt) (md : FMode) (neg : Bool) (d : ℚ → ℚ) (o : Out) : Prop :=
  let infinity := m.top * 2 ^ m.f
  let beyond : Bool := md.rm == 0 || md.rm == 4 || (md.rm == 2 && !neg) || (md.rm == 3 && neg)
  let overflow : Out := { v := encoding m neg (if beyond then infinity else infinity - 1), fl := 5 }
  let normal := magnitude m (2 ^ m.f)
  let below := normal - normal / 2 ^ (m.f + 1)
  (0 ≤ d (magnitude m infinity) → o = overflow) ∧
  ∀ n, n < infinity → 0 ≤ d (magnitude m n) → d (magnitude m (n + 1)) < 0 →
    let r := if roundsUp md.rm neg (n % 2 == 1) (magnitude m n) (magnitude m (n + 1)) d then n + 1 else n
    let tiny : Bool := decide (n < 2 ^ m.f) && !(decide (0 ≤ d below) && roundsUp md.rm neg true below normal d)
    let inexact : Bool := decide (0 < d (magnitude m n))
    (r = infinity → o = overflow) ∧
    (r ≠ infinity → tiny = true → md.ftz = true → o = { v := encoding m neg 0, fl := 3 }) ∧
    (r ≠ infinity → tiny = false ∨ md.ftz = false →
      o = { v := encoding m neg r, fl := (if inexact then 1 else 0) ||| (if tiny && inexact then 2 else 0) })

/-- `o` is the exact value `v` in a format, a zero with the sign `zero` (R363). -/
def Delivered (m : Fmt) (md : FMode) (v : ℚ) (zero : Bool) (o : Out) : Prop :=
  (v = 0 → o = { v := encoding m zero 0 }) ∧ (v ≠ 0 → Rounded m md (decide (v < 0)) (fun q => |v| - q) o)

/-- `o` is the first NaN of the operands, quieted; a signalling one raises NV (R63). -/
def FirstNan (m : Fmt) (l : List Nat) (o : Out) : Prop :=
  ∃ x, l.find? m.isNan = some x ∧ o = { v := x ||| 2 ^ (m.f - 1), fl := if l.any m.isSnan then 16 else 0 }

/-- An operand as denormals-are-zero reads it (R66). -/
def readAs (m : Fmt) (daz : Bool) (x : Nat) : Nat := if daz ∧ unsigned m x < 2 ^ m.f then encoding m (m.sign x) 0 else x

/-- `o` is an exact sum of two finite values, whose signs decide that of a zero (R363). -/
def Sum (m : Fmt) (md : FMode) (p : ℚ) (negp : Bool) (q : ℚ) (negq : Bool) (o : Out) : Prop :=
  Delivered m md (p + q) (if p = 0 ∧ q = 0 ∧ negp = negq then negp else md.rm == 3) o

/-- `o` is ±(`x` × `y`) ± `z` with one rounding, the product negated under `np` and `z` under `nc` (R278, R291, R363, R364). -/
def Fused (m : Fmt) (md : FMode) (np nc : Bool) (x y z : Nat) (o : Out) : Prop :=
  let sp := (m.sign x != m.sign y) != np
  let sz := m.sign z != nc
  let wild := (m.isInf x && m.isZero y) || (m.isZero x && m.isInf y)
  let nan := m.isNan x || m.isNan y || m.isNan z
  (wild = true → o = { v := if m.isNan z && !m.isSnan z then z else m.defaultNan, fl := 16 }) ∧
  (wild = false → nan = true → FirstNan m [x, y, z] o) ∧
  (wild = false → nan = false →
    ((m.isInf x || m.isInf y) = true →
      (m.isInf z = true → sz ≠ sp → o = { v := m.defaultNan, fl := 16 }) ∧ (m.isInf z = false ∨ sz = sp → o = { v := encoding m sp (m.top * 2 ^ m.f) })) ∧
    ((m.isInf x || m.isInf y) = false →
      (m.isInf z = true → o = { v := encoding m sz (m.top * 2 ^ m.f) }) ∧
      (m.isInf z = false → Sum m md (if np then -(number m x * number m y) else number m x * number m y) sp (if nc then -number m z else number m z) sz o)))

/-- One operand of a tree with those to its right (R249): an empty one passes the other through; the flags and the SAT status of a step are added. -/
def joined (step : Nat → Nat → Out) (p q : Option Nat × FFlags × Bool) : Option Nat × FFlags × Bool :=
  match p.1, q.1 with
  | some a, some b => (some (step a b).v, p.2.1 ||| q.2.1 ||| (step a b).fl, p.2.2 || q.2.2 || (step a b).sat)
  | none, b => (b, p.2.1 ||| q.2.1, p.2.2 || q.2.2)
  | a, none => (a, p.2.1 ||| q.2.1, p.2.2 || q.2.2)

/-- The combining tree of R249 over 2^j accumulators from number `k` on. -/
def tree (step : Nat → Nat → Out) (acc : List (Option Nat)) : Nat → Nat → Option Nat × FFlags × Bool
  | 0, k => (acc.getD k none, 0, false)
  | j + 1, k => joined step (tree step acc j k) (tree step acc j (k + 2 ^ j))

/-- A reason of R223 that is checked at the closing instruction, by its code, applies to the splice of instructions `ins` with the descriptors
`l`. -/
def IssueCause (s : State) (o : OwnerCode) (ins : List SIns) (l : Captured) (k : Nat) : Prop :=
  let pipes := ins.flatMap (SIns.pipes s)
  let type : Desc → Nat := fun d => (bits d 40 4 : BitVec 4).toNat
  let gen : Desc → Nat := fun d => (bits d 44 2 : BitVec 2).toNat
  let names : SIns → Role → Desc → Prop := fun x r d => (x.key r).map (capturedAt l) = some d
  match k with
  | 1 => ∃ d ∈ l, 12 ≤ type d.2
  | 2 => ∃ d ∈ l, 2 ≤ gen d.2 ∨ bits d.2 48 24 ≠ (0 : BitVec 24) ∨ (bit d.2 47 = true ∧ (gen d.2 = 1 ∨ type d.2 ∈ [8, 10, 11]))
  | 3 => ∃ x ∈ ins, typeClash s ins l x = true
  | 4 => 4 < (pipes.filter (· < 6)).dedup.length
  | 5 => ¬ pipes.Nodup
  | 6 => 3 < (l.filter (fun x => x.1.toNat < 16)).length
  | 7 => 2 < (l.filter (fun x => 16 ≤ x.1.toNat)).length
  | 8 => ¬ ∃ n, (∃ x ∈ ins, ∃ r d, names x r d ∧ gen d ≠ 1 ∧ x.single s r = false) ∧
      ∀ x ∈ ins, ∀ r d, names x r d → gen d ≠ 1 → (bits d 108 36 : BitVec 36).toNat = (if x.single s r then 1 else n)
  | 9 => ∃ d ∈ l, spanOk (Desc.span d.2) = false
  | 10 => o ≠ 8 ∧ (weightOf s o).1 = 0
  | 12 => ∃ x, ins[ins.length - 1]? = some x ∧ badLink s ins (ins.length - 1) x = true
  | _ => False

end Sys2Proof
end

