-- ==== Sys2Proof/Certificates/Slice0/Obligations.lean ====
section
/-! DEFINITION. The statements for the provers. Each says what the block does by a rule of spec/; a statement about an instruction says that
it completes, with the next state that its rule gives. -/

open Sys2Proof Sys2Proof.Machine

/-! ### Commands and steps -/

/-- A step takes the command at the front of the queue and runs it on the state with the queue's rest; on an empty queue one slow event tick passes (the
model's choice, log 13). -/
def Obligations.StepRunsFront : Prop :=
  (∀ (s : State) (i : Instr) (rest : List Instr), s.pending = i :: rest → step s = exec i { s with pending := rest }) ∧
  (∀ s : State, s.pending = [] → step s = .next (slowTick s))

/-- Every command completes from every state, leaves the queue of waiting commands as it stands, and keeps the canonical form of memory, so every step
keeps that form; memory has it at reset. -/
def Obligations.EveryStepKeepsMemoryForm : Prop :=
  (∀ (i : Instr) (s : State), ∃ t, exec i s = .next t ∧ t.pending = s.pending ∧ (Memory.wf s.mem = true → Memory.wf t.mem = true)) ∧
  (∀ s t : State, Memory.wf s.mem = true → step s = .next t → Memory.wf t.mem = true) ∧ Memory.wf State.reset.mem = true

/-- An instruction of a core that does not run changes nothing (R452, R549, R555, R603). -/
def Obligations.StoppedCoreKeepsState : Prop :=
  ∀ (i : Instr) (c : Core) (s : State), i.core? = some c → coreRuns s c = false → exec i s = .next s

/-! ### Scalar integer instructions (R309 to R321) -/

/-- G0 reads as zero and a write of it is discarded; a write of another register is read back and leaves the rest (R309, R311). -/
def Obligations.GeneralRegisters : Prop :=
  ∀ (s : State) (c a d : Nat) (v : W48),
    getG s c 0 = 0 ∧ getG (setG s c d v) c a = (if a ≠ 0 ∧ a = d then v else getG s c a) ∧
    (∀ n, getFr (setG s c d v) c n = getFr s c n) ∧ (ctxOf (setG s c d v) c).stw = (ctxOf s c).stw ∧
    pcOf (setG s c d v) c = pcOf s c

/-- The integer operations and compares (R318, R319): each writes Gd and the instruction completes. -/
def Obligations.IntegerResults : Prop :=
  ∀ (s u : State) (c : Core) (d a b e : Reg), Issues .plain (some 1) s u c →
    let x := getG u c a
    let y := getG u c b
    let z := getG u c e
    let gives : Instr → W48 → Prop := fun i v => exec i s = .next (completes (setG u c d v) c)
    let n := y.toNat
    gives (.add c d a b) (x + y) ∧ gives (.sub c d a b) (x - y) ∧ gives (.and c d a b) (x &&& y) ∧
    gives (.or c d a b) (x ||| y) ∧ gives (.xor c d a b) (x ^^^ y) ∧ gives (.andn c d a b) (x &&& ~~~y) ∧
    gives (.shl c d a b) (if 48 ≤ n then 0 else x <<< n) ∧ gives (.shr c d a b) (if 48 ≤ n then 0 else x >>> n) ∧
    gives (.sar c d a b) (if 48 ≤ n then (if x.msb then BitVec.allOnes 48 else 0) else x.sshiftRight n) ∧
    gives (.min c d a b) (if x.toInt ≤ y.toInt then x else y) ∧ gives (.minu c d a b) (if x.toNat ≤ y.toNat then x else y) ∧
    gives (.max c d a b) (if x.toInt ≤ y.toInt then y else x) ∧ gives (.maxu c d a b) (if x.toNat ≤ y.toNat then y else x) ∧
    gives (.sel c d a b e) (if x ≠ 0 then y else z) ∧
    (∃ k, k ≤ 48 ∧ (∀ i, i < k → x.getLsbD (47 - i) = false) ∧ (k < 48 → x.getLsbD (47 - k) = true) ∧
      gives (.clz c d a) (BitVec.ofNat 48 k)) ∧
    gives (.popc c d a) (BitVec.ofNat 48 ((List.range 48).filter (fun i => x.getLsbD i)).length) ∧
    gives (.cmpeq c d a b) (if x = y then 1 else 0) ∧ gives (.cmpne c d a b) (if x ≠ y then 1 else 0) ∧
    gives (.cmplt c d a b) (if x.toInt < y.toInt then 1 else 0) ∧ gives (.cmpltu c d a b) (if x.toNat < y.toNat then 1 else 0) ∧
    gives (.cmple c d a b) (if x.toInt ≤ y.toInt then 1 else 0) ∧ gives (.cmpleu c d a b) (if x.toNat ≤ y.toNat then 1 else 0)

/-- Carries, products, quotients and remainders (R280, R320): a zero divisor sets DZ, bit 3 of STW, and no other flag; no operand raises
an exception. The register of a pair is even; a write of G0 is discarded. -/
def Obligations.WideArithmetic : Prop :=
  ∀ (s u : State) (c : Core) (d a b e : Reg),
    let x := getG u c a
    let y := getG u c b
    let z := getG u c e
    let p := x.toInt * y.toInt
    let q := x.toNat * y.toNat
    let stw := (ctxOf u c).stw ||| (if y = 0 then 8 else 0)
    let gives : Instr → W48 → Prop := fun i v => exec i s = .next (completes (setG u c d v) c)
    let divides : Instr → W48 → Prop := fun i v => exec i s = .next (completes (setG (setStw u c stw) c d v) c)
    (Issues .plain (some 1) s u c →
      gives (.addc c d a b e) (BitVec.ofNat 48 (x.toNat + y.toNat + z.toNat % 2)) ∧
      gives (.addco c d a b e) (if 2 ^ 48 ≤ x.toNat + y.toNat + z.toNat % 2 then 1 else 0) ∧
      gives (.subb c d a b e) (BitVec.ofInt 48 ((x.toNat : Int) - y.toNat - z.toNat % 2)) ∧
      gives (.subbo c d a b e) (if x.toNat < y.toNat + z.toNat % 2 then 1 else 0)) ∧
    (Issues .plain (some 2) s u c → gives (.mul c d a b) (BitVec.ofNat 48 q)) ∧
    (Issues .plain (some 3) s u c → d.val % 2 = 0 →
      exec (.mulw c d a b) s =
        .next (completes (setG (setG u c d (BitVec.ofInt 48 p)) c (d.val + 1) (BitVec.ofInt 48 (p / 2 ^ 48))) c) ∧
      exec (.mulwu c d a b) s =
        .next (completes (setG (setG u c d (BitVec.ofNat 48 q)) c (d.val + 1) (BitVec.ofNat 48 (q / 2 ^ 48))) c)) ∧
    (Issues .plain none s u c →
      divides (.div c d a b) (if y = 0 then BitVec.allOnes 48 else BitVec.ofInt 48 (x.toInt.tdiv y.toInt)) ∧
      divides (.divu c d a b) (if y = 0 then BitVec.allOnes 48 else BitVec.ofNat 48 (x.toNat / y.toNat)) ∧
      divides (.rem c d a b) (if y = 0 then x else BitVec.ofInt 48 (x.toInt.tmod y.toInt)) ∧
      divides (.remu c d a b) (if y = 0 then x else BitVec.ofNat 48 (x.toNat % y.toNat)))

/-- The immediate and constant instructions (R316, R321): immediates are signed; a shift names its count in bits 5:0 with bits 19:6 zero,
and LIH has bits 29:18 of its immediate zero. -/
def Obligations.ImmediateResults : Prop :=
  ∀ (s u : State) (c : Core) (d a : Reg) (imm : BitVec 20) (k : BitVec 30), Issues .plain (some 1) s u c →
    let x := getG u c a
    let y : W48 := BitVec.ofInt 48 imm.toInt
    let n := imm.toNat
    let gives : Instr → W48 → Prop := fun i v => exec i s = .next (completes (setG u c d v) c)
    gives (.addi c d a imm) (x + y) ∧ gives (.andi c d a imm) (x &&& y) ∧ gives (.ori c d a imm) (x ||| y) ∧
    gives (.xori c d a imm) (x ^^^ y) ∧
    (n < 64 → gives (.shli c d a imm) (if 48 ≤ n then 0 else x <<< n) ∧ gives (.shri c d a imm) (if 48 ≤ n then 0 else x >>> n) ∧
      gives (.sari c d a imm) (if 48 ≤ n then (if x.msb then BitVec.allOnes 48 else 0) else x.sshiftRight n)) ∧
    gives (.cmpeqi c d a imm) (if x = y then 1 else 0) ∧ gives (.cmplti c d a imm) (if x.toInt < imm.toInt then 1 else 0) ∧
    gives (.cmpltui c d a imm) (if x.toNat < y.toNat then 1 else 0) ∧
    gives (.li c d k) (BitVec.ofInt 48 k.toInt) ∧
    (k.toNat < 2 ^ 18 → gives (.lih c d k) (BitVec.ofNat 48 (2 ^ 30 * k.toNat + (getG u c d).toNat % 2 ^ 30)))

/-! ### Loads, stores, stacks (R322 to R325, R335) -/

/-- Loads (R322, R323, R427): when the access at (Ga + IMM20) mod 2^40 delivers its plies, the register takes them: zero-extended, sign-extended,
as a pair, or boxed. `w` is the state in which the access is made, after the fetch and any lazy-area fill. -/
def Obligations.LoadResults : Prop :=
  ∀ (s u w t : State) (c : Core) (d a : Reg) (imm : BitVec 20) (v : Nat),
    let place : State → Nat := fun z => ((getG z c a).toNat + (BitVec.ofInt 48 imm.toInt).toNat) % 2 ^ 40
    let loads : Nat → Prop := fun n => Issues .plain (accessCost w (place w) n false) s w c ∧ loadAligned w c (place w) n = .ok v t
    let fills : Nat → Prop := fun n =>
      IssuesLazy .plain (accessCost u (place u) n false) s u w c ∧ loadAligned w c (place w) n = .ok v t
    let gives : Instr → State → Prop := fun i z => exec i s = .next (completes z c)
    (loads 1 → gives (.ldp c d a imm) (setG t c d (BitVec.ofNat 48 v)) ∧
      gives (.ldps c d a imm) (setG t c d (BitVec.ofInt 48 (BitVec.ofNat 12 v).toInt))) ∧
    (loads 2 → gives (.ldd c d a imm) (setG t c d (BitVec.ofNat 48 v)) ∧
      gives (.ldds c d a imm) (setG t c d (BitVec.ofInt 48 (BitVec.ofNat 24 v).toInt))) ∧
    (loads 4 → gives (.ldq c d a imm none) (setG t c d (BitVec.ofNat 48 v))) ∧
    (loads 6 → d.val % 2 = 0 → gives (.ldwp c d a imm)
      (setG (setG t c d (BitVec.ofNat 48 v)) c (d.val + 1) (BitVec.ofNat 48 (v / 2 ^ 48)))) ∧
    (fills 2 → gives (.ldf24 c d a imm) (setFr t c d (BitVec.ofNat 48 (0xFFFFFF000000 + v % 2 ^ 24)))) ∧
    (fills 4 → gives (.ldf48 c d a imm) (setFr t c d (BitVec.ofNat 48 v)))

/-- Stores (R322, R323, R427): the plies that Gb or Fb gives are stored at (Ga + IMM20) mod 2^40. A store outside the
control-register region changes no general register and no F register; one into it acts as the registers that it writes do. -/
def Obligations.StoreResults : Prop :=
  ∀ (s u w t : State) (c : Core) (a b : Reg) (imm : BitVec 20),
    let place : State → Nat := fun z => ((getG z c a).toNat + (BitVec.ofInt 48 imm.toInt).toNat) % 2 ^ 40
    let x := (getG w c b).toNat
    let f := (getFr w c b).toNat
    let stores : Nat → Nat → Prop := fun n v =>
      Issues .plain (accessCost w (place w) n true) s w c ∧ storeAligned w c (place w) n v = .ok () t
    let fills : Nat → Nat → Prop := fun n v =>
      IssuesLazy .plain (accessCost u (place u) n true) s u w c ∧ storeAligned w c (place w) n v = .ok () t
    let gives : Instr → Prop := fun i => exec i s = .next (completes t c)
    (∀ n v : Nat, inRegisters (place w) n = false → storeAligned w c (place w) n v = .ok () t →
      (ctxOf t c).g = (ctxOf w c).g ∧ (ctxOf t c).f = (ctxOf w c).f) ∧
    (stores 1 (x % 2 ^ 12) → gives (.stp c a b imm)) ∧ (stores 2 (x % 2 ^ 24) → gives (.std c a b imm)) ∧
    (stores 4 x → gives (.stq c a b imm)) ∧
    (b.val % 2 = 0 → stores 6 (x + (getG w c (b.val + 1)).toNat % 2 ^ 24 * 2 ^ 48) → gives (.stwp c a b imm)) ∧
    (fills 2 (f % 2 ^ 24) → gives (.stf24 c a b imm)) ∧ (fills 4 f → gives (.stf48 c a b imm))

/-- LDL and STC (R335, R336): LDL sets the reservation on the word of its plies; STC stores, and writes 1, while the reservation is set on its
word, and otherwise stores nothing and writes 0; it clears the reservation in both cases. -/
def Obligations.LinkedAccess : Prop :=
  ∀ (s u t : State) (c : Core) (d a b : Reg) (imm : BitVec 20) (v : Nat),
    let p : Nat := ((getG u c a).toNat + (BitVec.ofInt 48 imm.toInt).toNat) % 2 ^ 40
    let free : State → State := fun z => setCore z c { coreOf z c with reservation := none }
    (pumpRegion p).isSome = true → plyInWord p = 0 ∨ plyInWord p = 2 →
    (Issues .plain (accessCost u p 4 false) s u c → coreLoad u c p 4 = .ok v t →
      exec (.ldl c d a imm) s =
        .next (completes (setG (setCore t c { coreOf t c with reservation := some (p - plyInWord p) }) c d (BitVec.ofNat 48 v)) c)) ∧
    (Issues .plain (accessCost u p 4 true) s u c → (coreOf u c).reservation = some (p - plyInWord p) →
      coreStore u c p 4 (getG u c b).toNat = .ok () t → exec (.stc c d a b imm) s = .next (completes (setG (free t) c d 1) c)) ∧
    (Issues .plain (accessCost u p 4 true) s u c → (coreOf u c).reservation ≠ some (p - plyInWord p) →
      waitsFor u c p 4 .write = false → exec (.stc c d a b imm) s = .next (completes (setG (free u) c d 0) c))

/-- PUSH, POP, GETSP and SETSP (R324, R419): DSP and RSP are those of the current level; SSP is written at safety-world supervisor level, and SETSP of it elsewhere
raises PRIVILEGE (R421). -/
def Obligations.StackPointers : Prop :=
  ∀ (s u t : State) (c : Core) (d a : Reg) (v : Nat),
    let x := ctxOf u c
    let dsp := if bit x.stw 12 then x.dspS else x.dspU
    let rsp := if bit x.stw 12 then x.rspS else x.rspU
    let lower : Ctx → Addr → Ctx := fun y q => if bit y.stw 12 then { y with dspS := q } else { y with dspU := q }
    let lowerR : Ctx → Addr → Ctx := fun y q => if bit y.stw 12 then { y with rspS := q } else { y with rspU := q }
    let g : Addr := BitVec.ofNat 40 (getG u c a).toNat
    (Issues .plain (accessCost u (dsp - 4).toNat 4 true) s u c → storeAligned u c (dsp - 4).toNat 4 (getG u c a).toNat = .ok () t →
      exec (.push c a) s = .next (completes (setCtx t c (lower (ctxOf t c) (dsp - 4))) c)) ∧
    (Issues .plain (accessCost u dsp.toNat 4 false) s u c → loadAligned u c dsp.toNat 4 = .ok v t →
      exec (.pop c d) s = .next (completes (setG (setCtx t c (lower (ctxOf t c) (dsp + 4))) c d (BitVec.ofNat 48 v)) c)) ∧
    (Issues .plain (some 1) s u c →
      exec (.getsp c d 0) s = .next (completes (setG u c d (BitVec.ofNat 48 dsp.toNat)) c) ∧
      exec (.getsp c d 1) s = .next (completes (setG u c d (BitVec.ofNat 48 rsp.toNat)) c) ∧
      exec (.getsp c d 2) s = .next (completes (setG u c d (BitVec.ofNat 48 x.ssp.toNat)) c) ∧
      exec (.setsp c a 0) s = .next (completes (setCtx u c (lower x g)) c) ∧
      exec (.setsp c a 1) s = .next (completes (setCtx u c (lowerR x g)) c) ∧
      (bit x.stw 12 = true → bit x.stw 13 = true →
        exec (.setsp c a 2) s = .next (completes (setCtx u c { x with ssp := g }) c)) ∧
      (bit x.stw 12 = false ∨ bit x.stw 13 = false → exec (.setsp c a 2) s = .next (trapTo s u c { cause := 0x02 })))

/-! ### Branches, calls, loops (R325, R326, R386, R390 to R392) -/

/-- Branches, calls and returns (R325, R326, R386). A format J target is PC + 4 × IMM30; JR and CALLR go to Ga[39:0], or raise ALIGN at that address, DETAIL
bit 0 set, when its two low bits are not zero. When the return word, the address after the branch (past its slot on the lifeline core), can be pushed, a call goes
to its target; when it can be popped, RET goes to the address that it holds. A push writes the word at RSP − 6 and SSP − 6 and lowers both pointers by one word; a pop
reads equal words at RSP and SSP and raises both. General registers, PC and STW stay until the branch is taken. That the two low bits of the popped word are cleared, and FADDR of a misaligned target, are
logs 14 and 108. -/
def Obligations.BranchesAndCalls : Prop :=
  (∀ (s u t : State) (c : Core) (a : Reg) (imm : BitVec 30) (v : Addr),
     let there : Addr := BitVec.ofInt 40 ((pcOf u c).toNat + 4 * imm.toInt)
     let g : Addr := BitVec.ofNat 40 (getG u c a).toNat
     let back : Addr := pcOf u c + (if c.val = 4 then 8 else 4)
     let x := ctxOf u c
     let rsp := if bit x.stw 12 then x.rspS else x.rspU
     let odd : State := trapTo s u c { cause := 0x03, faddr := g, detail := 1 }
     let calls : Prop := Issues .branch ((accessCost u (rsp - 6).toNat 6 true).map (· + 1)) s u c
     (Issues .branch (some 1) s u c →
       exec (.bz c a imm) s = .next (branches u c (if getG u c a = 0 then some there else none)) ∧
       exec (.bnz c a imm) s = .next (branches u c (if getG u c a ≠ 0 then some there else none)) ∧
       exec (.jmp c imm) s = .next (branches u c (some there)) ∧
       exec (.jr c a) s = .next (if g.toNat % 4 = 0 then branches u c (some g) else odd)) ∧
     (calls → g.toNat % 4 ≠ 0 → exec (.callr c a) s = .next odd) ∧
     (calls → pushReturn u c back = .ok () t → exec (.call c imm) s = .next (branches t c (some there)) ∧
       (g.toNat % 4 = 0 → exec (.callr c a) s = .next (branches t c (some g)))) ∧
     (Issues .branch ((accessCost u rsp.toNat 6 false).map (· + 1)) s u c → popReturn u c = .ok v t →
       exec (.ret c) s = .next (branches t c (some v)))) ∧
  (∀ (s t : State) (c : Core) (v : Addr),
     let x := ctxOf s c
     let y := ctxOf t c
     let rsp : Ctx → Addr := fun z => if bit z.stw 12 then z.rspS else z.rspU
     let checks : Kind → Addr → Addr → State := fun k r q => (checkShadow (checkReturn s c r.toNat k).2 c q.toNat k).2
     let put : State → Addr → State := fun z a => putWord z (coreWho s c) a.toNat 0x3F (v.setWidth 72)
     (pushReturn s c v = .ok () t → plyInWord (rsp x).toNat = 0 ∧ plyInWord x.ssp.toNat = 0 ∧
       t.mem = (put (put (checks .write (rsp x - 6) (x.ssp - 6)) (rsp x - 6)) (x.ssp - 6)).mem ∧
       rsp y = rsp x - 6 ∧ y.ssp = x.ssp - 6 ∧ y.g = x.g ∧ y.pc = x.pc ∧ y.stw = x.stw) ∧
     (popReturn s c = .ok v t → plyInWord (rsp x).toNat = 0 ∧ plyInWord x.ssp.toNat = 0 ∧
       (let p := accessWord (checks .read (rsp x) x.ssp) (coreWho s c) (rsp x).toNat
         let q := accessWord p.2 (coreWho s c) x.ssp.toNat
         p.1.poison = false ∧ q.1.poison = false ∧ q.1.data = p.1.data ∧ v.toNat = p.1.data.toNat % 2 ^ 40 / 4 * 4) ∧
       rsp y = rsp x + 6 ∧ y.ssp = x.ssp + 6 ∧ y.g = x.g ∧ y.pc = x.pc ∧ y.stw = x.stw ∧ v.toNat % 4 = 0))

/-- LOOP, ENDLOOP and LCRD on the lifeline core (R390, R391): a count of zero skips the body, another opens a level; a fourth level is illegal. -/
def Obligations.LoopInstructions : Prop :=
  ∀ (s u : State) (c : Core) (d a : Reg) (k : BitVec 7) (j : BitVec 2), c.val = 4 →
    let x := coreOf u c
    let n : BitVec 24 := BitVec.ofNat 24 (getG u c a).toNat
    let pc := pcOf u c
    (Issues .loopOp (some 1) s u c →
      (x.loops.length < 3 → n = 0 →
        exec (.loop c a k) s = .next (continues (setPc u c (pc + 8 + BitVec.ofNat 40 (4 * k.toNat))) c)) ∧
      (x.loops.length < 3 → n ≠ 0 → exec (.loop c a k) s =
        .next (continues (setPc (setCore u c { x with loops := { start := pc + 4, count := n, k } :: x.loops }) c (pc + 4)) c)) ∧
      (3 ≤ x.loops.length → exec (.loop c a k) s = .next (trapTo s u c { cause := 0x01 })) ∧
      exec (.endloop c) s = .next (completes (setCore u c { x with loops := x.loops.drop 1 }) c)) ∧
    (Issues .plain (some 1) s u c → exec (.lcrd c d j) s =
      .next (completes (setG u c d (match x.loops[j.toNat]? with | some l => BitVec.ofNat 48 l.count.toNat | none => 0)) c))

/-! ### Floating point (R64, R67, R68, R327 to R329) -/

/-- Scalar floating-point arithmetic (R67, R68, R327, R329): the result is that of the element operation of the stream instruction of the same
name, in the mode that RMS and STW give; an F24 operand that is not boxed counts as the default NaN, an F24 result is boxed; flags are ORed
into STW; no result raises an exception. Each element operation gives the exact value, rounded once, with the flags of R62 to R66, R278, R280, R291 to R293 and R363 to R368, on every
engine. -/
def Obligations.FloatResults : Prop :=
  (∀ (t : BitVec 4) (md : FMode) (a b c : Nat) (pr : BitVec 3), isFloat t = true → md.rm.toNat ≤ 4 → a < 2 ^ typeBits t → b < 2 ^ typeBits t → c < 2 ^ typeBits t →
    let m := fmtOf t
    let out : ElemOp → Out := fun op => elemOp op t false md a b c
    let x := readAs m md.daz a
    let y := readAs m md.daz b
    let z := readAs m md.daz c
    let sign := m.sign x != m.sign y
    let infinity := m.top * 2 ^ m.f
    let invalid : Out := { v := m.defaultNan, fl := 16 }
    let nan : Prop := m.isNan x = true ∨ m.isNan y = true
    let snan : Prop := m.isSnan x = true ∨ m.isSnan y = true
    let xi := m.isInf x
    let yi := m.isInf y
    let xz := m.isZero x
    let yz := m.isZero y
    let adds : ElemOp → Bool → Prop := fun op flip =>
      let sy := m.sign y != flip
      (nan → FirstNan m [x, y] (out op)) ∧
      (¬ nan → (xi = true → yi = true → m.sign x ≠ sy → out op = invalid) ∧ (xi = true → yi = false ∨ m.sign x = sy → out op = { v := x }) ∧
        (xi = false → yi = true → out op = { v := encoding m sy infinity }) ∧
        (xi = false → yi = false → Sum m md (number m x) (m.sign x) (if flip then -number m y else number m y) sy (out op)))
    let chooses : ElemOp → Nat → Nat → Prop := fun op p q =>
      let lower := number m x < number m y ∨ (number m x = number m y ∧ (m.sign x = true ∨ m.sign y = false))
      (m.isNan x = true → m.isNan y = true → FirstNan m [x, y] (out op)) ∧
      (m.isNan x = true → m.isNan y = false → out op = { v := y, fl := if m.isSnan x then 16 else 0 }) ∧
      (m.isNan x = false → m.isNan y = true → out op = { v := x, fl := if m.isSnan y then 16 else 0 }) ∧
      (¬ nan → (lower → out op = { v := p }) ∧ (¬ lower → out op = { v := q }))
    let holds : Prop := match pr.toNat with
      | 0 => number m x = number m y | 1 => number m x ≠ number m y | 2 => number m x < number m y | 3 => number m x ≤ number m y
      | 4 => number m y < number m x | 5 => number m y ≤ number m x | _ => False
    adds .add false ∧ adds .sub true ∧
    (nan → FirstNan m [x, y] (out .mul) ∧ FirstNan m [x, y] (out .div)) ∧
    (¬ nan →
      ((xi = true ∧ yz = true) ∨ (xz = true ∧ yi = true) → out .mul = invalid) ∧
      (¬ ((xi = true ∧ yz = true) ∨ (xz = true ∧ yi = true)) → xi = true ∨ yi = true → out .mul = { v := encoding m sign infinity }) ∧
      (xi = false → yi = false → Delivered m md (number m x * number m y) sign (out .mul)) ∧
      ((xi = true ∧ yi = true) ∨ (xz = true ∧ yz = true) → out .div = invalid) ∧
      (xi = true → yi = false → out .div = { v := encoding m sign infinity }) ∧
      (xi = false → xz = false → yz = true → out .div = { v := encoding m sign infinity, fl := 8 }) ∧
      (xi = false → yi = true → out .div = { v := encoding m sign 0 }) ∧
      (xi = false → yi = false → yz = false → Delivered m md (number m x / number m y) sign (out .div))) ∧
    (m.isNan x = true → FirstNan m [x] (out .sqrt)) ∧
    (m.isNan x = false → (xz = true ∨ (xi = true ∧ m.sign x = false) → out .sqrt = { v := x }) ∧ (xz = false → m.sign x = true → out .sqrt = invalid) ∧
      (xz = false → xi = false → m.sign x = false → Rounded m md false (fun q => number m x - q ^ 2) (out .sqrt))) ∧
    Fused m md false false x y z (out .fma) ∧ Fused m md false true x y z (out .fms) ∧ Fused m md true false x y z (out .fnma) ∧ Fused m md true true x y z (out .fnms) ∧
    chooses .min x y ∧ chooses .max y x ∧
    (nan → (out (.cmp pr)).v = (if pr = 1 ∨ pr = 6 then 1 else 0) ∧ ((out (.cmp pr)).fl = 16 ↔ snan ∨ (2 ≤ pr.toNat ∧ pr.toNat ≤ 5))) ∧
    (¬ nan → (holds → out (.cmp pr) = { v := 1 }) ∧ (¬ holds → out (.cmp pr) = { v := 0 })) ∧ ((out (.cmp pr)).fl = 0 ∨ (out (.cmp pr)).fl = 16) ∧
    out .neg = { v := encoding m (!m.sign a) (unsigned m a) } ∧ out .abs = { v := unsigned m a } ∧ out .mov = { v := a } ∧ out .sel = { v := if c % 2 = 1 then a else b } ∧
    (t = 6 → xi = false → yi = false → ¬ nan →
      let o := out .mulw
      number f48 o.v = number m x * number m y ∧ f48.sign o.v = sign ∧ o.v < 2 ^ 48 ∧ o.fl = 0)) ∧
  ∀ (s u w : State) (c : Core) (d a b e : Reg) (p : Bool) (rms pred : BitVec 3), rms ≠ 5 → rms ≠ 6 →
    let stw := (ctxOf w c).stw
    let md : FMode := { rm := if rms = 7 then bits stw 6 3 else rms, ftz := bit stw 9, daz := bit stw 10 }
    let arg : Reg → Nat := fun r =>
      let v := (getFr w c r).toNat
      if p then v else if v / 2 ^ 24 = 0xFFFFFF then v % 2 ^ 24 else f24.defaultNan
    let out : ElemOp → Out := fun op => elemOp op (if p then 7 else 6) false md (arg a) (arg b) (arg e)
    let box : Nat → W48 := fun v => if p then BitVec.ofNat 48 v else BitVec.ofNat 48 (0xFFFFFF000000 + v % 2 ^ 24)
    let flags : ElemOp → State := fun op => setStw w c (stw ||| (out op).fl.setWidth 48)
    let issues : Nat → Prop := fun n => IssuesLazy .plain (some n) s u w c
    let gives : Instr → ElemOp → Prop := fun i op => exec i s = .next (completes (setFr (flags op) c d (box (out op).v)) c)
    (issues 3 → (e = a → gives (.fadd c d a b p rms) .add ∧ gives (.fsub c d a b p rms) .sub ∧ gives (.fmul c d a b p rms) .mul)) ∧
    (issues (if p then 14 else 8) → (e = a → gives (.fdiv c d a b p rms) .div)) ∧
    (issues (if p then 16 else 10) → (b = a → e = a → gives (.fsqrt c d a p rms) .sqrt)) ∧
    (issues 2 → (e = a → gives (.fmin c d a b p rms) .min ∧ gives (.fmax c d a b p rms) .max ∧
      (pred ≠ 7 → exec (.fcmp c d a b pred p rms) s =
        .next (completes (setG (flags (.cmp pred)) c d (BitVec.ofNat 48 (out (.cmp pred)).v)) c)))) ∧
    (issues 1 → (b = a → e = a → gives (.fneg c d a p rms) .neg ∧ gives (.fabs c d a p rms) .abs ∧ gives (.fmv c d a p rms) .mov)) ∧
    (issues 4 → gives (.fma c d a b e p rms) .fma ∧ gives (.fms c d a b e p rms) .fms ∧ gives (.fnma c d a b e p rms) .fnma ∧
      gives (.fnms c d a b e p rms) .fnms)

/-- Moves and conversions (R78 to R81, R284, R285, R328). A conversion of an element gives the exact value, wrapped or clamped to an integer type, or rounded once to a format or to an integer,
with the flags of R80, R81, R284, R285, R369 and R370; that of a truncating one is RTZ. -/
def Obligations.FloatConversions : Prop :=
  (∀ (t tt : BitVec 4) (zero sat : Bool) (md : FMode) (a : Nat), cvtPair t tt = true → md.rm.toNat ≤ 4 → a < 2 ^ typeBits t →
    let o := convertElem t tt zero sat md a
    let m := fmtOf t
    let n := fmtOf tt
    let host := decide (tt = 10 ∨ tt = 11)
    let mode : FMode := { rm := if zero then 1 else md.rm, ftz := md.ftz && !host, daz := md.daz && !host }
    let value : ℤ := if isSigned t = true ∧ 2 ^ (typeBits t - 1) ≤ a then a - 2 ^ typeBits t else a
    let x := readAs m mode.daz a
    let neg := m.sign x
    let floating : BitVec 4 → Prop := fun y => y ∈ [6, 7, 10, 11]
    (t = 8 → o = { v := a }) ∧
    (tt = 8 → o = { v := if a = 0 then 0 else 1 }) ∧
    (isInt t = true → isInt tt = true → Reduced tt (sat && decide (typeBits tt ≤ typeBits t)) value o) ∧
    (isInt t = true → floating tt → Delivered n mode value false o) ∧
    (floating t → isInt tt = true →
      let w := typeBits tt
      let lo : ℤ := if isSigned tt then -2 ^ (w - 1) else 0
      let hi : ℤ := if isSigned tt then 2 ^ (w - 1) - 1 else 2 ^ w - 1
      let v := |number m x|
      let k := ⌊v⌋.toNat
      let r : ℤ := if roundsUp mode.rm neg (k % 2 == 1) k (k + 1) (fun q => v - q) then k + 1 else k
      let i := if neg then -r else r
      (m.isNan x = true → o = { v := 0, fl := 16 }) ∧
      (m.isInf x = true → o = { v := ((if neg then lo else hi) % 2 ^ w).toNat, fl := 16 }) ∧
      (m.isNan x = false → m.isInf x = false →
        (i < lo → o = { v := (lo % 2 ^ w).toNat, fl := 16 }) ∧ (hi < i → o = { v := (hi % 2 ^ w).toNat, fl := 16 }) ∧
        (lo ≤ i → i ≤ hi → o = { v := (i % 2 ^ w).toNat, fl := if v = k then 0 else 1 }))) ∧
    (floating t → floating tt →
      (m.isNan x = true → o = { v := encoding n neg (n.top * 2 ^ n.f + ((a ||| 2 ^ (m.f - 1)) % 2 ^ m.f) * 2 ^ n.f / 2 ^ m.f), fl := if m.isSnan x then 16 else 0 }) ∧
      (m.isInf x = true → o = { v := encoding n neg (n.top * 2 ^ n.f) }) ∧
      (m.isNan x = false → m.isInf x = false → Delivered n mode (number m x) neg o))) ∧
  ∀ (s u w : State) (c : Core) (d a : Reg) (p un h : Bool) (rms : BitVec 3), rms ≠ 5 → rms ≠ 6 →
    let stw := (ctxOf w c).stw
    let md : FMode := { rm := if rms = 7 then bits stw 6 3 else rms, ftz := bit stw 9, daz := bit stw 10 }
    let x := (getG w c a).toNat
    let pair := (x + (getG w c (a.val + 1)).toNat * 2 ^ 48) % 2 ^ 64
    let arg : Bool → Nat := fun q =>
      let v := (getFr w c a).toNat
      if q then v else if v / 2 ^ 24 = 0xFFFFFF then v % 2 ^ 24 else f24.defaultNan
    let box : Nat → W48 := fun v => if p then BitVec.ofNat 48 v else BitVec.ofNat 48 (0xFFFFFF000000 + v % 2 ^ 24)
    let fl : BitVec 4 := if p then 7 else 6
    let int : BitVec 4 := if un then 4 else 5
    let host : BitVec 4 := if h then 11 else 10
    let flags : Out → State := fun o => setStw w c (stw ||| o.fl.setWidth 48)
    let toF : Instr → Out → Prop := fun i o => exec i s = .next (completes (setFr (flags o) c d (box o.v)) c)
    let toG : Instr → Out → Prop := fun i o => exec i s = .next (completes (setG (flags o) c d (BitVec.ofNat 48 o.v)) c)
    (IssuesLazy .plain (some 1) s u w c →
      exec (.gtof c d a p rms) s = .next (completes (setFr w c d (getG w c a)) c) ∧
      exec (.ftog c d a p rms) s = .next (completes (setG w c d (getFr w c a)) c)) ∧
    (IssuesLazy .plain (some 2) s u w c →
      toF (.cvtif c d a p rms un) (convertElem int fl false false md x) ∧
      toG (.cvtfi c d a p rms un) (convertElem fl int false false md (arg p)) ∧
      toF (.cvtff c d a p rms) (convertElem (if p then 6 else 7) fl false false md (arg (!p))) ∧
      (h = false → toG (.cvtfh c d a p rms h) (convertElem fl host false false md (arg p))) ∧
      (h = true → d.val % 2 = 0 → exec (.cvtfh c d a p rms h) s =
        (let o := convertElem fl host false false md (arg p)
         .next (completes (setG (setG (flags o) c d (BitVec.ofNat 48 o.v)) c (d.val + 1) (BitVec.ofNat 48 (o.v % 2 ^ 96 / 2 ^ 48))) c))) ∧
      (h = false → toF (.cvthf c d a p rms h) (convertElem host fl false false md (x % 2 ^ 32))) ∧
      (h = true → a.val % 2 = 0 → toF (.cvthf c d a p rms h) (convertElem host fl false false md pair)))

/-! ### Packed decimal (R72 to R74, R330, R331) -/

/-- Packed decimal (R72 to R74, R330, R331). Every value of at most eleven digits is read back from the K48 encoding that the device writes, whose sign
nibble is 0xC or 0xD, 0xC for zero. The instructions check their operands in full, Ga first; a result beyond eleven digits overflows; either raises the
decimal-data exception and leaves Gd; otherwise Gd takes the result. -/
def Obligations.DecimalResults : Prop :=
  (∀ i : Int, i.natAbs ≤ 99999999999 →
     invalidK48 (encodeK48 i) = none ∧ valueK48 (encodeK48 i) = i ∧ (encodeK48 i).toNat % 16 = (if i < 0 then 0xD else 0xC)) ∧
  (∀ (s u : State) (c : Core) (d a b : Reg), c.val ≠ 4 → Issues .plain none s u c → MicrocodeSound u →
     let x := getG u c a
     let y := getG u c b
     let traps : Instr → BitVec 8 → Prop := fun i r =>
       exec i s = .next (trapTo s u c { cause := 0x07, detail := r.setWidth 32, reason := r })
     let writes : Instr → Int → Prop := fun i v =>
       if v.natAbs ≤ 99999999999 then exec i s = .next (completes (setG u c d (encodeK48 v)) c) else traps i 3
     (∀ r, invalidK48 x = some r → traps (.dadd c d a b) r ∧ traps (.dsub c d a b) r ∧ traps (.dtob c d a) r) ∧
     (∀ r, invalidK48 x = none → invalidK48 y = some r → traps (.dadd c d a b) r ∧ traps (.dsub c d a b) r) ∧
     (invalidK48 x = none → exec (.dtob c d a) s = .next (completes (setG u c d (BitVec.ofInt 48 (valueK48 x))) c)) ∧
     (invalidK48 x = none → invalidK48 y = none →
       writes (.dadd c d a b) (valueK48 x + valueK48 y) ∧ writes (.dsub c d a b) (valueK48 x - valueK48 y)) ∧
     writes (.btod c d a) x.toInt)

/-! ### Block repeat (R332 to R334) -/

/-- Block-repeat instructions (R332, R333). With a count of zero they complete at once, CMPR and SCANR with 0 in Gd. With a count of one, the last element:
MOVR and FILLR store and move their pointers by the width of an element, up or down; CMPR and SCANR leave the registers at a pair that differs or an element
found, with 1 in Gd, and otherwise move on and write 0. -/
def Obligations.BlockRepeat : Prop :=
  (∀ (s u : State) (c : Core) (d a b e : Reg) (sz : BitVec 2) (down ne : Bool), Issues .plain none s u c → MicrocodeSound u →
     getG u c e = 0 →
     exec (.movr c a b e sz down none) s = .next (completes u c) ∧ exec (.fillr c a b e sz down none) s = .next (completes u c) ∧
     (d ≠ a → d ≠ b → d ≠ e → exec (.cmpr c d a b e sz down none) s = .next (completes (setG u c d 0) c) ∧
       exec (.scanr c d a b e sz down ne none) s = .next (completes (setG u c d 0) c))) ∧
  (∀ (s u t z : State) (c : Core) (d a b e : Reg) (sz : BitVec 2) (down ne : Bool) (v k : Nat), Issues .plain none s u c → MicrocodeSound u →
     let n : Nat := if sz = 0 then 1 else if sz = 1 then 2 else if sz = 2 then 4 else 6
     let move : State → Reg → State := fun q r => setG q c r (if down then getG q c r - BitVec.ofNat 48 n else getG q c r + BitVec.ofNat 48 n)
     let count : State → State := fun q => setG q c e (getG q c e - 1)
     let x := (getG u c a).toNat % 2 ^ 40
     let y := (getG u c b).toNat % 2 ^ 40
     getG u c e = 1 → e ≠ a → e ≠ b → e.val ≠ 0 → (coreOf u c).stepping = false →
     (loadAligned u c y n = .ok v t → storeAligned t c x n v = .ok () z → (ctxOf z c).g = (ctxOf u c).g → coreOf z c = coreOf u c →
       exec (.movr c a b e sz down none) s = .next (completes (count (move (move z a) b)) c)) ∧
     (storeAligned u c x n ((getG u c b).toNat % 2 ^ (12 * n)) = .ok () z → (ctxOf z c).g = (ctxOf u c).g → coreOf z c = coreOf u c →
       exec (.fillr c a b e sz down none) s = .next (completes (count (move z a)) c)) ∧
     (d ≠ a → d ≠ b → d ≠ e → loadAligned u c x n = .ok v t → loadAligned t c y n = .ok k z → (ctxOf z c).g = (ctxOf u c).g →
       coreOf z c = coreOf u c → exec (.cmpr c d a b e sz down none) s =
         .next (completes (if v = k then setG (count (move (move z a) b)) c d 0 else setG z c d 1) c)) ∧
     (d ≠ a → d ≠ b → d ≠ e → loadAligned u c x n = .ok v z → (ctxOf z c).g = (ctxOf u c).g → coreOf z c = coreOf u c →
       exec (.scanr c d a b e sz down ne none) s =
         .next (completes (if (v = (getG u c b).toNat % 2 ^ (12 * n) ↔ ne = false) then setG z c d 1
           else setG (count (move z a)) c d 0) c)))

/-! ### System instructions (R312 to R314, R338, R381, R420 to R436, R448, R449, R602) -/

/-- FENCE, ISYNC, GETSTW, SETFPS, SETMODE, SVC, WAIT, BRK and the bank window (R313, R314, R338, R356, R381, R448, R449, R602). FENCE waits for the stores
that are not yet visible and the loads without a value. BRK halts where the
probe may debug the core (log 117), in a slot without leaving it (log 161), else behind the instruction; WAIT moves PC on and notes the wait (log 28). -/
def Obligations.SystemResults : Prop :=
  ∀ (s u : State) (c : Core) (d a b : Reg) (imm : BitVec 12),
    let x := ctxOf u c
    let g := getG u c a
    (Issues .plain (some 1) s u c →
      (storesPending u c = false → loadsPending u c = false → exec (.fence c) s = .next (completes u c)) ∧
      (storesPending u c = true ∨ loadsPending u c = true → exec (.fence c) s = .next s) ∧ exec (.isync c) s = .next (completes (discardFetched u c) c) ∧
      exec (.getstw c d) s = .next (completes (setG u c d x.stw) c) ∧
      ((bits g 6 3).toNat ≤ 4 → exec (.setfps c a) s =
        .next (completes (setStw u c (BitVec.ofNat 48 (2 ^ 11 * (x.stw.toNat / 2 ^ 11) + g.toNat % 2 ^ 11))) c)) ∧
      (5 ≤ (bits g 6 3).toNat → exec (.setfps c a) s = .next (trapTo s u c { cause := 0x01 })) ∧
      (bit (rd u .dbgCtl) (8 + c.val) = false ∨ mayDebugCore u c = false → exec (.brk c) s = .next (trapTo s u c { cause := 0x0B })) ∧
      (bit (rd u .dbgCtl) (8 + c.val) = true → mayDebugCore u c = true → exec (.brk c) s =
        .next (haltCore (if (coreOf u c).slot.isSome then u else retire u c) c 2))) ∧
    (Issues .setmode (some 1) s u c → x.sup = true → x.inXcall = false →
      exec (.setmode c a) s =
        (let y := setIe (if c.val = 4 then u else setStw u c (setBit x.stw 12 (bit g 12))) c (bit g 14)
         .next (completes (setCore y c { coreOf y c with shadow := 3 }) c))) ∧
    (c.val ≠ 4 → Issues .plain none s u c → exec (.svc c imm) s = .next (trapTo s u c { cause := 0x09, detail := imm.setWidth 32 })) ∧
    (Issues .wait none s u c → exec (.wait c) s =
      (let y := setPc u c (pcOf u c + 4)
       .next (continues (if c.val = 4 then setCore y c { coreOf y c with waiting := true } else yieldBank y c) c))) ∧
    (c.val ≠ 4 → Issues .plain (some 2) s u c → x.sup = true →
      let k := (coreOf u c).bankwin.toNat
      let n := (bits g 0 7).toNat
      bits g 8 2 = (0 : BitVec 2) →
      (n = 127 → exec (.mfbw c d a) s = .next (completes (setG u c d (BitVec.ofNat 48 k)) c) ∧
        exec (.mtbw c a b) s = .next (completes (setCore u c { coreOf u c with bankwin := BitVec.ofNat 5 (getG u c b).toNat }) c)) ∧
      (n < 32 → mayReachBank u c k = true →
        exec (.mfbw c d a) s = .next (completes (setG u c d ((ctxAt u (ctxKey c k)).gr n)) c) ∧
        exec (.mtbw c a b) s =
          .next (completes (setCtxAt u (ctxKey c k) ((ctxAt u (ctxKey c k)).setGr n (getG u c b))) c)))

/-- ERET at supervisor level, when the 16 words of the frame at XFP are read, its CAUSE is not 0x1E, and the lazy area is read where LZ is 1 (R426): it
completes. PC, the stack pointers, XFP and G1 to G3 are those of the frame, the registers of the lazy area those of `w`, the state after its restore; DSP_U and
RSP_U of the lifeline core are zero. STW is that of word 1, but WORLD and BLY stay, PRI stays on a scalar core, reserved bits are 0, and LVL of the lifeline core is
1; BLY clears where the return ends the belay window of its handler. The lifeline core takes its loops from the frame and PRI and LEVEL, at most 8, from word 1. No
reservation and no shadow remain, and with DS = 1 a slot is open with TARGET. That bits 1:0 of PC and TARGET are cleared is log 14, that an open shadow ends
log 85. -/
def Obligations.ReturnFromException : Prop :=
  ∀ (s u t w : State) (c : Core) (l : List Word72), Issues .eret (some 10) s u c → (ctxOf u c).sup = true →
    (ctxOf u c).xfp ≠ 0 → loadWords u (coreWho u c) (ctxOf u c).xfp.toNat 16 0 = .ok l t → bits (l.getD 0 0) 40 8 ≠ (0x1E : BitVec 8) →
    lazyReload t c = .ok () w →
    let x := ctxOf w c
    let f : Nat → Addr := fun i => BitVec.ofNat 40 (l.getD i 0).toNat
    let new := l.getD 1 0
    let level : BitVec 6 := BitVec.ofNat 6 (Nat.min 8 (bits new 17 6).toNat)
    let ends : Prop := c.val = 4 ∧ (coreOf w c).belayMark = true ∧ (coreOf w c).belayFrame = (ctxOf u c).xfp
    ∃ z, exec (.eret c) s = .next (continues z c) ∧
      (let y := ctxOf z c
       y.pc.toNat = (f 0).toNat / 4 * 4 ∧ y.dspU = (if c.val = 4 then 0 else f 4) ∧ y.dspS = f 5 ∧
       y.rspU = (if c.val = 4 then 0 else f 6) ∧ y.rspS = f 7 ∧ y.ssp = f 8 ∧ y.xfp = f 9 ∧
       (∀ n, y.gr n =
         if n = 1 then BitVec.ofNat 48 (l.getD 13 0).toNat else if n = 2 then BitVec.ofNat 48 (l.getD 14 0).toNat
         else if n = 3 then BitVec.ofNat 48 (l.getD 15 0).toNat else x.gr n) ∧
       ((bits new 6 3).toNat ≤ 4 → ∀ i, i < 48 → bit y.stw i =
         (if i = 11 ∨ 23 ≤ i then false
          else if i = 13 then bit x.stw 13
          else if i = 15 then (bit x.stw 15 && decide (¬ ends))
          else if i = 12 then (decide (c.val = 4) || bit new 12)
          else if 17 ≤ i then (if c.val = 4 then bit level (i - 17) else bit x.stw i)
          else bit new i)) ∧
       y.f = x.f ∧ y.m = x.m ∧ y.vd = x.vd ∧ y.vfr = x.vfr) ∧
      (c.val = 4 → llLevel z = level.toNat) ∧ z.mem = w.mem ∧ (coreOf z c).reservation = none ∧ (coreOf z c).shadow = 0 ∧
      (coreOf z c).loops = (if c.val = 4 then frameLoops l else []) ∧
      (coreOf z c).slot = (if bit (l.getD 0 0) 56 then some (pcAlign (f 3)) else none)

/-- XCALL through a gate that R433 finds sound: the callee runs in the other world at supervisor level, at the entry point of the gate, with a frame of its
own, and the caller's PC, STW and stack pointers are saved; XRET gives the caller back what XCALL saved (R435). That bits 1:0 of the entry point and
of the return PC are cleared is log 14, that the frame is written with the callee's code log 35. -/
def Obligations.GateCallsAndReturns : Prop :=
  (∀ (s u t z : State) (c : Core) (a : Reg) (e0 e1 : Word72), c.val ≠ 4 → Issues .plain none s u c → MicrocodeSound u →
     let x := ctxOf u c
     let w := !bit x.stw 13
     let i := (getG u c a).toNat
     let p := partOf u c
     let size := (bits e1 40 16).toNat
     let top : Addr := bits e1 0 40 - BitVec.ofNat 40 (6 * size * (32 * c.val + bankOf t c))
     i < 256 → i < (bits (rd u (.capGcnt p (if w then 1 else 0))) 0 9).toNat →
     loadWords u (gateWho u c w) (gateTable u p w + 12 * i) 2 0 = .ok [e0, e1] t →
     bit e0 40 = true → size % 2 = 0 → 256 ≤ size → bit e0 (if bit x.stw 12 then 42 else 41) = true → x.inXcall = false →
     storeWords t (gateWho u c w) (top - 480).toNat (frameWords x [] { cause := 0x1E } (x.pc + 4) none) 0 = .ok () z →
     ctxOf z c = x →
     ∃ v, exec (.xcall c a) s = .next (continues v c) ∧
       (let y := ctxOf v c
        y.pc.toNat = (bits e0 0 40).toNat / 4 * 4 ∧ y.safety = w ∧ y.sup = true ∧ y.xfp = top - 480 ∧ y.dspS = top - 480 ∧
        y.rspS = top - BitVec.ofNat 40 (3 * size) ∧ y.dspU = 0 ∧ y.rspU = 0 ∧ y.xstw = x.stw ∧ y.inXcall = true ∧
        bits y.xc 0 40 = x.pc + 4 ∧ y.xdspU = x.dspU ∧ y.xdspS = x.dspS ∧ y.xrspU = x.rspU ∧ y.xrspS = x.rspS ∧ y.xxfp = x.xfp ∧
        y.g = x.g ∧ y.f = x.f ∧ y.ssp = x.ssp ∧ (coreOf v c).reservation = none)) ∧
  (∀ (s u t : State) (c : Core) (l : List Word72), c.val ≠ 4 → Issues .plain none s u c → MicrocodeSound u →
     (ctxOf u c).inXcall = true → loadWords u (coreWho u c) (ctxOf u c).xfp.toNat 1 0 = .ok l t →
     bits (l.getD 0 0) 40 8 = (0x1E : BitVec 8) → (ctxOf t c).lz = false →
     let x := ctxOf t c
     ∃ v, exec (.xret c) s = .next (continues v c) ∧
       (let y := ctxOf v c
        y.pc.toNat = (bits x.xc 0 40).toNat / 4 * 4 ∧ y.dspU = x.xdspU ∧ y.dspS = x.xdspS ∧ y.rspU = x.xrspU ∧ y.rspS = x.xrspS ∧
        y.xfp = x.xxfp ∧ y.inXcall = false ∧ y.safety = bit x.xstw 13 ∧ y.sup = bit x.xstw 12 ∧ y.g = x.g ∧ y.f = x.f ∧
        (coreOf v c).reservation = none))
/-! ### Stream instructions and splices (R214 to R223, R264 to R288) -/

/-- A stream instruction is read back from its 48 bits, and the 48 bits of the layout of R266 from the instruction that they spell: no bit is
dropped. -/
def Obligations.StreamWordsRoundTrip : Prop :=
  (∀ x : SIns, SIns.ofWord x.word = x) ∧ ∀ w : W48, (SIns.ofWord w).word = w

/-- Words of instructions (R315 to R317, R264, R266): the word of every well-formed instruction reads back as that instruction on its core, every
operand that an encoding holds included, and a word that a core reads as an instruction is that instruction's word, without a reserved value: no two
instructions share a word. Unused fields of mask-register words and of SLD and SST words rest on log 116. -/
def Obligations.InstructionWordsRoundTrip : Prop :=
  (∀ (i : Instr) (c : Core), i.core? = some c → i.wellFormed = true → ∃ w, i.word = some w ∧ Instr.ofWord c w = some i.encoded) ∧
  (∀ (c : Core) (w : W48) (i : Instr), Instr.ofWord c w = some i → i.core? = some c ∧ i.wellFormed = true ∧ i.word = some w)

/-- A stream instruction with CH = 1 opens or extends the chain (R219, R222, R268): it changes no register and no memory. With a chain open it
triggers no lazy-area fill; without one, `w` is the state after the fill. -/
def Obligations.StreamInstructionsChain : Prop :=
  ∀ (i : Instr) (x : SIns) (c : Core) (s u w : State), i.stream? = some x → i.core? = some c → i.wellFormed = true →
    extensionValid u i = true → IssuesStream x s u c → x.f.ch = true →
    (if (ctxOf u c).chain = [] then lazyFill u c = .ok () w else w = u) →
    let k := ctxOf w c
    k.chain.length < 6 → badLink w (k.chain.map SIns.ofWord) k.chain.length x = false →
    exec i s = .next (completes (setCtx (setCore w c { coreOf w c with closing := false }) c
      { k with chain := k.chain ++ [x.word], chainPc := if k.chain = [] then k.pc else k.chainPc }) c)

/-- A stream instruction with CH = 0 closes the chain (R218 to R223): when no reason of R223 applies and nothing makes it wait, the splice is issued;
a reason raises VECTOR_ISSUE and issues nothing; what makes it wait leaves the chain open (R222, R225, R229, R240). The reason is the lowest code
whose cause applies (R220, R221, R223). -/
def Obligations.StreamInstructionsIssue : Prop :=
  (∀ (z : State) (o : OwnerCode) (ins : List SIns) (l : Captured),
    let r := (issueReason z o ins l).toNat
    (r = 0 ↔ ∀ k, ¬ IssueCause z o ins l k) ∧
    ∀ k, 0 < k → (r = k ↔ IssueCause z o ins l k ∧ ∀ j, j < k → ¬ IssueCause z o ins l j)) ∧
  ∀ (i : Instr) (x : SIns) (c : Core) (s u w : State), i.stream? = some x → i.core? = some c → i.wellFormed = true →
    extensionValid u i = true → IssuesStream x s u c → x.f.ch = false →
    (if (ctxOf u c).chain = [] then lazyFill u c = .ok () w else w = u) →
    let ins := (ctxOf w c).chain.map SIns.ofWord ++ [x]
    let l := capture w c ins
    let reason := issueReason w (coreCode w c) ins l
    (ctxOf w c).chain.length < 6 →
    (reason = 0 → mustWait w c l = false → exec i s =
      .next (completes (setCore (issueSplice w c ins) c { coreOf w c with closing := false }) c)) ∧
    (reason = 0 → mustWait w c l = true → exec i s = .next (setCore w c { coreOf w c with closing := true })) ∧
    (reason ≠ 0 → exec i s = .next (trapTo s w c { cause := 0x08, detail := reason.setWidth 32, reason := reason }))

/-- What issuing a splice changes (R218, R251, R253): one splice with the captured descriptors joins the list, the context's sequence number
counts up, BASE of a named ADV descriptor advances by LENGTH × σ, and the chain is empty again. -/
def Obligations.IssueCaptures : Prop :=
  ∀ (s : State) (c : Nat) (ins : List SIns),
    let x := ctxOf s c
    let t := issueSplice s c ins
    let y := ctxOf t c
    (∃ p : Splice, t.splices.list = s.splices.list ++ [p] ∧ p.ins = ins.map SIns.word ∧ p.cid = x.cid ∧ p.core = c ∧ p.elem = 0 ∧
      p.phase = .waiting ∧ p.seq = (trailOf s x.cid).seq ∧ p.rm = bits x.stw 6 3 ∧ p.ftz = bit x.stw 9 ∧ p.daz = bit x.stw 10 ∧
      p.safety = bit x.stw 13 ∧ p.sup = bit x.stw 12 ∧ (∀ d ∈ p.descs, d.2 = x.vdr (d.1.toNat % 16)) ∧
      (∀ d ∈ namings ins, (d, x.vdr (d.toNat % 16)) ∈ p.descs)) ∧
    (trailOf t x.cid).seq = (trailOf s x.cid).seq + 1 ∧ y.chain = [] ∧ y.g = x.g ∧ y.f = x.f ∧ y.m = x.m ∧ y.pc = x.pc ∧ y.stw = x.stw ∧
    t.mem = s.mem ∧ t.regs = s.regs ∧
    (∀ n, n < 16 → (∀ d ∈ namings ins, d.toNat % 16 = n → Desc.adv (x.vdr n) = false) → y.vdr n = x.vdr n) ∧
    (∀ n, n < 16 → (∃ d ∈ namings ins, d.toNat % 16 = n) → Desc.adv (x.vdr n) = true →
      let d : Desc := x.vdr n
      y.vdr n = setBits d 0 (BitVec.ofInt 40 (d.base.toNat + d.len * d.sigma)))

/-- The descriptor instructions, VFENCE and the fault record (R244, R253, R305, R306). -/
def Obligations.DescriptorResults : Prop :=
  ∀ (s u w t : State) (c : Core) (d a : Reg) (n : BitVec 5) (imm : BitVec 20) (v : Nat), n.toNat < 16 →
    let place : State → Nat := fun z => ((getG z c a).toNat + (BitVec.ofInt 48 imm.toInt).toNat) % 2 ^ 40
    let x := ctxOf w c
    let g := getG w c a
    let old := x.vdr n.toNat
    let put : BitVec 144 → State := fun q => setCtx w c (x.setVdr n.toNat q)
    let issues : Prop := IssuesLazy .plain (some 1) s u w c
    (IssuesLazy .plain (accessCost u (place u) 12 false) s u w c → plyInWord (place w) = 0 → coreLoad w c (place w) 12 = .ok v t →
      exec (.vdld c n a imm) s = .next (completes (setCtx t c ((ctxOf t c).setVdr n.toNat (BitVec.ofNat 144 v))) c)) ∧
    (IssuesLazy .plain (accessCost u (place u) 12 true) s u w c → plyInWord (place w) = 0 → coreStore w c (place w) 12 old.toNat = .ok () t →
      exec (.vdst c n a imm) s = .next (completes t c)) ∧
    (issues →
      exec (.vdset c n a 0) s = .next (completes (put (setBits old 0 (bits g 0 40))) c) ∧
      exec (.vdset c n a 1) s = .next (completes (put (setBits old 72 (bits g 0 36))) c) ∧
      exec (.vdset c n a 2) s = .next (completes (put (setBits old 108 (bits g 0 36))) c) ∧
      exec (.vdset c n a 3) s = .next (completes (put (setBits old 40 (bits g 0 8))) c) ∧
      exec (.vdget c d n 0) s = .next (completes (setG w c d ((bits old 0 40).setWidth 48)) c) ∧
      exec (.vdget c d n 1) s = .next (completes (setG w c d ((bits old 72 36).signExtend 48)) c) ∧
      exec (.vdget c d n 2) s = .next (completes (setG w c d ((bits old 108 36).setWidth 48)) c) ∧
      exec (.vdget c d n 3) s = .next (completes (setG w c d ((bits old 40 8).setWidth 48)) c) ∧
      exec (.vdadd c n a) s = .next (completes (put (setBits old 0 (bits old 0 40 + bits g 0 40))) c) ∧
      exec (.vfrd c d false) s = .next (completes (setG w c d (bits x.vfr 0 48)) c) ∧
      exec (.vfrd c d true) s = .next (completes (setG w c d ((bits x.vfr 48 24).setWidth 48)) c) ∧
      exec (.vfrclr c) s = .next (completes (setCtx w c { x with vfr := 0 }) c)) ∧
    (Issues .vfence none s u c →
      let k := (ctxOf u c).cid
      let r := trailOf u k
      (∀ p ∈ u.splices.list, p.cid ≠ k) →
      exec (.vfence c d) s =
        (let z := setTrail u k { r with ended := 0, count := 0, taken := false }
         let y := setStw z c ((ctxOf z c).stw ||| (bits r.ended 10 5).setWidth 48)
         .next (completes (setG y c d (r.count ++ r.ended)) c)))

/-! ### Short vectors and masks (R295 to R303) -/

/-- The short-vector instructions that are one element operation on each lane (R276 to R280, R283, R298, R299): lane k of the result is that
operation on lanes k of the operands, with the rounding mode of STW. On integers every operation gives the exact value of R276 to R280, R290, R294 and R371, reduced to its type,
on every engine. -/
def Obligations.LanewiseResults : Prop :=
  (∀ (t : BitVec 4) (sat : Bool) (md : FMode) (a b c : Nat) (pr : BitVec 3),
    let w := typeBits t
    let out : ElemOp → Out := fun op => elemOp op t sat md a b c
    let gives : ElemOp → Nat → Prop := fun op v => out op = { v }
    let val : BitVec 4 → Nat → ℤ := fun ty n => if isSigned ty = true ∧ 2 ^ (typeBits ty - 1) ≤ n then n - 2 ^ typeBits ty else n
    let is : ElemOp → ℤ → Prop := fun op i => Reduced t sat i (out op)
    let low : ElemOp → ℤ → Prop := fun op i => Reduced t false i (out op)
    let x := val t a
    let y := val t b
    let z := val t c
    let signed : ℤ := if 2 ^ (w - 1) ≤ a then a - 2 ^ w else a
    let holds : Prop := match pr.toNat with
      | 0 => x = y | 1 => x ≠ y | 2 => x < y | 3 => x ≤ y | 4 => y < x | _ => y ≤ x
    a < 2 ^ w → b < 2 ^ w → c < 2 ^ w →
    (isInt t = true ∨ t = 8 →
      ∀ i, i < w → ((out .and).v.testBit i = (a.testBit i && b.testBit i) ∧ (out .or).v.testBit i = (a.testBit i || b.testBit i) ∧
        (out .xor).v.testBit i = (a.testBit i != b.testBit i) ∧ (out .andn).v.testBit i = (a.testBit i && !b.testBit i)) ∧
        ∀ op ∈ [ElemOp.and, .or, .xor, .andn], (out op).v < 2 ^ w ∧ (out op).fl = 0 ∧ (out op).sat = false) ∧
    (isInt t = true →
      is .add (x + y) ∧ is .sub (x - y) ∧ is .mul (x * y) ∧ is .abs |x| ∧ is .neg (-x) ∧
      is .fma (x * y + z) ∧ is .fms (x * y - z) ∧ is .fnma (z - x * y) ∧ is .fnms (-(x * y) - z) ∧
      gives .min (if x ≤ y then a else b) ∧ gives .max (if x ≤ y then b else a) ∧ gives .sel (if c % 2 = 1 then a else b) ∧ gives .mov a ∧
      gives .shl (a * 2 ^ b % 2 ^ w) ∧ gives .shr (a / 2 ^ b) ∧ low .sar (signed / 2 ^ b) ∧ low .mulh (x * y / 2 ^ w) ∧
      (t.toNat < 4 → val (nextWider t) (out .mulw).v = x * y ∧ Reduced (nextWider t) false (x * y) (out .mulw)) ∧
      (pr.toNat ≤ 5 → (holds → gives (.cmp pr) 1) ∧ (¬ holds → gives (.cmp pr) 0)) ∧
      (b = 0 → out .div = { v := 2 ^ w - 1, fl := 8 } ∧ out .rem = { v := a, fl := 8 }) ∧
      (b ≠ 0 → is .div (x.tdiv y) ∧ low .rem (x - y * x.tdiv y)))) ∧
  ∀ (i : Instr) (op : ElemOp) (f : StreamFields) (t : BitVec 4) (cost : Option Nat) (c : Core) (s u w : State),
    i.lanewise? = some (op, f, t, cost) → i.core? = some c → i.wellFormed = true → IssuesLazy .plain cost s u w c →
    let stw := (ctxOf w c).stw
    let md : FMode := { rm := bits stw 6 3, ftz := bit stw 9, daz := bit stw 10 }
    let lane : BitVec 5 → Nat → Nat := fun r k => laneAt f.ot (sReg w c r.toNat) k
    exec i s = .next (completes (putLanes w c f t (fun k => elemOp op f.ot f.sat md (lane f.sa k) (lane f.sb k) (lane f.sc k))) c)

/-- The other short-vector instructions that write lanes (R277, R281 to R286, R299, R300): the upper products, the dot product, conversions (a lane of
the target type without a source lane is free, log 15), selections, compress, expand, permute, and a load. What writing lanes leaves (R298, R303): an active
lane takes its result, an inactive one is kept or, in zero mode, zero; other S registers stay; the flags of active lanes, and bit 5 where one saturated, are
ORed into STW. A lane of a dot product is its exact sum, reduced or rounded once. -/
def Obligations.LaneResults : Prop :=
  (∀ (s : State) (c : Core) (aw : BitVec 3) (f : StreamFields) (j : Nat), (Instr.sdot c aw f).wellFormed = true →
     let t := f.ot
     let ty := RedOp.acc .dot t aw
     let r := lanesOf t / lanesOf ty
     let stw := (ctxOf s c).stw
     let md : FMode := { rm := bits stw 6 3, ftz := bit stw 9, daz := bit stw 10 }
     let val : BitVec 4 → Nat → ℤ := fun y n => if isSigned y = true ∧ 2 ^ (typeBits y - 1) ≤ n then n - 2 ^ typeBits y else n
     let a : Nat → Nat := fun k => laneAt t (sReg s c f.sa.toNat) (r * j + k)
     let b : Nat → Nat := fun k => laneAt t (sReg s c f.sb.toNat) (r * j + k)
     let old := laneAt ty (sReg s c f.dst.toNat) j
     let x : BitVec 4 → Nat → ℚ := fun y n => number (fmtOf y) (readAs (fmtOf y) md.daz n)
     let wild : BitVec 4 → Nat → Bool := fun y n => (fmtOf y).isNan n || (fmtOf y).isInf n
     let total : ℚ := x ty old + ((List.range r).map (fun k => x t (a k) * x t (b k))).sum
     (isInt t = true → Reduced ty f.sat (val ty old + ((List.range r).map (fun k => val t (a k) * val t (b k))).sum) (dotLane s c aw f j)) ∧
     (isFloat t = true → md.rm.toNat ≤ 4 → wild ty old = false → (∀ k, k < r → wild t (a k) = false ∧ wild t (b k) = false) → total ≠ 0 →
       Rounded (fmtOf ty) md (decide (total < 0)) (fun q => |total| - q) (dotLane s c aw f j))) ∧
  (∀ (s u w t : State) (c : Core) (f : StreamFields) (tt : BitVec 4) (aw : BitVec 3) (v : Nat),
     let stw := (ctxOf w c).stw
     let md : FMode := { rm := bits stw 6 3, ftz := bit stw 9, daz := bit stw 10 }
     let n := lanesOf f.ot
     let lane : BitVec 5 → Nat → Nat := fun r k => laneAt f.ot (sReg w c r.toNat) k
     let sel : Nat → Bool := fun k => bit ((ctxOf w c).mr f.sc.toNat) k
     let below : Nat → Nat := fun k => ((List.range k).filter sel).length
     let nth : Nat → Nat := fun k => (((List.range n).filter sel)[k]?.map (lane f.sa)).getD 0
     let gives : Instr → BitVec 4 → (Nat → Out) → Prop := fun i ty out =>
       i.wellFormed = true → exec i s = .next (completes (putLanes w c f ty out) c)
     let a := ((getG u c f.sa.toNat).toNat + (getG u c f.sb.toNat).toNat) % 2 ^ 40
     let a' := ((getG w c f.sa.toNat).toNat + (getG w c f.sb.toNat).toNat) % 2 ^ 40
     (IssuesLazy .plain (some 3) s u w c →
       gives (.smulwh c f) (nextWider f.ot) (fun k => elemOp .mulw f.ot f.sat md (lane f.sa (n / 2 + k)) (lane f.sb (n / 2 + k)) (lane f.sc (n / 2 + k)))) ∧
     (IssuesLazy .plain (some 5) s u w c → gives (.sdot c aw f) (RedOp.acc .dot f.ot aw) (fun k => dotLane w c aw f k)) ∧
     (IssuesLazy .plain (some 2) s u w c →
       (∀ z, (Instr.scvt c tt f).wellFormed = true → (z = false ∨ z = true) → ∃ free : Nat → Nat,
         exec (if z then .scvtz c tt f else .scvt c tt f) s = .next (completes (putLanes { w with free := w.free + 16 } c f tt
           (fun k => if k < n then elemOp (.cvt tt z) f.ot f.sat md (lane f.sa k) (lane f.sb k) (lane f.sc k) else { v := free k })) c)) ∧
       gives (.ssel c f) f.ot (fun k => { v := if sel k then lane f.sa k else lane f.sb k }) ∧
       gives (.scmpr c tt f) f.ot (fun k => { v := nth k }) ∧
       gives (.sexpz c tt f) f.ot (fun k => { v := if sel k then lane f.sa (below k) else 0 }) ∧
       gives (.sexpm c tt f) f.ot (fun k => { v := if sel k then lane f.sa (below k) else lane f.dst k }) ∧
       gives (.sperm c tt f) f.ot (fun k => { v := lane f.sa (lane f.sb k % n) })) ∧
     (IssuesLazy .plain (accessCost u a 16 false) s u w c → loadAligned w c a' 16 = .ok v t →
       (Instr.sld c f).wellFormed = true →
       exec (.sld c f) s = .next (completes (putLanes t c f f.ot (fun k => { v := laneAt f.ot v k })) c))) ∧
  (∀ (s : State) (c : Core) (f : StreamFields) (t : BitVec 4) (out : Nat → Out), lanesOf t ≠ 0 → f.dst.toNat < 8 →
     let z := putLanes s c f t out
     let on : Nat → Bool := fun k => f.msk == 0 || bit ((ctxOf s c).mr f.mreg.toNat) k
     (∀ k, k < lanesOf t → laneAt t (sReg z c f.dst.toNat) k =
       if on k then (out k).v % 2 ^ typeBits t else if f.msk = 2 then 0 else laneAt t (sReg s c f.dst.toNat) k) ∧
     (∀ r, r < 8 → r ≠ f.dst.toNat → sReg z c r = sReg s c r) ∧
     (∀ i, bit (ctxOf z c).stw i = (bit (ctxOf s c).stw i ||
       (decide (i < 5) && (List.range (lanesOf t)).any (fun k => on k && bit (out k).fl i)) ||
       (i == 5 && (List.range (lanesOf t)).any (fun k => on k && (out k).sat)))) ∧
     (ctxOf z c).g = (ctxOf s c).g ∧ (ctxOf z c).m = (ctxOf s c).m ∧ (ctxOf z c).pc = (ctxOf s c).pc ∧ z.mem = s.mem ∧ z.regs = s.regs)

/-- Reductions, compares, stores and mask operations of the short vectors (R249, R281, R297 to R302). A step of a reduction takes its term into the accumulator as the operation of
its type does, the accumulator first, and the sixteen accumulators are joined by the tree of R249 and then with the initial value (R281, R282, R291); that of the options only denormals-are-zero acts on a term
placed in an empty accumulator is log 179. -/
def Obligations.MaskAndReduction : Prop :=
  (∀ (t ty : BitVec 4) (aw : BitVec 3) (sat : Bool) (md : FMode) (a b q : Nat), accType t aw = some ty → a < 2 ^ typeBits t → b < 2 ^ typeBits t → q < 2 ^ typeBits ty →
    let val : BitVec 4 → Nat → ℤ := fun y n => if isSigned y = true ∧ 2 ^ (typeBits y - 1) ≤ n then n - 2 ^ typeBits y else n
    let x := val t a
    let y := val t b
    let z := val ty q
    let term : RedOp → Option Nat → Out := fun op acc => redTerm op t ty sat md acc a b
    let m := fmtOf t
    let wide : Nat → Nat := fun n => (convertElem 6 7 false false md n).v
    (isInt t = true →
      Reduced ty false x (term .sum none) ∧ Reduced ty sat (z + x) (term .sum (some q)) ∧ Reduced ty sat (x * y) (term .dot none) ∧ Reduced ty sat (z + x * y) (term .dot (some q)) ∧
      (ty = t → (∀ op ∈ [RedOp.min, .max], term op none = { v := a }) ∧ term .min (some q) = { v := if z ≤ x then q else a } ∧
        term .max (some q) = { v := if z ≤ x then a else q })) ∧
    (isFloat t = true → ty = t →
      (∀ op ∈ [RedOp.sum, .min, .max], term op none = { v := readAs m md.daz a }) ∧
      term .sum (some q) = elemOp .add t sat md q a 0 ∧ term .min (some q) = elemOp .min t sat md q a 0 ∧ term .max (some q) = elemOp .max t sat md q a 0 ∧
      term .dot none = elemOp .mul t sat md a b 0 ∧
      (m.isNan a = false → m.isNan b = false → m.isNan q = false → term .dot (some q) = elemOp .fma t sat md a b q) ∧
      (m.isNan q = true → (m.isInf a && m.isZero (readAs m md.daz b) || m.isZero (readAs m md.daz a) && m.isInf b) = false →
        FirstNan m [q, readAs m md.daz a, readAs m md.daz b] (term .dot (some q)))) ∧
    (t = 6 → ty = 7 → m.isSnan a = false → m.isSnan b = false → ∀ op ∈ [RedOp.sum, .dot], ∀ acc, term op acc = redTerm op 7 7 sat md acc (wide a) (wide b)) ∧
    (∀ acc, redTerm .count 8 4 sat md acc a b = { v := acc.getD 0 + a % 2 })) ∧
  (∀ (op : RedOp) (ty : BitVec 4) (sat : Bool) (md : FMode) (acc : List (Option Nat)) (init : Option Nat), acc.length = 16 →
    let step : Nat → Nat → Out := fun p q => elemOp (match op with | .min => .min | .max => .max | _ => .add) ty (sat && op != .min && op != .max) md p q 0
    let r := joined step (init, 0, false) (tree step acc 4 0)
    redResult op ty sat md acc init = { v := r.1.getD 0, fl := r.2.1, sat := r.2.2 }) ∧
  ∀ (s u w t : State) (c : Core) (f : StreamFields) (aw pred : BitVec 3) (md' ma mb : MReg) (d a : Reg),
    let stw := (ctxOf w c).stw
    let md : FMode := { rm := bits stw 6 3, ftz := bit stw 9, daz := bit stw 10 }
    let n := lanesOf f.ot
    let on : Nat → Bool := fun k => f.msk == 0 || bit ((ctxOf w c).mr f.mreg.toNat) k
    let lane : BitVec 5 → Nat → Nat := fun r k => laneAt f.ot (sReg w c r.toNat) k
    let x := (ctxOf w c).mr ma
    let y := (ctxOf w c).mr mb
    let g := getG w c a
    let p := ((getG u c f.sa.toNat).toNat + (getG u c f.sb.toNat).toNat) % 2 ^ 40
    let p' := ((getG w c f.sa.toNat).toNat + (getG w c f.sb.toNat).toNat) % 2 ^ 40
    let mask : Instr → BitVec 16 → Prop := fun i v => exec i s = .next (completes (setCtx w c ((ctxOf w c).setMr md' v)) c)
    let reduces : Instr → RedOp → Prop := fun i op =>
      let ty := op.acc f.ot aw
      let acc := (List.range 16).map (fun k => if k < n ∧ on k = true then some (redTerm op f.ot ty f.sat md none (lane f.sa k) 0).v else none)
      let r := redResult op ty f.sat md acc (if f.sc = 31 then none else some (laneAt ty (sReg w c f.sc.toNat) 0))
      i.wellFormed = true → exec i s =
        .next (completes (setSReg (orStw w c r.fl r.sat) c f.dst.toNat (r.v % 2 ^ typeBits ty)) c)
    (IssuesLazy .plain (some 5) s u w c → reduces (.srsum c aw f) .sum ∧ reduces (.srmin c aw f) .min ∧ reduces (.srmax c aw f) .max) ∧
    (IssuesLazy .plain (some 2) s u w c → (Instr.scmp c pred f).wellFormed = true → ∃ z, exec (.scmp c pred f) s = .next (completes z c) ∧
      ∀ k, k < 16 → bit ((ctxOf z c).mr f.dst.toNat) k =
        (decide (k < n) && (if on k then (elemOp (.cmp pred) f.ot f.sat md (lane f.sa k) (lane f.sb k) (lane f.sc k)).v == 1
          else f.msk != 2 && bit ((ctxOf w c).mr f.dst.toNat) k))) ∧
    (IssuesLazy .plain (accessCost u p 16 true) s u w c → (Instr.sst c f).wellFormed = true → plyOffset p' % 2 = 0 →
      storeRuns w c p' (shortStore w c f) = .ok () t → exec (.sst c f) s = .next (completes t c)) ∧
    (IssuesLazy .plain (some 1) s u w c →
      mask (.mand c md' ma mb) (x &&& y) ∧ mask (.mor c md' ma mb) (x ||| y) ∧ mask (.mxor c md' ma mb) (x ^^^ y) ∧
      mask (.mandn c md' ma mb) (x &&& ~~~y) ∧ mask (.mnot c md' ma) (~~~x) ∧ mask (.mfromg c md' a) (BitVec.ofNat 16 g.toNat) ∧
      mask (.mtail c md' a) (BitVec.ofNat 16 (2 ^ (if g.toNat ≤ 16 then g.toNat else 16) - 1)) ∧
      exec (.mpop c d ma) s = .next (completes (setG w c d (BitVec.ofNat 48 ((List.range 16).filter (fun k => x.getLsbD k)).length)) c) ∧
      exec (.mtog c d ma) s = .next (completes (setG w c d (BitVec.ofNat 48 x.toNat)) c))

/-! ### Exceptions, interrupts, the end of an instruction (R315, R345, R386 to R401, R420 to R429) -/

/-- Taking an exception (R398, R399, R419 to R425). A running core enters the handler of a cause 0x01 to 0x0B, where no interrupt of the lifeline core and no
Capstan switch comes first, when the frame is written, on the lifeline core in its local store, and the handler is fetched: the frame's PC is that of the instruction, or of the
next one for SVC and BREAK outside a slot. An entry that does not lock the core has written the frame 480 plies below DSP_S rounded down to a word; XFP and DSP_S name it, PC is
the handler's address, STW.LVL is 1, LZ, FLAGS and SATS are 0, the other STW fields and the other registers are kept, and no reservation, slot, loop or open chain
remains. A word that spells no instruction raises ILLEGAL where no chain is open (R317); with an open one, a word whose opcode is no stream instruction's raises VECTOR_ISSUE with reason
0x0B first (R265). -/
def Obligations.ExceptionEntry : Prop :=
  (∀ (s t : State) (c : Core) (e : Exc) (pc : Addr), enter s c e pc = some t →
     ¬ (if c.val = 4 then llState t = 5 else rdF t (.capStat c) 0 2 = 2) →
     let x := ctxOf s c
     let y := ctxOf t c
     let top : Addr := BitVec.ofNat 40 (wordBase x.dspS.toNat) - 480
     (∃ u, storeWords s (supWho s c) top.toNat
       (frameWords x (if c.val = 4 then (coreOf s c).loops else []) e pc (coreOf s c).slot) 0 = .ok () u) ∧
     y.xfp = top ∧ y.dspS = top ∧ y.chain = [] ∧
     y.pc = (if c.val = 4 then
         BitVec.ofNat 40 (0x60000000 + 4 * (if 16 ≤ e.cause.toNat ∧ e.cause.toNat < 24 then (rdF s (.llIrq (e.cause.toNat - 16)) 11 13).toNat
           else (rdF s .llFvec 0 13).toNat))
       else BitVec.ofNat 40 ((rd s (.capVbase c (if bit x.stw 13 then 1 else 0))).toNat * 65536 + 64 * e.cause.toNat)) ∧
     bits y.stw 0 6 = 0 ∧ bit y.stw 12 = true ∧ bit y.stw 16 = false ∧
     (∀ i, 6 ≤ i → i ≠ 12 → i ≠ 16 → bit y.stw i = bit x.stw i) ∧
     y.g = x.g ∧ y.f = x.f ∧ y.m = x.m ∧ y.vd = x.vd ∧ y.vfr = x.vfr ∧ y.dspU = x.dspU ∧ y.rspU = x.rspU ∧ y.rspS = x.rspS ∧
     y.ssp = x.ssp ∧ y.xc = x.xc ∧ y.xstw = x.xstw ∧
     (coreOf t c).reservation = none ∧ (coreOf t c).slot = none ∧ (coreOf t c).loops = []) ∧
  (∀ (s u t : State) (c : Core) (e : Exc), s.pwr.aux = true → coreRuns s c = true → 1 ≤ e.cause.toNat → e.cause.toNat ≤ 11 →
     (c.val = 4 → (ctxOf s c).chain = [] → irqEligible s = none) → switches s c = false → (coreOf s c).stepping = false →
     let k := coreOf s c
     let top : Addr := BitVec.ofNat 40 (wordBase (ctxOf s c).dspS.toNat) - 480
     let pc := if (e.cause = 0x09 ∨ e.cause = 0x0B) ∧ k.slot = none then pcOf s c + 4 else pcOf s c
     (c.val = 4 → inLocal top.toNat = true ∧ inLocal (top.toNat + 95) = true) →
     storeWords s (supWho s c) top.toNat (frameWords (ctxOf s c) (if c.val = 4 then k.loops else []) e pc k.slot) 0 = .ok () u →
     let y := ctxOf u c
     let h := handlerOf u c e.cause
     let q := setCtx u c { y with xfp := top, dspS := top, stw := entryStw y.stw, pc := h, chain := [], chainPc := 0 }
     let v := setCore q c (entryCore (coreOf q c))
     fetchAt v c (supWho v c) h.toNat = .ok () t → exec (.exceptionEntry c (.exc e)) s = .next t) ∧
  (∀ (s u : State) (c : Core) (w : W48), s.pwr.aux = true → coreRuns s c = true → fetchIns s c = .ok () u → (∀ i, Instr.ofWord c w ≠ some i) →
     let opc := w.toNat / 2 ^ 40
     let raises : Exc → Prop := fun e => exec (.exceptionEntry c (.word w)) s = .next (trapTo s u c e)
     ((ctxOf u c).chain = [] → raises { cause := 0x01 }) ∧
     ((ctxOf u c).chain ≠ [] → opc < 0xC0 ∨ (0xC8 ≤ opc ∧ opc < 0xE0) ∨ 0xF0 ≤ opc → raises { cause := 0x08, detail := 0x0B, reason := 0x0B }))

/-- The lifeline core takes its lowest pending interrupt below the running level (R396 to R398): its PEND clears, LEVEL and STW.PRI become its
number, the handler runs, BLY opens a belay window and CKPT takes a checkpoint. `u` is the state that the entry alone gives. -/
def Obligations.InterruptTaken : Prop :=
  ∀ (s u : State) (k : Nat), s.pwr.aux = true → coreRuns s 4 = true → k < 8 → rdB s .llStat (13 + k) = true → k < llLevel s →
    (∀ j, j < k → rdB s .llStat (13 + j) = false) → bit (ctxOf s 4).stw 14 = true → belayed s 4 = false →
    (coreOf s 4).shadow = 0 → (coreOf s 4).slot = none → (coreOf s 4).stepping = false → (ctxOf s 4).chain = [] →
    let z := setCore (discardChain s 4) 4 { coreOf (discardChain s 4) 4 with waiting := false }
    enter (wrB z .llStat (13 + k) false) 4 { cause := BitVec.ofNat 8 (16 + k) } (pcOf z 4) = some u → llState u = 2 →
    ∃ t, exec .interruptEntry s = .next t ∧ rdB t .llStat (13 + k) = false ∧ llLevel t = k ∧
      bits (ctxOf t 4).stw 17 6 = BitVec.ofNat 6 k ∧ pcOf t 4 = pcOf u 4 ∧ (ctxOf t 4).xfp = (ctxOf u 4).xfp ∧
      (∀ n, getG t 4 n = getG s 4 n) ∧
      (rdB u (.llIrq k) 9 = true → (coreOf t 4).belayMark = true ∧ (coreOf t 4).belayFrame = (ctxOf u 4).xfp) ∧
      (rdB u (.llIrq k) 10 = true → t.checkpoint = some { ctx := ctxOf t 4, level := BitVec.ofNat 4 k } ∧
        rd t .llCycle = rd u .llCycle + 1) ∧
      (rdB u (.llIrq k) 10 = false → t.checkpoint = s.checkpoint ∧ rd t .llCycle = rd u .llCycle)

/-- Where execution goes on after an instruction (R315, R326, R386, R392): at PC + 4; at the branch's target after the slot; at START of the innermost
loop while its count is above 1, the count one less; past a level whose count is 1. A branch of the lifeline core takes effect after its slot. The
registers stay. -/
def Obligations.NextInstruction : Prop :=
  ∀ (s : State) (c : Core) (v : Addr) (l : Loop) (rest : List Loop),
    let t := retire s c
    let k := coreOf s c
    (∀ n, getG t c n = getG s c n ∧ getFr t c n = getFr s c n) ∧ (ctxOf t c).stw = (ctxOf s c).stw ∧
    (coreOf t c).shadow = k.shadow - 1 ∧ (coreOf t c).slot = none ∧
    (k.slot = some v → pcOf t c = v ∧ (coreOf t c).loops = k.loops) ∧
    (k.slot = none → k.loops = [] → pcOf t c = pcOf s c + 4) ∧
    (k.slot = none → k.loops = l :: rest → l.start + 4 * BitVec.ofNat 40 l.k.toNat ≠ pcOf s c →
      pcOf t c = pcOf s c + 4 ∧ (coreOf t c).loops = l :: rest) ∧
    (k.slot = none → k.loops = l :: rest → l.start + 4 * BitVec.ofNat 40 l.k.toNat = pcOf s c → l.count ≠ 1 →
      pcOf t c = l.start ∧ (coreOf t c).loops = { l with count := l.count - 1 } :: rest) ∧
    (k.slot = none → k.loops = l :: rest → l.start + 4 * BitVec.ofNat 40 l.k.toNat = pcOf s c → l.count = 1 → rest = [] →
      pcOf t c = pcOf s c + 4 ∧ (coreOf t c).loops = []) ∧
    (c.val ≠ 4 → pcOf (takeBranch s c (some v)) c = v ∧ pcOf (takeBranch s c none) c = pcOf s c + 4) ∧
    (c.val = 4 → pcOf (takeBranch s c (some v)) c = pcOf s c + 4 ∧ (coreOf (takeBranch s c (some v)) c).slot = some v ∧
      (coreOf (takeBranch s c none) c).slot = some (pcOf s c + 8))

/-- What R387, R394 and R401 forbid raises ILLEGAL: branches, loop instructions, ERET, WAIT, SETMODE, VFENCE and stream instructions in a delay slot;
branches, loop instructions, ERET and WAIT at the end of a loop body; one without a fixed count of at most 8 cycles in the SETMODE shadow. ERET, SETMODE, MFBW
and MTBW below supervisor level raise PRIVILEGE (R312, R338, R421, R448). Every instruction that is no stream instruction, with a chain open, raises VECTOR_ISSUE
with reason 0x0B (R222, R265). That the rules of the slot and of the loop end (R387, R394: the lifeline's) hold where a scalar core has a slot or a loop open is log 27; that MTBW
of a STW with a reserved RM raises ILLEGAL, whatever the level, is log 29. -/
def Obligations.ForbiddenInstructions : Prop :=
  (∀ (s u : State) (c : Core) (a d : Reg) (imm : BitVec 30) (n : BitVec 7), coreRuns s c = true → fetchIns s c = .ok () u → (ctxOf u c).chain = [] →
     let k := coreOf u c
     let stops : List Instr → Prop := fun l => ∀ i ∈ l, exec i s = .next (trapTo s u c illegal)
     (k.slot.isSome = true →
       stops [.bz c a imm, .bnz c a imm, .jmp c imm, .jr c a, .call c imm, .callr c a, .ret c, .loop c a n, .endloop c, .eret c, .wait c,
         .setmode c a, .vfence c d]) ∧
     (∀ i x, i.core? = some c → i.stream? = some x → (coreOf (entryReads c x u) c).slot.isSome = true →
       exec i s = .next (trapTo s (entryReads c x u) c illegal)) ∧
     (∀ l rest, k.loops = l :: rest → l.start + 4 * BitVec.ofNat 40 l.k.toNat = pcOf u c →
       stops [.bz c a imm, .bnz c a imm, .jmp c imm, .jr c a, .call c imm, .callr c a, .ret c, .loop c a n, .endloop c, .eret c,
         .wait c]) ∧
     (c.val = 4 → k.shadow ≠ 0 → stops [.div c d a a, .remu c d a a, .eret c, .wait c, .vfence c d])) ∧
  (∀ (s u : State) (c : Core) (a b : Reg), coreRuns s c = true → fetchIns s c = .ok () u →
     (ctxOf u c).chain = [] → (coreOf u c).slot = none → (coreOf u c).loops = [] → (coreOf u c).shadow = 0 → bit (ctxOf u c).stw 12 = false →
     exec (.eret c) s = .next (trapTo s u c { cause := 0x02 }) ∧ exec (.setmode c a) s = .next (trapTo s u c { cause := 0x02 }) ∧
     (c.val ≠ 4 → exec (.mfbw c a b) s = .next (trapTo s u c { cause := 0x02 }) ∧
       (bits (getG s c a) 0 7 ≠ (97 : BitVec 7) → exec (.mtbw c a b) s = .next (trapTo s u c { cause := 0x02 })))) ∧
  (∀ (s u : State) (c : Core) (i : Instr), coreRuns s c = true → fetchIns s c = .ok () u → (ctxOf u c).chain ≠ [] →
     i.core? = some c → i.stream? = none →
       exec i s = .next (trapTo s u c { cause := 0x08, detail := 0x0B, reason := 0x0B }))

/-- The frame and the lazy area keep what they save (R395, R423, R428): read back, the frame gives the stacks, the frame pointer, the loops, G1 to G3
and the frame's PC, and the lazy area gives every F, M and VD register and VFR. -/
def Obligations.SavedStateReturns : Prop :=
  ∀ (c : Nat) (x y : Ctx) (loops : List Loop) (e : Exc) (pc : Addr) (slot : Option Addr), loops.length ≤ 3 → pc.toNat % 4 = 0 →
    let l := frameWords x loops e pc slot
    let z := ofFrame c y l
    let r := ofLazy y (lazyWords x)
    z.pc = pc ∧ z.dspS = x.dspS ∧ z.rspS = x.rspS ∧ z.ssp = x.ssp ∧ z.xfp = x.xfp ∧ z.gr 1 = x.gr 1 ∧ z.gr 2 = x.gr 2 ∧ z.gr 3 = x.gr 3 ∧
    (∀ n, 4 ≤ n → z.gr n = y.gr n) ∧ (c ≠ 4 → z.dspU = x.dspU ∧ z.rspU = x.rspU) ∧ (c = 4 → z.dspU = 0 ∧ z.rspU = 0) ∧
    frameLoops l = loops ∧ bits (l.getD 0 0) 40 8 = e.cause ∧ bit (l.getD 0 0) 56 = slot.isSome ∧
    (∀ v, slot = some v → bits (l.getD 3 0) 0 40 = v) ∧
    (∀ n, n < 32 → r.fr n = x.fr n) ∧ (∀ n, n < 8 → r.mr n = x.mr n) ∧ (∀ n, n < 16 → r.vdr n = x.vdr n) ∧ r.vfr = x.vfr ∧
    r.pc = y.pc ∧ r.stw = y.stw ∧ r.g = y.g

/-! ### Memory (R7, R54, R55, R58, R137 to R145) -/

/-- A store changes no word but those that its plies lie in, and a load changes none (R54, R55, R58, R145, R346, R348), where no stored word is in error and no
channel has failed: as any master meets the words, for accesses beside the caches and for those whose lines L2 holds as memory does; and, for every access, the
target's own word, where no dirty line of L2 holds it and no line of the access does. The words of the error log stand apart: an error of a cache is logged. -/
def Obligations.MemoryFrame : Prop :=
  ∀ (s t : State) (w : Who) (a n v : Nat) (detail : BitVec 32),
    let sound : StoredWord → Prop := fun x => x.err = 0 ∧ x.fold = 0 ∧ x.poison = false
    let outside : Nat → Prop := fun k => ∀ i, i < n → k ≠ wordBase (remapped s (a + i))
    let apart : Nat → Prop := fun k => k < sumpBase + 6 * 2097152 ∨ sumpBase + 6 * (2097152 + 65536) ≤ k
    let stores : Prop := storePliesAt s w a n v detail = .ok () t
    let loads : Prop := ∃ x, loadPlies s w a n detail = .ok x t
    (∀ k, sound (cellAt s k) ∧ sound (memAt s k)) → (∀ m, m < 128 → rdB s (.dsChStat m) 1 = false) →
    ((∀ i, i < n → viaCaches s w (a + i) = false) ∨
      ((∀ i, i < n → (s.store.l2Way (a + i)).isSome = true) ∧ ∀ k x, cacheable k = true → s.store.l2Word k = some x → x = memAt s k) →
     (stores → ∀ k, apart k → outside k → memAt t k = memAt s k) ∧ (loads → ∀ k, apart k → memAt t k = memAt s k)) ∧
    (stores ∨ loads → ∀ k, apart k → outside k → (∀ i, i < n → k ∉ lineKeys (lineOf (a + i))) →
      (∀ e ∈ s.store.l2.entries, e.2.dirty = true → k ∉ lineKeys e.2.line) → cellAt t k = cellAt s k)

/-- Plies that are stored are loaded again (R7, R54, R55, R346): with stored words and the caches free of errors and no injection armed, the load of the
plies just stored gives the stored value, beside the caches or through them. -/
def Obligations.LoadAfterStore : Prop :=
  ∀ (s t : State) (w : Who) (a n v x y : Nat) (detail : BitVec 32) (u z : State),
    (∀ k, (cellAt s k).err = 0 ∧ (cellAt s k).fold = 0 ∧ (cellAt s k).poison = false) → CachesSound s →
    (∀ m, m < 128 → rdB s (.dsChStat m) 1 = false) → w.exempt = false →
    rdB s .eccInjCtl 17 = false → loadPlies s w a n detail = .ok x u → storePliesAt s w a n v detail = .ok () t →
    loadPlies t w a n detail = .ok y z → y = v % 2 ^ (12 * n)

/-- A correctable word is read as its data, counted, logged and written back corrected; an uncorrectable one is delivered with the poison mark,
counted, and rewritten as poisoned (R140, R143, R144). Where the interval has room and the sump channel works, each of the two is logged in the two words at
HEAD of the error log, with its type, unit, master, address and positions (R163, R164, R166). -/
def Obligations.ErrorsOnRead : Prop :=
  ∀ (s : State) (n i : Nat) (m : Byte), n < 16 → i < 524288 →
    let key := 0x10000000 + n * 0x300000 + 6 * i
    let w := memAt s key
    let r := readWord s key m
    let t := r.2
    let at' : Nat := sumpBase + 6 * (2097152 + 2 * (rdF s .eccLogHead 0 15).toNat)
    let logged : Byte → BitVec 88 → Prop := fun type bad => s.store.logCount < 1024 → rdB s (.dsChStat 127) 1 = false →
      let e := errorEntry type (128 + n) m key w bad
      cellAt t at' = { data := (e.words s.clock).1 } ∧ cellAt t (at' + 6) = { data := (e.words s.clock).2 }
    w.poison = false → w.fold = 0 →
    (w.err = 0 → r = ({ data := w.data, poison := false }, s)) ∧
    (popCount w.err = 1 ∨ popCount w.err = 2 → r.1 = { data := w.data, poison := false } ∧ memAt t key = { data := w.data } ∧
      rd t (.eccCe (128 + n)) = bumpField (rd s (.eccCe (128 + n))) 0 24 1 ∧ logged (if popCount w.err = 1 then 1 else 2) w.err ∧
      (∀ k, k < 0x1C00000000 → k ≠ key → memAt t k = memAt s k)) ∧
    (popCount w.err = 3 → r.1.poison = true ∧ memAt t key = { poison := true } ∧
      rd t (.eccUe (128 + n)) = bumpField (rd s (.eccUe (128 + n))) 0 24 1 ∧ logged 3 0 ∧ (∀ k, k < 0x1C00000000 → k ≠ key → memAt t k = memAt s k))

/-! ### Control registers (R16, R19, R21, R650) -/

/-- Access codes (R16): a write sets RW and RWS fields to the written bits, clears the W1C bits written 1, and leaves RO, RC and WO fields and every other
register. A W1C bit of a block whose clock is the event tick, set by the hardware in the tick of the write, stays 1; one set earlier is cleared (R17, R648; log 168). A write
reaches its block: accepted, it has the block's effect; rejected, it changes nothing but REJ, which is 1, and CODE, which gives the reason, of the
block's status register (R21). A register whose writable fields are all RWS, written again in a start, the value it holds included, is rejected WRITTEN_ONCE (R19,
shown of PMP_SHARE and PMP_QUANTUM); one that only safety supervisor code may write rejects others (R16). That boot firmware and the lifeline write ECC_CFG, ECC_INJ_A and SCR_CFG is
log 58, that PMP_SHARE and PMP_QUANTUM take a write of any writer log 36; a write of a core also moves the round-robin pointer of target 18 (R196). -/
def Obligations.RegisterWrites : Prop :=
  (∀ (s : State) (r q : Rg) (v : Reg24) (i : Nat), i < 24 →
     let b := r.bits
     let t := store s r v
     bit (rd t r) i = (if bit b.rw i || bit b.rws i then bit v i else if bit b.w1c i then bit (rd s r) i && (!bit v i || bit (justSet s r) i) else bit (rd s r) i) ∧
     ((∀ m, s.events.marks.find r.index = some m → m.tick ≠ (s.clock, s.events.now)) → justSet s r = 0) ∧
     (ticked r.index = true → bit b.rw i = false → bit b.rws i = false → bit (rd (store (setFlag s r i) r v) r) i = true) ∧
     (q.index ≠ r.index → rd t q = rd s q) ∧ t.mem = s.mem ∧ t.ctxs = s.ctxs ∧
     (b.rws ≠ 0 → r.index ∈ t.rwsDone) ∧ (∀ j, j ∈ s.rwsDone → j ∈ t.rwsDone)) ∧
  (∀ (s t : State) (w : Writer) (r q : Rg) (v : Reg24) (e : Reject), Rg.ofIndex r.index = some r → Reaches s w r.index →
     let a := authOf s w
     let gives : State → Prop := fun z => exec (.controlRegisterWrite w r.index v) s = .next z
     let st := statusOf r
     let g := grantRegisters s w
     let z := postReject g r e
     (putBlock g a r v = .ok t → gives t) ∧
     (putBlock g a r v = .error e → gives z ∧ bit (rd z st.1) st.2 = true ∧ bits (rd z st.1) 12 12 = e.code ∧
       (∀ i, i < 12 → i ≠ st.2 → bit (rd z st.1) i = bit (rd s st.1) i) ∧ (q.index ≠ st.1.index → rd z q = rd s q) ∧ z.mem = s.mem ∧ z.ctxs = s.ctxs) ∧
     (r = .eccCfg ∨ r = .eccInjAlo ∨ r = .eccInjAhi ∨ r = .scrCfg →
       (a.boot || (a.safety && a.sup) → gives (store g r v)) ∧ (a.boot = false → a.safety = false → gives (post g st.1 st.2 .notPermitted))) ∧
     (r = .pmpShare ∨ r = .pmpQuantum → (r.index ∉ s.rwsDone → gives (store g r v)) ∧
       (r.index ∈ s.rwsDone → gives (post g .pmpCmd 0 .writtenOnce))))

/-! ### Belay windows, switches, task slots (R400, R437, R442 to R447, R453, R454) -/

/-- The belay limit of a core (R400, R437): the window ends, IE becomes 1 and BOCNT counts; without a window nothing happens. A switch to a resident task
(R445, R447, R452): at a boundary that allows it, the READY task of the highest priority that became ready first, of those made ready in one tick the one of the lowest slot, runs when the core is idle or runs
a task of lower priority, which becomes READY; nothing changes when no READY task has a higher priority, or a belay window is in force. That the displaced task stands last
in the ready list is log 76. -/
def Obligations.BelaysAndSwitches : Prop :=
  (∀ (s : State) (c : Core), s.pwr.aux = true →
     let row : Instr := if h : c.val < 4 then .capstanBelayLimit ⟨c.val, h⟩ else .belayLimit
     (belayed s c = false → exec row s = .next s) ∧
     (belayed s c = true → ∃ t, exec row s = .next t ∧ belayed t c = false ∧ bit (ctxOf t c).stw 14 = true ∧ bit (ctxOf t c).stw 15 = false ∧
       (∀ i, i ≠ 14 → i ≠ 15 → bit (ctxOf t c).stw i = bit (ctxOf s c).stw i) ∧ pcOf t c = pcOf s c ∧
       (∀ n, getG t c n = getG s c n ∧ getFr t c n = getFr s c n) ∧ t.mem = s.mem ∧
       (c.val = 4 → rd t .llRb = bumpField (rd s .llRb) 12 12 1 ∧ rdB t .llStat 8 = false) ∧
       (c.val < 4 → rd t (.capBocnt c) = bumpField (rd s (.capBocnt c)) 0 12 1 ∧ rdB t (.capStat c) 7 = false))) ∧
  (∀ (s : State) (c : Fin 4) (t r : Nat) (l m : List Nat), s.pwr.aux = true → inRun s = true → phase s = 0 → halted s c = false →
     (coreOf s c).stepping = false → (coreOf s c).haltFirst = false → (capOf s c).faults = [] → (capOf s c).ready = l ++ t :: m → t < 64 → t ∉ l → t ∉ m →
     (∀ u ∈ l, taskPri s c u < taskPri s c t) → (∀ u ∈ m, taskPri s c u < taskPri s c t ∨ (taskPri s c u = taskPri s c t ∧
       ((capOf s c).readyAt.get u (0, 0) ≠ (capOf s c).readyAt.get t (0, 0) ∨ t < u))) → taskState s c t = 2 →
     let runs : State → Prop := fun z => exec (.capstanSwitch c) s = .next z
     let starts : State → Prop := fun z => rdF z (.capStat c) 0 2 = 0 ∧ bankOf z c = taskBank s c t ∧ taskState z c t = 3 ∧
       (capOf z c).ready = (if rdF s (.capStat c) 0 2 = 1 then l ++ m else l ++ m ++ [r]) ∧ (coreOf z c).reservation = none ∧ z.mem = s.mem ∧
       (∀ n, getG z c n = (ctxAt s (ctxKey c (taskBank s c t))).gr n) ∧ pcOf z c = (ctxAt s (ctxKey c (taskBank s c t))).pc
     (rdF s (.capStat c) 0 2 = 1 → runningTask s c = none → resident s c t = true → ∃ z, runs z ∧ starts z) ∧
     (rdF s (.capStat c) 0 2 = 0 → 4 ≤ bankOf s c → belayed s c = false → (coreOf s c).shadow = 0 → (coreOf s c).slot = none → (ctxOf s c).chain = [] →
       runningTask s c = some r → r ≠ t → r ∉ l → r ∉ m → resident s c t = true →
       (taskPri s c r < taskPri s c t → ∃ z, runs z ∧ starts z ∧ taskState z c r = 2) ∧
       (taskPri s c t ≤ taskPri s c r → runs s)) ∧
     (rdF s (.capStat c) 0 2 = 0 → belayed s c = true → runs s))

/-- Task slots (R442, R443, R453, R454). A write by supervisor code of the slot's world that sets VALID, with a control block that lies in one region and an
event line of that world's owner code, makes the slot WAITING without a bank; with VALID 0 a slot that does not run becomes INVALID. A new context takes
PC, the stacks and SSP from words 0 to 5 of its control block, and STW from the slot's world and priority. A spilled context comes back as it was. That the two low bits of PC are cleared is log 14. -/
def Obligations.TaskSlots : Prop :=
  ∀ (s : State) (w : Writer) (c : Fin 4) (t : Fin 64) (v : Reg24) (l : List Word72) (x : Ctx), Reaches s w (Rg.capTsk c t 1).index →
    let a := authOf s w
    let p := partOf s c
    let world := bit v 16
    let r : Rg := .capTsk c t 1
    let addr := (rd s (.capTsk c t 0)).toNat + (bits v 0 16).toNat * 2 ^ 24
    (a.sup = true → a.code = ownerCode p world → taskValid s c t = false → taskState s c t = 0 → bit v 17 = true → tcbOk addr = true →
      lineOwner s (rdF s (.capTsk c t 2) 6 8).toNat = ownerCode p world →
      ∃ z, exec (.capTsk w c t 1 v) s = .next z ∧ taskState z c t = 1 ∧ taskValid z c t = true ∧ taskWorld z c t = world ∧ resident z c t = false ∧
        rd z r = (rd s r &&& 0xFC0000) ||| (v &&& 0x3FFFF)) ∧
    (a.sup = true → a.code = ownerCode p world → taskWorld s c t = world → taskValid s c t = true → taskState s c t ≠ 3 → bit v 17 = false →
      ∃ z, exec (.capTsk w c t 1 v) s = .next z ∧ taskState z c t = 0 ∧ resident z c t = false ∧ t.val ∉ (capOf z c).ready) ∧
    (a.sup = true → a.code = ownerCode p (taskWorld s c t) → taskValid s c t = false → taskState s c t = 0 →
      exec (.capTsk w c t 0 v) s = .next (store (grantRegisters s w) (.capTsk c t 0) v) ∧
        exec (.capTsk w c t 2 v) s = .next (store (grantRegisters s w) (.capTsk c t 2) v)) ∧
    (let y := newContext s c t l
     y.pc.toNat = (l.getD 0 0).toNat % 2 ^ 40 / 4 * 4 ∧ y.dspU = bits (l.getD 1 0) 0 40 ∧ y.dspS = bits (l.getD 2 0) 0 40 ∧
      y.rspU = bits (l.getD 3 0) 0 40 ∧ y.rspS = bits (l.getD 4 0) 0 40 ∧ y.ssp = bits (l.getD 5 0) 0 40 ∧ y.xfp = 0 ∧ y.xc = 0 ∧
      (∀ n, y.gr n = 0 ∧ y.fr n = 0) ∧ bit y.stw 12 = false ∧ bit y.stw 13 = taskWorld s c t ∧ bit y.stw 14 = true ∧
      (bits y.stw 17 6).toNat = taskPri s c t) ∧
    (x.pc.toNat % 4 = 0 → let y := ofImage (imageWords x)
     y.pc = x.pc ∧ y.stw = x.stw &&& 0x7FF7FF ∧ y.dspU = x.dspU ∧ y.dspS = x.dspS ∧ y.rspU = x.rspU ∧ y.rspS = x.rspS ∧ y.ssp = x.ssp ∧
      y.xfp = x.xfp ∧ y.xc = x.xc ∧ y.xstw = x.xstw ∧ y.xdspU = x.xdspU ∧ y.xdspS = x.xdspS ∧ y.xrspU = x.xrspU ∧ y.xrspS = x.xrspS ∧ y.xxfp = x.xxfp ∧
      y.vfr = x.vfr ∧ (∀ n, n < 32 → y.gr n = x.gr n ∧ y.fr n = x.fr n) ∧ (∀ n, n < 8 → y.mr n = x.mr n) ∧ (∀ n, n < 16 → y.vdr n = x.vdr n))

/-! ### The lifeline (R402 to R409, R417) -/

/-- Lockstep (R403, R405): a mismatch of the enabled pair starts a roll-back, unless RB is 1 or four roll-backs lie in the last second; then, and in ENABLING and
RECOVERING, it locks the core; elsewhere it means nothing. A roll-back that ends well restores the checkpoint's registers, sets RB, counts and runs again; a failed
self-test locks. That a roll-back counts among the four from its mismatch on is log 84. -/
def Obligations.LockstepRecovery : Prop :=
  ∀ (s : State) (k : Checkpoint), s.pwr.aux = true →
    let recent := s.rollbacks.filter (fun t => decide (s.clock < t + 40000000))
    (llState s = 2 → rdB s .llStat 3 = false → recent.length < 4 →
      ∃ t, exec .lockstepMismatch s = .next t ∧ llState t = 3 ∧ t.rollbacks = s.clock :: recent ∧ t.checkpoint = s.checkpoint) ∧
    (llState s = 2 → rdB s .llStat 3 = true ∨ 4 ≤ recent.length → ∃ t, exec .lockstepMismatch s = .next t ∧ llState t = 5) ∧
    (llState s = 1 ∨ llState s = 3 → ∃ t, exec .lockstepMismatch s = .next t ∧ llState t = 5) ∧
    (llState s = 0 ∨ llState s = 4 ∨ llState s = 5 → exec .lockstepMismatch s = .next s) ∧
    (llState s = 3 → s.checkpoint = some k → (∀ i, i < 128 → badCheckpoint s (0x60010000 + 6 * i) = false) → (coreOf s 4).stepping = false →
      (∃ t, exec (.rollbackComplete true) s = .next t ∧ llState t = 2 ∧ rdB t .llStat 3 = true ∧
        rd t .llRb = bumpField (rd s .llRb) 0 12 1 ∧ (∀ n, getG t 4 n = k.ctx.gr n ∧ getFr t 4 n = k.ctx.fr n) ∧ pcOf t 4 = k.ctx.pc ∧
        (ctxOf t 4).dspS = k.ctx.dspS ∧ (ctxOf t 4).rspS = k.ctx.rspS ∧ (ctxOf t 4).ssp = k.ctx.ssp ∧ (ctxOf t 4).vfr = k.ctx.vfr ∧
        llLevel t = k.level.toNat ∧ (ctxOf t 4).chain = [] ∧ (coreOf t 4).reservation = none ∧ (coreOf t 4).loops = [] ∧ (coreOf t 4).slot = none) ∧
      (∃ t, exec (.rollbackComplete false) s = .next t ∧ llState t = 5)) ∧
    (llState s ≠ 3 → ∀ ok, exec (.rollbackComplete ok) s = .next s)

/-- Enabling and disabling (R406 to R409). A steward's write of LL_CTL with EN 1 in DISABLED, an image loaded and a pump left, makes STATE ENABLING and CYCLE 0; the
self-test well ended with cistern 15 ready, the pair is ENABLED at level 8, PC 0x6000_0000, every register 0 and no interrupt pending; a failed one locks. With EN 0
in ENABLED or LOCKED, STATE is DISABLING, and then, where no access is held, DISABLED with the local store zeroed. Without an image, a pump or the right the write is rejected. That no interrupt is pending at ENABLED is
log 84. -/
def Obligations.LifelineEnables : Prop :=
  ∀ (s : State) (w : Writer) (v : Reg24) (image : Nat × Nat × Nat), Reaches s w Rg.llCtl.index →
    let a := authOf s w
    let g := grantRegisters s w
    let on : State → Prop := fun t => exec (.llEnable w v) s = .next t
    let off : State → Prop := fun t => exec (.llDisable w v) s = .next t
    (llState s = 0 → s.fw.lifeline = some image → (highestPump s).isSome = true → steward s a = true → combined s ≠ 7 →
      ∃ t, on t ∧ llState t = 1 ∧ rd t .llCycle = 0 ∧ rdB t .llCtl 0 = true) ∧
    (llState s = 0 → s.fw.lifeline = none → a.anySafSup = true → on (post g .llCmd 0 .noImage)) ∧
    (llState s = 0 → s.fw.lifeline = some image → highestPump s = none → a.anySafSup = true → on (post g .llCmd 0 .noPump)) ∧
    (llState s = 1 ∨ llState s = 3 ∨ llState s = 4 → a.anySafSup = true → on (post g .llCmd 0 .busy) ∧ off (post g .llCmd 0 .busy)) ∧
    (a.anySafSup = false → a.lifeline = false → on (post g .llCmd 0 .notPermitted) ∧ off (post g .llCmd 0 .notPermitted)) ∧
    (llState s = 2 ∨ llState s = 5 → steward s a = true ∨ a.lifeline = true → ∃ t, off t ∧ llState t = 4 ∧ rdB t .llCtl 0 = false) ∧
    (llState s = 1 → s.fw.lifeline = some image → cistern15Ready s = true → (coreOf s 4).stepping = false → Quiet s →
      ∃ t, exec (.llEnableComplete true) s = .next t ∧ llState t = 2 ∧ llLevel t = 8 ∧ pcOf t 4 = 0x60000000 ∧
        (∀ n, getG t 4 n = 0 ∧ getFr t 4 n = 0) ∧ bits (rd t .llStat) 13 8 = 0 ∧ rd t .llCycle = rd s .llCycle + 1 ∧
        t.checkpoint = some { ctx := ctxOf t 4, level := 8 }) ∧
    (llState s = 1 → Quiet s → ∃ t, exec (.llEnableComplete false) s = .next t ∧ llState t = 5) ∧
    (llState s = 4 → inTransition s 15 = false → Quiet s → s.store.held = [] → ∃ t, exec .llDisableComplete s = .next t ∧ llState t = 0 ∧
      ∀ i, i < 8192 → memAt t (0x60000000 + 6 * i) = {})

/-! ### Pumps and the dispatcher (R225 to R257) -/

/-- The dispatcher and the pumps (R225 to R230, R244, R246, R253, R257). A waiting splice that may start goes to the lowest idle shared pump, the one issued first
among its owner code's. A splice whose run comes to its end is final: its trail and status show it and its pump is idle; an ending by a cause carries the
cause's bit and those of the other causes that failed at its last element. Of one unmasked element operation on plies of a cistern without errors, a
run of one group leaves each ply as its elements leave it that are executed one at a time in ascending order, and no other ply changes (R237, R238); a reduction takes its element i into the accumulator
i mod 16 (R249). A check counts for every running splice, each of which may have gone on by whole groups (log 154), and preempts the chosen one when it has a free
record, none with QUANTUM 0. A saving pump at a group boundary leaves the splice saved and is
idle. A pump that fails its check is marked failed. A kill of a code by its safety supervisor runs until the killed splices are gone; with SPL_KILL_COMPLETE the splices of a lifeline in
RECOVERING or DISABLING are gone too (log 129). A kill spares the splices issued after its write (log 151). -/
def Obligations.PumpCommands : Prop :=
  ∀ (s : State) (w : Writer) (p : Splice) (l m : List Splice) (i : Fin 16) (v : Reg24), s.pwr.aux = true →
    let o : OwnerCode := bits v 0 4
    let a := authOf s w
    (llHolds s = false → s.splices.list = l ++ p :: m → p.core ≠ 4 → p.owner.toNat < 8 → p.phase = .waiting → eligible s p = true →
      (∀ q ∈ l ++ m, q.id ≠ p.id ∧ (q.core ≠ 4 → eligible s q = true → q.owner = p.owner ∧ q.isSaved = false ∧ p.id < q.id)) →
      sharedPump s i = true → idlePump s i = true → (∀ j, j < i.val → sharedPump s j = false ∨ idlePump s j = false) →
      ∃ t, exec .spliceAccept s = .next t ∧ { p with phase := .running i, ran := 0, stamp := s.splices.stamp } ∈ t.splices.list ∧
        pumpState t i = 1 ∧ t.mem = s.mem ∧ t.ctxs = s.ctxs) ∧
    (spliceOn s i = some p → p.phase = .running i → frozen s i = false →
      let g := runTo s p i (p.count s)
      g.held = false → pumpFailed g.s i = false →
      (g.ended = none → g.p.count g.s ≤ g.p.elem → ∃ t, exec (.spliceComplete i) s = .next t ∧ pumpState t i = 0 ∧ (∀ q ∈ t.splices.list, q.id ≠ g.p.id) ∧
        rd t (.splStat i) = g.p.status ||| 1 ∧ (trailOf t g.p.cid).ended = (trailOf g.s g.p.cid).ended ||| g.p.status ||| 1 ∧ t.mem = g.s.mem) ∧
      (∀ z, g.ended = some z → ∃ t, exec (.spliceComplete i) s = .next t ∧ pumpState t i = 0 ∧ (∀ q ∈ t.splices.list, q.id ≠ g.p.id) ∧
        rd t (.splStat i) = g.p.status ||| 1 ||| causeBit z.cause ||| z.causes ∧ rdF t (.splEleml i) 0 24 = BitVec.ofNat 24 z.elem)) ∧
    (∀ (x : SIns) (op : ElemOp) (red : RedOp) (aw : BitVec 3) (n : Fin 16) (place : Role → Nat → Nat),
      let md : FMode := { rm := p.rm, ftz := p.ftz, daz := p.daz }
      let count := p.count s
      let ply : State → Nat → Nat := fun z b => (wordPly (memAt z (wordBase b)).data (plyInWord b)).toNat
      let arg : (Nat → Nat) → Role → Nat → Nat := fun mem r k => if (x.key r).isSome then mem (place r k) else 0
      let lies : Role → Prop := fun r => ∀ d k, x.key r = some d → k < count →
        (capturedAt p.descs d).locate k = ((place r k : Int), 0, 12) ∧ regionOf (place r k) = some (.cistern n)
      p.instrs = [x] → x.f.msk = 0 → (∀ r, x.link r = none) → p.elem = 0 → checkCistern s (spliceWho p i) n = .ok →
      (∀ y, (cellAt s y).err = 0 ∧ (cellAt s y).fold = 0 ∧ (cellAt s y).poison = false) → rdB s .eccInjCtl 17 = false →
      (x.op = .elem op → (∀ r, lies r) → count ≤ 64 →
        let step : (Nat → Nat) → Nat → Nat → Nat := fun mem k b =>
          if x.key .d = none ∨ b ≠ place .d k then mem b
          else (elemOp op x.f.ot x.f.sat md (arg mem .a k) (arg mem .b k) (arg mem .c k)).v % 4096
        let g := runTo s p i count
        g.held = false ∧ g.ended = none ∧ g.p.elem = count ∧ g.s.regs = s.regs ∧ ∀ b, ply g.s b = (List.range count).foldl step (ply s) b) ∧
      (x.op = .red red aw → lies .a → lies .b → 64 < count → p.acc = List.replicate 16 none →
        let term : Option Nat → Nat → Option Nat := fun acc k =>
          some (redTerm red x.f.ot (red.acc x.f.ot aw) x.f.sat md acc (arg (ply s) .a k) (arg (ply s) .b k)).v
        let g := runTo s p i 64
        g.held = false ∧ g.ended = none ∧ g.p.elem = 64 ∧ (∀ b, ply g.s b = ply s b) ∧
          ∀ j, j < 16 → g.p.acc.getD j none = ((List.range 4).foldl (fun acc q => term acc (16 * q + j)) none).map (BitVec.ofNat 48))) ∧
    (let counted : State := { s with splices := { s.splices with list := s.splices.list.map (fun q =>
        match q.phase with | .running j => if frozen s j then q else { q with ran := q.ran + 1 } | _ => q) } }
     let checked : State := (List.range 16).foldl advanceOn counted
     (victim checked = none → exec .preemptCheck s = .next checked) ∧
     (inRun checked = true → phase checked = 0 → victim checked = some (p, i.val) → spliceOn checked i = some p → p.phase = .running i →
      (freeHalf checked p).isSome = true → pumpFailed checked i = false →
      ∃ t, exec .preemptCheck s = .next t ∧ pumpState t i = 2 ∧ { p with phase := .saving i, stamp := checked.splices.stamp } ∈ t.splices.list ∧
        t.mem = checked.mem)) ∧
    (∀ z : State, rdF z .pmpQuantum 0 12 = 0 → victim z = none) ∧
    (spliceOn s i = some p → p.phase = .saving i → frozen s i = false →
      let b := boundary s p 1
      let g := runTo b.2 p i b.1
      ∀ h z, g.held = false → g.ended = none → g.p.elem < g.p.count g.s → freeHalf g.s g.p = some h → pumpFailed z i = false →
        checkRecord g.s (spliceWho g.p i) (recordAt g.p h) .write = (.ok, z) → (∃ q ∈ z.splices.list, q.id = g.p.id) →
        ∃ t, exec (.preemptionComplete i) s = .next t ∧ (∃ q ∈ t.splices.list, q.id = g.p.id ∧ q.phase = .saved h ∧ q.elem = g.p.elem)) ∧
    (spliceOn s i = none → exec (.spliceComplete i) s = .next s ∧ exec (.preemptionComplete i) s = .next s ∧ exec (.pumpFault i) s = .next s) ∧
    (spliceOn s i = some p → p.phase = .running i ∨ p.phase = .saving i → pumpFailed s i = false →
      ∃ t, exec (.pumpFault i) s = .next t ∧ pumpFailed t i = true ∧ (rdF t (.pmpStat i) 4 7 = 0x7F)) ∧
    (Reaches s w Rg.splKill.index → a.safety = true → a.sup = true → (if o = 8 then a.code = 8 else o.toNat < 8 ∧ a.code = ownerCode (codePart o) true) →
      rdB s .splCmd 0 = false → exec (.splKill w v) s =
        .next (let r := grantRegisters s w
          wrB { r with splices := { r.splices with kill := some (o, r.splices.next) } } .splCmd 0 true)) ∧
    (llState s = 3 ∨ llState s = 4 → s.splices.kill = none → ∃ t, exec .splKillComplete s = .next t ∧ ∀ q ∈ t.splices.list, q.core ≠ 4) ∧
    (∀ k, llState s ≠ 3 → llState s ≠ 4 → s.splices.kill = some (o, k) → (∀ q ∈ s.splices.list, (if q.core = 4 then (8 : OwnerCode) else q.owner) ≠ o ∨ k ≤ q.id) →
      ∃ t, exec .splKillComplete s = .next t ∧ t.splices.kill = none ∧ t.splices.list = s.splices.list ∧ rdB t .splCmd 0 = false ∧ rdB t .splCmd 1 = true)

/-! ### The crossbar, its tags, the deep store (R32, R55, R84, R96 to R106, R140) -/

/-- Requests of crossbar masters that the crossbar serves (R32, R55, R96 to R99, R140). A read of a cistern word that its check admits delivers the word; one of the deep store takes a tag and is
delivered with READ_DATA_RETURN, which raises the latency maximum of its class and frees the tag; a write merges the plies of its mask into the word and leaves the others. A refused access
changes no memory, is counted, and answers a refusal; a pump's splice ends with its access-fault bit, a core takes the access fault. A request waiting for a tag is served when one is free.
Refresh changes nothing (R84). Of the reads of one word the first served returns first, each with its tag (R98). That the word is taken at MEMORY_READ and held until READ_DATA_RETURN is log 39, which tag
a transaction gets log 170. -/
def Obligations.CrossbarCommands : Prop :=
  ∀ (s u z : State) (m : Master) (a : BitVec 40) (mask : BitVec 6) (d : Word72) (n : Fin 16) (c : Fin 128) (q : Flight) (k : Nat) (lat : BitVec 12) (x : Word),
    s.pwr.aux = true → Quiet s →
    let who := masterWho s m
    let num : Byte := BitVec.ofNat 8 (masterNumber m)
    let key := wordBase a.toNat
    let cell := memAt s key
    let refused : State → Prop := fun t => .refusal num key ∈ t.sent ∧ (s.store.failures ≠ 0xFFFFFFFF → t.store.failures = s.store.failures + 1)
    (crossbarRuns s m = true → crossbarGated s m = false →
     (∀ y ∈ s.store.tagWait, masterNumber y.master ≠ masterNumber m ∨ targetOf y.addr ≠ targetOf a.toNat) →
     (regionOf a.toNat = some (.cistern n) → cell.err = 0 → cell.fold = 0 → cell.poison = false →
       (check s who a.toNat .read = .ok → ∃ t, exec (.memoryRead m a) s = .next t ∧ t.sent = .word num key cell.data false :: s.sent ∧ t.mem = s.mem ∧ t.regs = s.regs) ∧
       (check s who a.toNat .write = .ok → rdB s .eccInjCtl 17 = false → (∀ j : Core, m = .core j → storesPending s j = false) →
         ∃ t, exec (.memoryWrite m a mask d) s = .next t ∧
         (∀ p, p < 6 → wordPly (memAt t key).data p = if bit mask p then wordPly d p else wordPly cell.data p) ∧
         (memAt t key).err = 0 ∧ (memAt t key).poison = false ∧ ∀ j, j ≠ key → memAt t j = memAt s j) ∧
       (check s who a.toNat .read = .refused →
         ((∀ j, m ≠ .smpDma j) → (∀ j, m = .core j → coreRuns s j = false) → ∃ t, exec (.memoryRead m a) s = .next t ∧ refused t ∧ t.mem = s.mem) ∧
         (∀ i p, m = .pump i → spliceOn s i = some p → ∃ t, exec (.memoryRead m a) s = .next t ∧ refused t ∧ (∀ r ∈ t.splices.list, r.id ≠ p.id) ∧
           rd t (.splStat i) = p.status ||| 1 ||| 2) ∧
         (∀ j, m = .core j → coreRuns s j = true → ∃ t, exec (.memoryRead m a) s = .next (trapTo t t j { cause := 0x04, faddr := a }) ∧ refused t ∧
           t.mem = s.mem ∧ t.ctxs = s.ctxs))) ∧
     (regionOf a.toNat = some .deep → checked s who a.toNat .read = (.ok, u) → tagFree u (channelOf a.toNat) (who.code == 8) = true →
       outranked u (masterNumber m) (targetOf a.toNat) (channelOf a.toNat) = false →
       readWord (granted u (masterNumber m) 16) key num = (x, z) →
       exec (.memoryRead m a) s = .next { z with store := { z.store with
         inflight := z.store.inflight ++ [{ master := m, addr := a.toNat, data := x.data, poison := x.poison, tag := freeTag u (channelOf a.toNat) }] } })) ∧
    (∀ y l m', (flights s c)[k]? = some y → flights s c = l ++ q :: m' → wordBase q.addr = wordBase y.addr → (∀ f ∈ l, wordBase f.addr ≠ wordBase y.addr) → let lo := if (masterWho s q.master).code = 8 then 12 else 0
      ∃ t, exec (.readDataReturn c k lat) s = .next t ∧ t.store.inflight = dropOne q s.store.inflight ∧ t.mem = s.mem ∧
        t.sent = (if q.write then s.sent else .word (BitVec.ofNat 8 (masterNumber q.master)) (wordBase q.addr) q.data q.poison (some q.tag) :: s.sent) ∧
        (q.write = false → (rdF t (.dsLatmax c) lo 12).toNat = Nat.max (rdF s (.dsLatmax c) lo 12).toNat lat.toNat)) ∧
    ((flights s c)[k]? = none → exec (.readDataReturn c k lat) s = .next s) ∧
    (∀ r : Request, s.store.tagWait = [r] → channelOf r.addr = c.val → crossbarGated s r.master = false → tagFree s c ((masterWho s r.master).code == 8) = true →
      (frameAt s (frameOf r.addr)).moving = false →
      exec (.tagWaitRelease c) s = .next (settled (arrive { s with store := { s.store with tagWait := [] } } r))) ∧
    exec (.refresh c) s = .next s

/-- The deep-store registers and error injection (R102 to R106, R131, R167, R168). Safety supervisor code writes DS_CH_CFG_n; a larger reservation is not active until its tags are
free, and then RES_ACT is 1. A write of ECC_INJ_CTL by the owner of the armed word sets ARMED for a non-zero MODE; bad fields and words that may not be altered are
rejected. -/
def Obligations.DeepStoreRegisters : Prop :=
  ∀ (s : State) (w : Writer) (c : Fin 128) (n : Fin 16) (v : Reg24), s.pwr.aux = true →
    let a := authOf s w
    let new : BitVec 2 := bits v 0 2
    let r : Rg := .dsChCfg c
    let g := grantRegisters s w
    (Reaches s w r.index → a.safety = true → a.sup = true →
      (c.val ≠ 127 → rdF s r 0 2 < new → exec (.dsChCfg w c v) s = .next (wrB (store g r v) (.dsChStat c) 2 false)) ∧
      (c.val ≠ 127 → new ≠ 0 → new ≤ rdF s r 0 2 → exec (.dsChCfg w c v) s = .next (store g r v)) ∧
      (c.val = 127 → new ≠ 0 → exec (.dsChCfg w c v) s = .next (post g .dsCmd 0 .reservedCode))) ∧
    (Reaches s w r.index → a.boot = false → a.safety = false → exec (.dsChCfg w c v) s = .next (post g .dsCmd 0 .notPermitted)) ∧
    (reservedTags s c ≠ 0 → ((flights s c).filter (fun q => (masterWho s q.master).code != 8)).length + reservedTags s c ≤ 1024 →
      exec (.reservationActive c) s = .next (wrB s (.dsChStat c) 2 true)) ∧
    (reservedTags s c ≠ 0 → 1024 < ((flights s c).filter (fun q => (masterWho s q.master).code != 8)).length + reservedTags s c →
      exec (.reservationActive c) s = .next s) ∧
    (Reaches s w Rg.eccInjCtl.index → a.boot = false → a.safety = true → a.sup = true →
      let mode := (bits v 0 3).toNat
      let ba := (bits v 3 7).toNat
      let bb := (bits v 10 7).toNat
      let there := injectAddr s
      let sound := mode < 6 ∧ ba < 88 ∧ bb < 88 ∧ (mode = 2 → ba ≠ bb) ∧ (mode = 3 → ba ≠ bb ∧ bb ≠ (ba + 1) % 88) ∧ plyInWord there = 0
      regionOf there = some (.cistern n) →
      (sound → (rdF s (.cisOwner n) 0 4).toNat < 8 → a.part = (rdF s (.cisOwner n) 0 4).toNat / 2 →
        exec (.eccInjCtl w v) s = .next (wrB (store g .eccInjCtl v) .eccInjCtl 17 (decide (mode ≠ 0)))) ∧
      (¬ sound → exec (.eccInjCtl w v) s = .next (post g .eccCmd 0 .reservedCode)) ∧
      (sound → (rdF s (.cisOwner n) 0 4).toNat < 8 → a.part ≠ (rdF s (.cisOwner n) 0 4).toNat / 2 →
        exec (.eccInjCtl w v) s = .next (post g .eccCmd 0 .notPermitted)))

/-! ### Integrity (R153, R155 to R166, R473, R474, R572) -/

/-- The scrubber, the log and the repair of the control stores. A step of a cistern's unit reads its word, corrected or left, and moves on (R155); its last word ends the lap: LAPNUM and
LAPTIME, in milliseconds, take it and the next lap begins, never one of number 0 mod 4,096 (R159, R161). A lap past its limit sets OVERDUE once (R161). The interval's end clears the log count (R166), the
flush takes the log and the retirements to flash (R153, R572). A word of a control store that reads uncorrectable takes the content that its sources give it, the mask ROM with what the
authenticated copies supply, and is counted; with a bad copy it is written as poisoned; a clean one is left (R473, R474). Which word of a copy is read for it, and so what a repair may meet, is free (logs 22, 68); the
log in flash holds as many entries as its space has room for (log 158). -/
def Obligations.IntegrityCommands : Prop :=
  ∀ (s : State) (n : Fin 16) (u : Fin 158) (k : Nat), s.pwr.aux = true →
    let cu : Fin 158 := ⟨128 + n.val, by omega⟩
    let x := scrubOf s cu
    let key := 0x10000000 + n.val * 0x300000 + 6 * x.pos
    let cell := memAt s key
    (scrubbed s u = false → exec (.scrubStep u) s = .next s) ∧
    (scrubbed s cu = true → x.pos < 524288 → cell.fold = 0 → cell.poison = false → popCount cell.err ≤ 2 →
      ∃ t, exec (.scrubStep cu) s = .next t ∧ memAt t key = { data := cell.data } ∧
        (x.pos + 1 < 524288 → scrubOf t cu = { x with pos := x.pos + 1 } ∧ rd t (.scrLapnum cu) = rd s (.scrLapnum cu)) ∧
        (x.pos + 1 = 524288 → (scrubOf t cu).pos = 0 ∧ (scrubOf t cu).lap % 4096 ≠ 0 ∧ rd t (.scrLapnum cu) = BitVec.ofNat 24 x.lap ∧
          rd t (.scrLaptime cu) = BitVec.ofNat 24 (Nat.min ((x.spent + (if x.paused then 0 else s.store.scrubClock - x.began)) / 40000) 8388607))) ∧
    (unitWords u ≠ 0 → scrubbed s u = true → lapLimit s u ≠ 0 → rdB s (.scrLaptime u) 23 = false →
      ∃ t, exec (.lapOverdue u) s = .next t ∧ rdB t (.scrLaptime u) 23 = true ∧ bit t.can.reported 2 = true) ∧
    (rdB s (.scrLaptime u) 23 = true → exec (.lapOverdue u) s = .next s) ∧
    exec .logIntervalEnd s = .next { s with store := { s.store with logCount := 0 } } ∧
    (∃ t, exec .logFlush s = .next t ∧ t.flash.log = (s.flash.unflushed ++ s.flash.log).take logPlaces ∧
      t.flash.logAt = (s.flash.logAt + s.flash.unflushed.length) % logPlaces ∧ t.flash.unflushed = [] ∧
      t.flash.retired = s.flash.retired ++ s.store.retiring ∧ t.flash.retiredTwin = t.flash.retired ∧ t.store.retiring = [] ∧
      t.mem = s.mem ∧ t.regs = s.regs) ∧
    (∀ scalar : Bool, k < (if scalar then 8192 else 43691) →
      let place := (if scalar then 0x58000000 else 0x50000000) + 6 * k
      let unit := if scalar then 147 else 146
      let whole := sourceWord s scalar k
      let read : Nat × Nat × List Byte → Nat := sourceAddr scalar k
      (s.fw.copies = [] → whole = (if scalar then scalarBits k (Config.scalarRom k) else romWord k, [])) ∧
      (decodeWord (cellAt s place) = .ue ∨ decodeWord (cellAt s place) = .ace →
        (∀ c ∈ whole.2, (memAt s (read c)).err = 0 ∧ (memAt s (read c)).fold = 0 ∧ (memAt s (read c)).poison = false ∧ failedAt s (read c) = false) →
        ∃ t, exec (.controlStoreRepair scalar k) s = .next t ∧ cellAt t place = { data := whole.1 } ∧
          rd t (.eccUe unit) = bumpField (rd s (.eccUe unit)) 0 24 1) ∧
      (decodeWord (cellAt s place) = .ue ∨ decodeWord (cellAt s place) = .ace →
        ∀ c, whole.2 = [c] → (readWord s (read c) 0xFF).1.poison = true →
        ∃ t, exec (.controlStoreRepair scalar k) s = .next t ∧ cellAt t place = .poisoned) ∧
      (decodeWord (cellAt s place) = .clean → exec (.controlStoreRepair scalar k) s = .next s))

/-! ### The frame table (R111, R121 to R129) -/

/-- Frame-table commands (R121 to R128). A command of a partition's safety supervisor on a frame of its own, with the set idle and the frame neither retired, pinned nor moving, is accepted:
BUSY is 1, and MOVING for SET_OWNER and SET_RIGHTS; READ of a moving frame
keeps the entry that it then shows (R129). The end of a move gives the frame its new owner and RIGHTS, ends MOVING, and zeroes its words when asked, those of a failed channel apart; PIN, UNPIN, RETIRE and READ
take effect at theirs; BUSY is 0 and DONE 1. A running set rejects BUSY. -/
def Obligations.FrameCommands : Prop :=
  ∀ (s : State) (w : Writer) (k : Fin 4) (f : FtCmd) (j : Nat), Reaches s w (Rg.ftOp k).index →
    let a := authOf s w
    let c : Fin 5 := ⟨k.val, by omega⟩
    let n := (rdF s (.ftFrame k) 0 21).toNat
    let e := frameAt s n
    let own := ownerCode k true
    let arg := rdF s (.ftArg k) 0 4
    let begun : Instr → BitVec 3 → Prop := fun i op => ∃ t, exec i s = .next t ∧ rdB t (.ftCmd k) 0 = true ∧
      t.store.ftRun.find k = some { op, frame := n, owner := arg, rights := rdF s (.ftArg k) 4 12, zero := rdB s (.ftArg k) 16 } ∧
      (frameAt t n).moving = decide (op = 1 ∨ op = 2) ∧ (frameAt t n).owner = e.owner ∧ (frameAt t n).rights = e.rights
    (a.safety = true → a.sup = true → a.code = own → rdB s (.ftCmd k) 0 = true →
      ∀ i ∈ [Instr.setOwner w c, .setRights w c, .pin w c, .unpin w c, .retire w c, .read w c],
        ∃ t, exec i s = .next t ∧ rdB t (.ftCmd k) 2 = true ∧ bits (rd t (.ftCmd k)) 12 12 = (1 : BitVec 12)) ∧
    (a.safety = true → a.sup = true → a.code = own → rdB s (.ftCmd k) 0 = false → n < 2080768 → e.discarded = false → e.moving = false → e.retired = false →
      e.owner.toNat < 8 → e.owner.toNat / 2 = k.val → (∀ i, (cellAt s (0x1C00000000 + 6 * i)).err = 0 ∧ (cellAt s (0x1C00000000 + 6 * i)).fold = 0 ∧
        (cellAt s (0x1C00000000 + 6 * i)).poison = false) → rdB s (.dsChStat 127) 1 = false →
      (e.pinned = false → e.ecc ≠ 3 → arg = 0xF ∨ (arg.toNat < 8 ∧ arg.toNat / 2 = k.val) → begun (.setOwner w c) 1) ∧
      (e.pinned = false → begun (.setRights w c) 2) ∧ begun (.pin w c) 3 ∧ begun (.unpin w c) 4 ∧ begun (.retire w c) 5 ∧ begun (.read w c) 6) ∧
    (a.safety = true → a.sup = true → a.code = own → rdB s (.ftCmd k) 0 = false → e.moving = true →
      (∀ i, (cellAt s (0x1C00000000 + 6 * i)).err = 0 ∧ (cellAt s (0x1C00000000 + 6 * i)).fold = 0 ∧
        (cellAt s (0x1C00000000 + 6 * i)).poison = false) → rdB s (.dsChStat 127) 1 = false →
      ∃ t, exec (.read w c) s = .next t ∧ rdB t (.ftCmd k) 0 = true ∧ t.store.ftRun.find k =
        some { op := 6, frame := n, owner := arg, rights := rdF s (.ftArg k) 4 12, zero := rdB s (.ftArg k) 16, seen := some e.word }) ∧
    (s.store.ftRun.find k = some f → j = f.frame → s.store.held = [] → Quiet s →
      (f.op = 1 → (frameAt s j).retired = false → (frameAt s j).ecc ≠ 3 → ∃ t, exec (.frameMoveComplete c) s = .next t ∧ (frameAt t j).owner = f.owner ∧
        (frameAt t j).rights = f.rights ∧ (frameAt t j).moving = false ∧ (frameAt t j).discarded = false ∧ rdB t (.ftCmd k) 0 = false ∧
        rdB t (.ftCmd k) 1 = true ∧ (f.zero = true → ∀ i, 0x100000000 ≤ i → i < 0x1C00000000 → frameOf i = j → rdB s (.dsChStat (channelOf i)) 1 = false → memAt t i = {})) ∧
      (f.op = 2 → (frameAt s j).retired = false → ∃ t, exec (.frameMoveComplete c) s = .next t ∧ (frameAt t j).owner = (frameAt s j).owner ∧
        (frameAt t j).rights = f.rights ∧ (frameAt t j).moving = false ∧ rdB t (.ftCmd k) 0 = false) ∧
      (f.op = 3 → ∃ t, exec (.frameCommandComplete c) s = .next t ∧ frameAt t j = { frameAt s j with pinned := true } ∧ rdB t (.ftCmd k) 0 = false ∧
        rdB t (.ftCmd k) 1 = true) ∧
      (f.op = 4 → ∃ t, exec (.frameCommandComplete c) s = .next t ∧ frameAt t j = { frameAt s j with pinned := false } ∧ rdB t (.ftCmd k) 1 = true) ∧
      (f.op = 5 → (frameAt s j).held = 0xF → ∃ t, exec (.frameCommandComplete c) s = .next t ∧ (frameAt t j).retired = true ∧ rdB t (.ftCmd k) 1 = true) ∧
      (f.op = 5 → (frameAt s j).held ≠ 0xF → ∃ t, exec (.frameCommandComplete c) s = .next t ∧ frameAt t j = { frameAt s j with ecc := 3 }) ∧
      (f.op = 6 → let v := f.seen.getD (frameAt s j).word
        ∃ t, exec (.frameCommandComplete c) s = .next t ∧ rd t (.ftEntry k 0) = bits v 0 24 ∧ rd t (.ftEntry k 1) = bits v 24 24 ∧
        rd t (.ftEntry k 2) = bits v 48 24 ∧ frameAt t j = frameAt s j))

/-! ### Cisterns (R178 to R192, R203) -/

/-- Handovers, power states, the remap of window zero. An accepted write of CIS_OWNER_n starts a handover, in which OWNER keeps its value and HANDOVER is 1; its end puts the new owner in
force, zeroes the cistern when SCRUB asks and it is not OFF, and sets the done bit (R179). A write while one runs is rejected BUSY, one of cistern 15 with lifeline enabled LIFELINE (R178). An accepted
power request starts a transition at once, waits behind a running one or names the state held; the end of one to OFF loses the content (R182, R184). A change of REMAP holds window zero until
it completes, when every copy of a window-zero word is gone (R191). -/
def Obligations.CisternCommands : Prop :=
  ∀ (s : State) (w : Writer) (n : Fin 16) (v : Reg24), s.pwr.aux = true →
    let a := authOf s w
    let o := cisOwnerOf s n
    let new : OwnerCode := bits v 0 4
    let req : BitVec 2 := bits v 0 2
    let h := handoverOf s n
    let r : Rg := .cisOwner n
    let g := grantRegisters s w
    (Reaches s w r.index → a.boot = false → a.code ≠ 8 → a.safety = true → a.sup = true → llState s ≠ 4 →
      (inHandover s n = true ∨ inTransition s n = true → exec (.cisOwner w n v) s = .next (post g (.cisCmd n) 0 .busy)) ∧
      (inHandover s n = false → inTransition s n = false →
        (n.val = 15 → llState s ≠ 0 → exec (.cisOwner w n v) s = .next (post g (.cisCmd n) 0 .lifeline)) ∧
        (n.val ≠ 15 → o.toNat < 8 → o.toNat / 2 = a.part → new = 0xF ∨ (new.toNat < 8 ∧ new.toNat / 2 = a.part) →
          ∃ t, exec (.cisOwner w n v) s = .next t ∧ inHandover t n = true ∧ cisOwnerOf t n = o ∧ (handoverOf t n).owner = new ∧
            (handoverOf t n).scrub = bit v 4 ∧ t.mem = s.mem) ∧
        (n.val ≠ 15 → o.toNat < 8 → o.toNat / 2 ≠ a.part → new.toNat < 9 → exec (.cisOwner w n v) s = .next (post g (.cisCmd n) 0 .notPermitted)))) ∧
    (h.running = true → h.next = none → rdB s (.cisStat n) 6 = false → s.store.held = [] → Quiet s →
      ∃ t, exec (.handoverComplete n) s = .next t ∧ cisOwnerOf t n = h.owner ∧ inHandover t n = false ∧ rdB t (.cisStat n) 8 = true ∧
        (h.scrub = true → cisState s n ≠ 2 → ∀ k, k < 524288 → memAt t (0x10000000 + n.val * 0x300000 + 6 * k) = {}) ∧
        (h.scrub = false → t.mem = s.mem)) ∧
    (h.running = false → Quiet s → exec (.handoverComplete n) s = .next s) ∧
    (Reaches s w (Rg.cisPwr n).index → a.sup = true → a.code = o → o.toNat < 8 → req ≠ 3 →
      (inTransition s n = false → inHandover s n = false → cisState s n = req → exec (.cisPwr w n v) s = .next (wrF g (.cisPwr n) 0 req)) ∧
      (inTransition s n = false → inHandover s n = false → cisState s n ≠ req → ∃ t, exec (.cisPwr w n v) s = .next t ∧ cisState t n = 3 ∧
        rdF t (.cisStat n) 2 2 = req ∧ rdF t (.cisPwr n) 0 2 = req ∧ t.mem = s.mem) ∧
      (inTransition s n = true ∨ inHandover s n = true → ∃ t, exec (.cisPwr w n v) s = .next t ∧ rdB t (.cisStat n) 6 = true ∧ rdF t (.cisStat n) 4 2 = req ∧
        cisState t n = cisState s n)) ∧
    (cisState s n = 3 → h.next = none → rdB s (.cisStat n) 6 = false → s.store.held = [] → mode s = 6 → Quiet s →
      ∃ t, exec (.powerTransitionComplete n) s = .next t ∧ cisState t n = rdF s (.cisStat n) 2 2 ∧
        (rdF s (.cisStat n) 2 2 = 2 → ∀ k, k < 524288 → memAt t (0x10000000 + n.val * 0x300000 + 6 * k) = {}) ∧
        (rdF s (.cisStat n) 2 2 ≠ 2 → t.mem = s.mem)) ∧
    (cisState s n ≠ 3 → mode s = 6 → Quiet s → exec (.powerTransitionComplete n) s = .next s) ∧
    (Reaches s w Rg.xbCfg.index → a.safety = true → a.sup = true → inHandover s 0 = false → inTransition s 0 = false → rdB s .xbCfg 1 = false →
      (cisState s 0 ≠ 0 → exec (.xbCfg w v) s = .next (post g .xbCmd 0 .power)) ∧
      (cisState s 0 = 0 → (cisOwnerOf s 0).toNat < 8 → (cisOwnerOf s 0).toNat / 2 = a.part →
        (bit v 0 = rdB s .xbCfg 0 → exec (.xbCfg w v) s = .next g) ∧
        (bit v 0 ≠ rdB s .xbCfg 0 → ∃ t, exec (.xbCfg w v) s = .next t ∧ rdB t .xbCfg 0 = bit v 0 ∧ rdB t .xbCfg 1 = true ∧
          ∀ who k kind, k < 262144 → who.exempt = false → check t who k kind = .held))) ∧
    (rdB s .xbCfg 1 = true → s.store.held = [] → Quiet s → exec .remapComplete s = .next (wrB (forgetWindow s) .xbCfg 1 false)) ∧
    (rdB s .xbCfg 1 = false → Quiet s → exec .remapComplete s = .next s)

/-! ### Event lines (R477 to R485) -/

/-- Event lines. A pulse by code that carries the line's owner code asserts it, by another is rejected (R485). An assertion is met in a later event tick (R481): one of another code than the owner's is
counted; a line that fires disabled is counted; in its guard interval it is held once, then counted (R483); otherwise its guard interval begins and it reaches its consumers: so a firing without link and
group action. That EVENT_FIRE is itself the event tick where the assertion is of the tick in force is the model's choice (log 13). The end of a guard lets a held assertion fire (R483). A partition's
safety supervisor gives a line, a timer channel or a lane to a code of its partition: the write changes no register, and with the next event tick the owner is new, a line's LINK, group action and guard
are cleared and its EN is 1, a channel or a lane stops, with its event enables or tags 0 (R477, R478). -/
def Obligations.EventCommands : Prop :=
  ∀ (s : State) (w : Writer) (m : Fin 256) (n : Fin 16) (v : Reg24), s.pwr.aux = true →
    let a := authOf s w
    let o := lineOwner s m
    let new : OwnerCode := bits v 0 4
    let e := s.events
    let line := rd s (.evrLine m)
    let with' : EventSt → State := fun x => { s with events := x }
    let g := grantRegisters s w
    let met : EventSt := { e with asserted := e.asserted.filter (fun x => x.line != m.val) }
    let fires : State → Prop := fun z => exec (.eventFire m) s = .next z
    (Reaches s w Rg.evrPulse.index → (bits v 0 8).toNat = m.val →
      (a.code = o → exec (.evrPulse w v) s = .next { g with events := { e with asserted := e.asserted ++ [⟨m, o, e.now⟩] } }) ∧
      (a.code ≠ o → exec (.evrPulse w v) s = .next (post g .evrCmd 0 .notPermitted))) ∧
    ((∀ x ∈ e.asserted, x.line ≠ m.val) ∨ frozen s 18 = true → fires s) ∧
    ((∃ x ∈ e.asserted, x.line = m.val) → frozen s 18 = false →
      ((∀ x ∈ e.asserted, x.line = m.val → x.tick = e.now) → exec (.eventFire m) s = exec (.eventFire m) (nextEventTick s)) ∧
      ((∀ x ∈ e.asserted, x.line = m.val → x.tick < e.now) →
        ((∀ x ∈ e.asserted, x.line = m.val → x.code ≠ o) →
          fires (tally (with' met) (.evrStat m) 16 8 (e.asserted.filter (fun x => x.line == m.val)).length)) ∧
        ((∀ x ∈ e.asserted, x.line = m.val → x.code = o) →
          (bit line 13 = false → fires (tally (with' met) (.evrStat m) 0 8 1)) ∧
          (bit line 13 = true → (∃ x ∈ e.guarded, x.1 = m.val) → bits line 20 4 ≠ (0 : BitVec 4) → m.val ∉ e.held →
            fires (with' { met with held := e.held ++ [m.val] })) ∧
          (bit line 13 = true → (∃ x ∈ e.guarded, x.1 = m.val) → bits line 20 4 ≠ (0 : BitVec 4) → m.val ∈ e.held →
            fires (tally (with' met) (.evrStat m) 8 8 1)) ∧
          (bit line 13 = true → (∀ x ∈ e.guarded, x.1 ≠ m.val) → bit line 12 = false → bits line 14 2 = (0 : BitVec 2) →
            fires (deliver (with' { met with guarded := e.guarded ++ (if bits line 20 4 = (0 : BitVec 4) then [] else [(m.val, e.now)]) }) m o))))) ∧
    (let calm : State := with' { e with guarded := e.guarded.filter (fun x => x.1 != m.val), held := e.held.filter (· != m.val) }
     ((∀ x ∈ e.guarded, x.1 ≠ m.val) → exec (.guardRelease m) s = .next s) ∧
     ((∃ x ∈ e.guarded, x.1 = m.val) →
       (m.val ∉ e.held → exec (.guardRelease m) s = .next calm) ∧
       (m.val ∈ e.held → frozen s 18 = false → (∀ x ∈ e.guarded, x.1 = m.val → x.2 < e.now) → (∀ x ∈ e.asserted, x.line ≠ m.val) →
         exec (.guardRelease m) s = .next (fireLine calm m o)))) ∧
    (∀ k : Fin 8, inReady s = false → (∀ q : Fin 8, q ≠ k → rdB s (.llIrq q) 8 = false) → rdB s (.llIrq k) 8 = true → (rdF s (.llIrq k) 0 8).toNat = m.val →
      rdB s .llStat (13 + k.val) = false → (∀ (c : Fin 4) (q : Fin 64), taskState s c q = 0 ∧ rdB s (.msiv c q) 8 = false) →
      (∀ q : Fin 16, rdB s (.tmrEve q) 14 = false ∧ rdB s (.txCfg q) 14 = false) → deliver s m 8 = wrB s .llStat (13 + k.val) true) ∧
    (∀ r : Owned, Reaches s w (ownedRg r).index → a.boot = false → a.code ≠ 8 → a.safety = true → a.sup = true → llState s ≠ 4 →
      new.toNat < 8 → new.toNat / 2 = a.part →
      let old := rdF s (ownedRg r) 0 4
      let t : State := { g with events := { e with moved := e.moved.filter (fun x => x.1 != r) ++ [(r, new)] } }
      let z := nextEventTick t
      old.toNat < 8 → old.toNat / 2 = a.part → new ≠ old →
      exec (.ownerChange w r v) s = .next t ∧ t.regs = s.regs ∧
      (r = .line m → lineOwner z m = new ∧ rdB z (.evrLine m) 12 = false ∧ (e.acts = [] → rdB z (.evrLine m) 13 = true) ∧ rdF z (.evrLine m) 14 2 = 0 ∧
         rdF z (.evrLine m) 20 4 = 0 ∧ m.val ∉ z.events.held ∧ ∀ x ∈ z.events.guarded, x.1 ≠ m.val) ∧
      (r = .timer n → timerOwner z n = new ∧ rdB z (.tmrCtl n) 12 = false ∧ rdF z (.tmrEve n) 0 6 = 0) ∧
      (r = .rxLane n → rdF z (.rxCfg n) 0 4 = new ∧ rdB z (.rxCfg n) 4 = false ∧ ∀ k, k < 16 → rd z (.tag n k) = 0) ∧
      (r = .txLane n → txOwner z n = new ∧ txEn z n = false ∧ (laneOf z n).waiting = false ∧ (laneOf z n).safeNext = false))

/-! ### Timers and watchdogs (R487 to R495, R509, R510, R565) -/

/-- Timer channels (R487 to R495). A counting tick of an enabled channel whose source is an event tick moves its count as MODE says, and a count equal to a compare value asserts that compare's line when enabled;
a stopped or frozen channel keeps its state. PERIOD and the compares go to the registers, and with IMM to the active values at once. A capture edge copies the count. That a tick with another
source than an event tick does nothing is log 112, that a register reads back the value last written log 37, and the corners of a short period and of up-down counting are log 78: the model's choices. -/
def Obligations.TimerCommands : Prop :=
  ∀ (s : State) (w : Writer) (n : Fin 16) (k : Fin 4) (v : Reg24), s.pwr.aux = true →
    let a := authOf s w
    let g := grantRegisters s w
    let x := timerOf s n
    let c := rd s (.tmrCnt n)
    let clk := rdF s (.tmrCtl n) 2 2
    let quiet := (∀ e, e < 6 → rdB s (.tmrEve n) e = false) ∧ (n.val < 15 → rdF s (.tmrCtl (n.val + 1)) 2 2 ≠ 2)
    (rdB s (.tmrCtl n) 12 = false ∨ frozen s 17 = true ∨ 2 ≤ clk.toNat → exec (.countingTick n) s = .next s) ∧
    (rdB s (.tmrCtl n) 12 = true → frozen s 17 = false → clk = 0 → quiet →
      ∃ t, exec (.countingTick n) s = .next t ∧ t.events = s.events ∧
        (rdF s (.tmrCtl n) 0 2 = 0 → c < x.period → rd t (.tmrCnt n) = c + 1 ∧ timerOf t n = x) ∧
        (rdF s (.tmrCtl n) 0 2 = 0 → x.period ≤ c → rd t (.tmrCnt n) = 0 ∧ (timerOf t n).period = rd s (.tmrPer n) ∧
          (timerOf t n).compare k = rd s (.tmrCmp n k)) ∧
        (rdF s (.tmrCtl n) 0 2 = 1 → c ≠ 0 → rd t (.tmrCnt n) = c - 1 ∧ timerOf t n = x) ∧
        (rdF s (.tmrCtl n) 0 2 = 1 → c = 0 → rd t (.tmrCnt n) = rd s (.tmrPer n)) ∧
        (rdF s (.tmrCtl n) 0 2 = 2 → rdB s (.tmrStat n) 1 = false → c < x.period → rd t (.tmrCnt n) = c + 1) ∧
        (rdF s (.tmrCtl n) 0 2 = 2 → rdB s (.tmrStat n) 1 = false → x.period ≤ c → 1 < c.toNat → rd t (.tmrCnt n) = c - 1 ∧ rdB t (.tmrStat n) 1 = true)) ∧
    (rdB s (.tmrCtl n) 12 = true → frozen s 17 = false → clk = 0 → rdF s (.tmrCtl n) 0 2 = 0 → c < x.period → rdB s (.tmrEve n) k = true →
      x.compare k = c + 1 → (∀ e, e < 4 → e ≠ k.val → x.compare e ≠ c + 1) →
      ∃ t, exec (.countingTick n) s = .next t ∧ rd t (.tmrCnt n) = c + 1 ∧
        t.events.asserted = s.events.asserted ++ [⟨timerLine s n k, timerOwner s n, s.events.now⟩]) ∧
    (Reaches s w (Rg.tmrPer n).index → (timerOwner s n).toNat < 8 → a.sup = true → a.code = timerOwner s n →
      (v ≠ 0 → rdB s (.tmrCtl n) 13 = false → exec (.periodWrite w n v) s = .next (wr g (.tmrPer n) v)) ∧
      (v ≠ 0 → rdB s (.tmrCtl n) 13 = true → ∃ t, exec (.periodWrite w n v) s = .next t ∧ rd t (.tmrPer n) = v ∧ (timerOf t n).period = v ∧
        (rdF s (.tmrCtl n) 0 2 = 0 → v < c → rdB t (.tmrStat n) 0 = true)) ∧
      (v = 0 → exec (.periodWrite w n v) s = .next (post g .tmrCmd 0 .reservedCode))) ∧
    (Reaches s w (Rg.tmrCmp n k).index → (timerOwner s n).toNat < 8 → a.sup = true → a.code = timerOwner s n →
      (rdB s (.tmrCtl n) 13 = false → exec (.compareWrite w n k v) s = .next (wr g (.tmrCmp n k) v)) ∧
      (rdB s (.tmrCtl n) 13 = true → ∃ t, exec (.compareWrite w n k v) s = .next t ∧ rd t (.tmrCmp n k) = v ∧ (timerOf t n).compare k = v ∧
        (timerOf t n).period = x.period)) ∧
    (rdF s (.tmrCapcfg n) 12 2 ≠ 0 → frozen s 17 = false → clk ≠ 3 → rdB s (.tmrEve n) 5 = false →
      ∃ t, exec (.captureEdge n) s = .next t ∧ rd t (.tmrCapv n) = c ∧ rdB t (.tmrStat n) 2 = true ∧
        rdB t (.tmrStat n) 3 = (rdB s (.tmrStat n) 3 || rdB s (.tmrStat n) 2) ∧ rd t (.tmrCnt n) = c) ∧
    (rdF s (.tmrCapcfg n) 12 2 = 0 → exec (.captureEdge n) s = .next s)

/-- Watchdogs (R509, R510). A kick with the key 0xA5C3 by safety code of its partition, or by the lifeline for watchdog 4, restarts its full interval; another value makes it expire; a writer of another code is
rejected. A watchdog that counts and expires sets its bit, stops, and is reported; one that does not count or is paused does nothing, but in the tick of the halt
that pauses it its expiry stands (R614). -/
def Obligations.WatchdogCommands : Prop :=
  ∀ (s : State) (w : Writer) (x : Fin 5) (v : Reg24), s.pwr.aux = true →
    let a := authOf s w
    let d := dogOf s x
    let expires : Instr → Prop := fun i => ∃ t, exec i s = .next t ∧ rdB t (.wdStat x) 16 = true ∧ (dogOf t x).counting = false ∧ (dogOf t x).left = 0 ∧
      bit t.can.reported 3 = true ∧ ∀ n, n < 16 → dogLane s x n = true → safeAct t n = true
    (Reaches s w (Rg.wdKick x).index → (if x.val = 4 then a.code = 8 else a.safety = true ∧ a.code = ownerCode x true) → rdB s (.wdCfg x) 16 = true →
      (bits v 0 16 = (0xA5C3 : BitVec 16) → ∃ t, exec (.watchdogKick w x v) s = .next t ∧ (dogOf t x).counting = true ∧
        (dogOf t x).left = 4000 * (rdF s (.wdCfg x) 0 16).toNat ∧ ∀ n, n < 16 → dogLane s x n = true → bit (spend t n) 1 = false) ∧
      (bits v 0 16 ≠ (0xA5C3 : BitVec 16) → expires (.watchdogKick w x v))) ∧
    (Reaches s w (Rg.wdKick x).index → (if x.val = 4 then a.code ≠ 8 else a.code ≠ ownerCode x true) →
      exec (.watchdogKick w x v) s = .next (post (grantRegisters s w) .tmrCmd 0 .notPermitted)) ∧
    (rdB s (.wdCfg x) 16 = true → d.counting = true → d.paused = false ∨ d.haltAt = some (s.clock, s.events.now) → expires (.watchdogExpire x)) ∧
    (rdB s (.wdCfg x) 16 = false ∨ d.counting = false ∨ (d.paused = true ∧ d.haltAt ≠ some (s.clock, s.events.now)) →
      exec (.watchdogExpire x) s = .next s)

/-! ### Sample lanes (R497 to R508) -/

/-- Sample lanes. A frame with right SYNC and parities is accepted: with STORE (bit 9) of its tag's entry SMP_RX takes sample, tag and the next SEQ; a wrong one is counted and changes nothing else (R499 to R501). A
receive timeout sets its bit and restarts, as an accepted frame and a write of SMP_RXTOUT_n restart it; one of the tick of a restart does nothing (R502, R503). A frame written to an owned, enabled output lane waits and then leaves with SYNC and two even parities (R497, R504); a waiting one that is overwritten is counted. A safe
lane sends its safe frame again at its interval (R506). That the receive timeout runs while the lanes are frozen is the model's choice (log 79). -/
def Obligations.LaneCommands : Prop :=
  ∀ (s : State) (w : Writer) (n : Fin 16) (f : BitVec 20) (v : Reg24), s.pwr.aux = true →
    let a := authOf s w
    let g := grantRegisters s w
    let tag := bits f 14 4
    let e := rd s (.tag n tag.toNat)
    let even : Nat → Nat → Bool := fun lo p => (popCount (bits f lo 9) + (if bit f p then 1 else 0)) % 2 == 0
    let made := sampleFrame (rdF s (.tx n) 12 4) (rdF s (.tx n) 0 12)
    let restarts : State → State := fun z => { z with rxSince := z.rxSince.insert n (z.clock, z.events.now) }
    let safe := sampleFrame (rdF s (.txSafe n) 12 4) (rdF s (.txSafe n) 0 12)
    (rdB s (.rxCfg n) 4 = false ∨ fastEvents s = false ∨ frozen s 19 = true → exec (.frameReceive n f) s = .next s) ∧
    (rdB s (.rxCfg n) 4 = true → fastEvents s = true → frozen s 19 = false →
      (bits f 18 2 = (2 : BitVec 2) → even 11 1 = true → even 2 0 = true → bit e 8 = false → bit e 10 = false →
        (bit e 9 = true → ∃ t, exec (.frameReceive n f) s = .next t ∧ rdF t (.rx n) 0 12 = bits f 2 12 ∧ rdF t (.rx n) 12 4 = tag ∧
          rdF t (.rx n) 16 8 = rdF s (.rx n) 16 8 + 1) ∧
        (bit e 9 = false → exec (.frameReceive n f) s = .next (restarts s))) ∧
      (bits f 18 2 ≠ (2 : BitVec 2) → even 11 1 = true → even 2 0 = true → rdB s (.rxCfg n) 22 = false →
        exec (.frameReceive n f) s = .next (tally s (.rxStat n) 0 8 1)) ∧
      (bits f 18 2 = (2 : BitVec 2) → even 11 1 = false ∨ even 2 0 = false → rdB s (.rxCfg n) 22 = false →
        exec (.frameReceive n f) s = .next (tally s (.rxStat n) 8 8 1))) ∧
    (rdF s (.rxTout n) 0 16 ≠ 0 → fastEvents s = true → rdB s (.rxCfg n) 13 = false → s.rxSince.find n ≠ some (s.clock, s.events.now) →
      exec (.receiveTimeout n) s = .next (setFlag (restarts s) (.rxStat n) 16)) ∧
    (rdF s (.rxTout n) 0 16 = 0 ∨ fastEvents s = false ∨ s.rxSince.find n = some (s.clock, s.events.now) → exec (.receiveTimeout n) s = .next s) ∧
    (Reaches s w (Rg.rxTout n).index → (rdF s (.rxCfg n) 0 4).toNat < 8 → a.sup = true →
      (a.code = rdF s (.rxCfg n) 0 4 → exec (.smpRxtout w n v) s = .next (restarts (store g (.rxTout n) v))) ∧
      (a.boot = false → a.code ≠ rdF s (.rxCfg n) 0 4 → exec (.smpRxtout w n v) s = .next (post g .smpCmd 0 .notPermitted))) ∧
    (Reaches s w (Rg.tx n).index → (txOwner s n).toNat < 8 → a.sup = true → a.code = txOwner s n → frozen s 19 = false → safeAct s n = false → txEn s n = true →
      ∃ t, exec (.smpTx w n v) s = .next t ∧ rdF t (.tx n) 0 16 = bits v 0 16 ∧ (laneOf t n).waiting = true ∧
        ((laneOf s n).waiting = true → rd t (.txStat n) = bumpField (rd s (.txStat n)) 0 8 1) ∧ ((laneOf s n).waiting = false → rd t (.txStat n) = rd s (.txStat n))) ∧
    ((laneOf s n).asked = false → (laneOf s n).safeNext = false → (laneOf s n).waiting = true → txEn s n = true → fastEvents s = true → safeAct s n = false →
      (txOwner s n).toNat < 8 → ∃ t, exec (.serialiserLoad n) s = .next t ∧ t.sent = .frame n made :: s.sent ∧ (laneOf t n).waiting = false ∧ rdB t (.txStat n) 8 = true) ∧
    ((laneOf s n).asked = false → (laneOf s n).safeNext = true → sampleOutputs s = .driven → ∃ t, exec (.serialiserLoad n) s = .next t ∧ t.sent = .frame n safe :: s.sent ∧
      (laneOf t n).safeNext = false ∧ (laneOf t n).waiting = (laneOf s n).waiting) ∧
    ((laneOf s n).asked = false → (laneOf s n).safeNext = false → (laneOf s n).waiting = false → exec (.serialiserLoad n) s = .next (wrB s (.txStat n) 8 false)) ∧
    (safeAct s n = true → txEn s n = true → rdF s (.txCfg n) 15 8 ≠ 0 → bit (spend s n) 3 = false → fastEvents s = true →
      ∃ t, exec (.safeFrameRepeat n) s = .next t ∧ (laneOf t n).safeNext = true ∧ t.regs = s.regs) ∧
    (safeAct s n = false → exec (.safeFrameRepeat n) s = .next s) ∧
    (let tag' : BitVec 4 := bits v 12 4
     let g := sampleFrame tag' (bits v 0 12)
     bits g 18 2 = 2 ∧ bits g 14 4 = tag' ∧ bits g 2 12 = (bits v 0 12 : BitVec 12) ∧ syncOk g = true ∧ parityOk g = true)

/-! ### The host (R516 to R528, R546, R632) -/

/-- PCI Express. A whole BAR0 write of a host acts as a register write of its code, another is an Unsupported Request, and a read gives bits 23:0 of the register (R522). A window write that its check admits writes the
bytes it carries and no other, a read returns the bytes; a refused one is a Completer Abort, one that meets a held frame waits on its port (R524 to R526). A trained link shows itself (R516), and none trains while PE_PERST_N holds its port (R632); link-down and a
function-level reset return the functions they reach to reset (R521). Unmasking a pending vector sends its message once (R528). A configuration write sets D3hot, Memory Space Enable, MSI-X Enable or Function Mask, a read
gives the IDs and the BARs (R518 to R520); how a power state is coded (log 9), that a held request waits (log 24), that a write where no register lies does nothing (log 38), how configuration items are coded and read back (log 135), and that
LINK_TRAINED and LINK_DOWN carry the level of PE_PERST_N (log 153) are the model's reading. -/
def Obligations.HostCommands : Prop :=
  ∀ (s z u : State) (f : Fin 4) (i off n : Nat) (be : BitVec 4) (v : BitVec 32) (bytes : List Byte) (p : Fin 2) (gen : BitVec 3) (width : BitVec 4)
    (k : Fin 64) (e : MsixEntry) (x : Word) (r : Rg) (why : Reject), s.pwr.aux = true →
    let h := hostOf s f
    let key := windowAddr s f (off / 9)
    let cell := cellAt z key
    let a := authOf s (.host f)
    let w : Reg24 := bits v 0 24
    let carried : Fin 4 → Prop := fun g => present s g = true ∧ portOf s g = p.val
    let fresh : State → Fin 4 → Prop := fun t g => hostOf t g = {} ∧ msixEnabled t g = false ∧ rd t (.odStat g) = 0 ∧ rd t (.odIdx g) = 0 ∧ rd t (.odOff g) = 0
    (s.hostQueue = [] → reachable s f = true →
      (barsOn s f = true → i < 1048576 → bits be 0 3 = (7 : BitVec 3) → inBringUp s = false →
        (inReady s = true → answersInReady i = false → exec (.bar0Write f i 1 be v) s = .next (failRequest s f 4 false)) ∧
        ((inReady s = true → answersInReady i = true) →
          (Rg.ofIndex i = none → exec (.bar0Write f i 1 be v) s = .next s) ∧
          (Rg.ofIndex i = some r → putBlock s a r w = .ok z → exec (.bar0Write f i 1 be v) s = .next z) ∧
          (Rg.ofIndex i = some r → putBlock s a r w = .error why → exec (.bar0Write f i 1 be v) s = .next (postReject s r why)))) ∧
      (n ≠ 1 ∨ bits be 0 3 ≠ (7 : BitVec 3) ∨ barsOn s f = false → exec (.bar0Write f i n be v) s = .next (failRequest s f 1 false)) ∧
      (barsOn s f = true → i < 1048576 → exec (.bar2Read f (.registers (4 * i)) 4) s =
        .next (answer s f 0 false ((List.range 4).map (fun j => if j = 3 then 0 else bits (readRegister s a i) (8 * j) 8)))) ∧
      (barsOn s f = true → inRun s = true → key < sumpBase →
        (inWindow s f off bytes.length = true → bytes ≠ [] → off % 9 + bytes.length ≤ 9 →
          (admitted s (hostWho f) key 6 .write = (.ok, z) → cell.err = 0 → cell.fold = 0 → cell.poison = false → (∀ y, z.store.l2Word key = some y → y = cell) →
            rdB z (.dsChStat (channelOf key)) 1 = false → rdB z .eccInjCtl 17 = false → ∃ t, exec (.bar2Write f off bytes false) s = .next t ∧ t.sent = z.sent ∧
              (∀ j, j < 9 → wordByte (memAt t key).data j =
                if off % 9 ≤ j ∧ j < off % 9 + bytes.length then bytes.getD (j - off % 9) 0 else wordByte cell.data j) ∧
              ∀ y, plyInWord y = 0 → y ≠ key → memAt t y = memAt z y) ∧
          (admitted s (hostWho f) key 6 .write = (.refused, z) → exec (.bar2Write f off bytes false) s = .next (failRequest (countFailure z) f 4 false)) ∧
          (admitted s (hostWho f) key 6 .write = (.held, z) →
            exec (.bar2Write f off bytes false) s = .next { s with hostQueue := [(f.val, .windowWrite off bytes false false)] })) ∧
        (inWindow s f off n = true → n ≠ 0 → off % 9 + n ≤ 9 →
          (admitted s (hostWho f) key 6 .read = (.ok, z) → fetchWord z key 21 = (x, u) → exec (.bar2Read f (.window off) n) s =
            .next (answer (if x.poison then poisonUsed u key false 21 else u) f 0 x.poison ((List.range n).map (fun j => wordByte x.data (off % 9 + j))))) ∧
          (admitted s (hostWho f) key 6 .read = (.refused, z) → exec (.bar2Read f (.window off) n) s = .next (failRequest (countFailure z) f 4 false)) ∧
          (admitted s (hostWho f) key 6 .read = (.held, z) → exec (.bar2Read f (.window off) n) s = .next { s with hostQueue := [(f.val, .read (.window off) n)] })) ∧
        exec (.bar2Write f off bytes true) s = .next (failRequest s f 0 true)) ∧
      (barsOn s f = true → inBringUp s = true ∨ inReady s = true →
        (∀ ep, exec (.bar2Write f off bytes ep) s = .next (failRequest s f 4 false)) ∧ exec (.bar2Read f (.window off) n) s = .next (failRequest s f 4 false)) ∧
      (barsOn s f = true → inBringUp s = false →
        let open' := { msixEntry h k with masked := false }
        let sends : Instr → MsixEntry → Prop := fun c y => ∃ t, exec c s = .next t ∧ msixEntry (hostOf t f) k = y ∧
          (k.val ∈ h.pendingBits → msixEnabled s f = true → y.masked = false → h.functionMask = false →
            t.sent = .msix f k y.addr y.data :: s.sent ∧ k.val ∉ (hostOf t f).pendingBits) ∧
          (k.val ∉ h.pendingBits ∨ msixEnabled s f = false ∨ y.masked = true ∨ h.functionMask = true → t.sent = s.sent ∧ (hostOf t f).pendingBits = h.pendingBits)
        sends (.msixUnmask f k) open' ∧ sends (.msixTableWrite f k e.masked e.addr e.data) e) ∧
      (let put : ConfigItem → BitVec 32 → Instr := fun y u => .configurationRequest f y true u
       let get : ConfigItem → Instr := fun y => .configurationRequest f y false v
       exec (put .powerState 0) s = .next (setHost s f { h with d3hot := false }) ∧ exec (put .powerState 3) s = .next (setHost s f { h with d3hot := true }) ∧
       exec (put .memorySpace v) s = .next (setHost s f { h with memorySpace := bit v 0 }) ∧
       (∃ t, exec (put .msixEnable v) s = .next t ∧ msixEnabled t f = bit v 0 ∧ (hostOf t f).functionMask = h.functionMask ∧ (hostOf t f).table = h.table ∧ t.mem = s.mem ∧
         (h.pendingBits = [] ∨ bit v 0 = false ∨ h.functionMask = true → t.sent = s.sent)) ∧
       (∃ t, exec (put .functionMask v) s = .next t ∧ (hostOf t f).functionMask = bit v 0 ∧ msixEnabled t f = msixEnabled s f ∧ (hostOf t f).table = h.table ∧ t.mem = s.mem ∧
         (h.pendingBits = [] ∨ msixEnabled s f = false ∨ bit v 0 = true → t.sent = s.sent)) ∧
       exec (put .vendorId v) s = .next s ∧ exec (get .vendorId) s = .next (answer s f 0 false [0x7E, 0x1D]) ∧
       exec (get .deviceId) s = .next (answer s f 0 false [if Config.variantX then 2 else 1, 0x7F]) ∧
       ∃ t, exec (put (.bar 0) v) s = .next t ∧ barValue t f 0 = v &&& 0xFFC00000#32 ∧ t.regs = s.regs)) ∧
    (pcieOn s = true → carried f → p.val = 0 ∨ rdB s .hstLink 0 = true →
      (∃ t, exec (.linkTrained ⟨p, true⟩ gen width) s = .next t ∧ linkUp t p = true ∧
        rdF t .hstLink (3 + 3 * p.val) 3 = gen ∧ rdF t .hstLink (9 + 4 * p.val) 4 = width ∧ t.hosts = s.hosts) ∧
      exec (.linkTrained ⟨p, false⟩ gen width) s = .next (setPerst s p false)) ∧
    (∀ high, (∀ g, ¬ carried g) → exec (.linkTrained ⟨p, high⟩ gen width) s = .next (setPerst s p high)) ∧
    (∀ high, p.val = 0 ∨ rdB s .hstLink 0 = true → ∃ t, exec (.linkDown ⟨p, high⟩) s = .next t ∧ linkUp t p = false ∧ t.mem = s.mem ∧ t.ctxs = s.ctxs ∧
      ∀ g, (carried g → fresh t g) ∧ (¬ carried g → hostOf t g = hostOf s g ∧ msixEnabled t g = msixEnabled s g)) ∧
    (∀ high, p.val ≠ 0 → rdB s .hstLink 0 = false → exec (.linkDown ⟨p, high⟩) s = .next (setPerst s p high)) ∧
    (reachable s f = true → ∃ t, exec (.functionLevelReset f) s = .next t ∧ fresh t f ∧ t.mem = s.mem ∧ t.ctxs = s.ctxs ∧
      ∀ g, g ≠ f → hostOf t g = hostOf s g ∧ msixEnabled t g = msixEnabled s g)

/-! ### The object dictionary (R29, R536, R537, R545, R547, R551, R558, R588) -/

/-- The object dictionary. A mailbox read gives the value of the object, or the abort code (R545, R547); a mailbox write of a whole value offers it. A USDO request is answered on its bus; a segmented
one opens a session, the ninth is refused, and an idle one is aborted (R536). A write of 0x2001 or 0x2100 by a client of the partition, of the layout by the configuration
client, is stored and takes effect as R551 to R558 say: in RUN a combined READY drains, and in READY a combined RUN wakes; any other is answered with its error and stores nothing (R537, R552,
R562). A download into the inactive slot lands there byte by byte, a refused one changes no slot and is answered with its code (R585, R588). Which requests a stopped or unconfigured node serves (log 55), that
a mailbox command is complete at once (log 61), and the codes of the corners of a download and of a segmented session (logs 89, 92) are the model's. -/
def Obligations.ObjectCommands : Prop :=
  ∀ (s u : State) (w : Writer) (f p : Fin 4) (v : Reg24) (b : Byte) (x : BitVec 32) (l : List Byte) (why : OdErr) (err : Option OdErr) (n : BitVec 7) (bus : Bool)
    (idx : BitVec 16) (sub : BitVec 8) (k : Client), s.pwr.aux = true →
    let a := authOf s w
    let g := grantRegisters s w
    let index := (rdF s (.odIdx f) 0 16).toNat
    let sb := (rdF s (.odIdx f) 16 8).toNat
    let len := (bits v 1 4).toNat
    let me : Client := .mailbox f (a.host.isNone && a.safety && a.sup)
    let others := s.can.sessions.filter (fun y => y.1 != n)
    let without : BitVec 7 → State := fun y => { s with can := { s.can with sessions := s.can.sessions.filter (fun c => c.1 != y) } }
    let s1 := without n
    let serves : Prop := match k with
      | .node y c => usdoServed s = true ∧ busState s c ≠ 2 ∧ (s.can.sessions.filter (fun d => d.1 != y)).length < 8
      | .mailbox _ _ => pcieOn s = true ∨ s.modes.emulated = true
    let s2 : State := match k with | .node y _ => without y | .mailbox _ _ => s
    let answered : State → Option OdErr → Nat → State := fun t e m => match k with
      | .node y c => sendCan t (.usdo y c (e.elim 0 OdErr.abort) [])
      | .mailbox g _ => odResult t g e m
    let slot := !activeSlot s
    (Reaches s w (Rg.odCmd f).index →
      (mayMailbox a f = false → exec (.mailboxRead w f v) s = .next (post g .hstCmd 0 .notPermitted) ∧ exec (.mailboxWrite w f v) s = .next (post g .hstCmd 0 .notPermitted)) ∧
      (mayMailbox a f = true → rdB s (.odStat f) 0 = true → exec (.mailboxRead w f v) s = .next (post g .hstCmd 0 .busy)) ∧
      (mayMailbox a f = true → rdB s (.odStat f) 0 = false → rdF s (.odOff f) 0 9 = 0 → 0 < len → len ≤ 9 →
        (readObject g me index sb = .ok l → index ≠ 0x1F51 → ∃ t, exec (.mailboxRead w f v) s = .next t ∧ rdB t (.odStat f) 1 = true ∧ rdB t (.odStat f) 2 = false ∧
          rdF t (.odStat f) 3 9 = BitVec.ofNat 9 l.length ∧ (∀ j, j < len → j < l.length → rdF t (.odDat f (j / 3)) (8 * (j % 3)) 8 = l.getD j 0) ∧
          rd t (.odAbl f) = 0 ∧ rd t (.odAbh f) = 0 ∧ t.od = s.od) ∧
        (readObject g me index sb = .error why → ∃ t, exec (.mailboxRead w f v) s = .next t ∧ rdB t (.odStat f) 1 = true ∧ rdB t (.odStat f) 2 = true ∧
          rdF t (.odStat f) 12 12 = why.code ∧ rd t (.odAbl f) = bits why.abort 0 24 ∧ rdF t (.odAbh f) 0 8 = bits why.abort 24 8 ∧ t.od = s.od) ∧
        (bit v 5 = true → writeObject (setHost g f { hostOf s f with staged := odData s f len ++ (hostOf s f).staged.drop len }) me index sb (odData s f len) = (err, u) →
          ∃ t, exec (.mailboxWrite w f v) s = .next t ∧ rdB t (.odStat f) 1 = true ∧ rdB t (.odStat f) 2 = err.isSome ∧ t.od = u.od ∧ t.modes = u.modes ∧ t.flash = u.flash) ∧
        (bit v 5 = false → ∃ t, exec (.mailboxWrite w f v) s = .next t ∧ (hostOf t f).staged.take len = odData s f len ∧ rdB t (.odStat f) 2 = false ∧ t.od = s.od))) ∧
    (usdoServed s = true → busState s bus ≠ 2 →
      (others.length < 8 →
        (readObject s1 (.node n bus) idx.toNat sub.toNat = .ok l → idx ≠ 0x1F51 → exec (.usdoRequest n bus idx sub none false) s = .next (sendCan s1 (.usdo n bus 0 l))) ∧
        (readObject s1 (.node n bus) idx.toNat sub.toNat = .error why → exec (.usdoRequest n bus idx sub none false) s = .next (sendCan s1 (.usdo n bus why.abort []))) ∧
        (writeObject s1 (.node n bus) idx.toNat sub.toNat l = (err, u) →
          exec (.usdoRequest n bus idx sub (some l) false) s = .next (sendCan u (.usdo n bus (err.elim 0 OdErr.abort) []))) ∧
        ∀ y, let refusal := openError s1 (.node n bus) idx.toNat sub.toNat y.isSome
          (refusal = none → exec (.usdoRequest n bus idx sub y true) s =
            .next { s with can := { s.can with sessions := others ++ [(n, bus, idx.toNat == 0x1F50 && sub.toNat == 1 && y.isSome)] } }) ∧
          (refusal = some why → exec (.usdoRequest n bus idx sub y true) s = .next (sendCan (notOpened s1 why) (.usdo n bus why.abort []))) ∧
          (y.isSome = true → mayWrite s (.node n bus) idx.toNat sub.toNat = some false → refusal ≠ none) ∧ (y.isSome = true → idx = 0x1F50 → fwBusy s = true → refusal ≠ none) ∧
          (inBringUp s = true → openObject idx.toNat = false → refusal = some (.reject .notReady))) ∧
      (8 ≤ others.length → ∀ y q, exec (.usdoRequest n bus idx sub y q) s = .next (sendCan s (.usdo n bus 0x05040005 [])))) ∧
    (busState s bus = 2 → ∀ y q, exec (.usdoRequest n bus idx sub y q) s = .next s) ∧
    (∀ m c d, s.can.sessions = (n, bus, d) :: m → (∀ y ∈ m, y.1 ≠ n) → c = { s.can with sessions := m } →
      exec (.usdoSessionTimeout n) s = .next (sendCan { s with can := c } (.usdo n bus 0x05040000 []))) ∧
    ((∀ y ∈ s.can.sessions, y.1 ≠ n) → exec (.usdoSessionTimeout n) s = .next s) ∧
    (serves → inBringUp s = false → clientOf s k p = true →
      ((odBytes s 0x2001 (p.val + 1)).length = 1 → b = 1 ∨ b = 3 ∨ b = 6 ∨ b = 7 →
        (∃ t, exec (.modeRequest k p b) s = .next t ∧ requestOf t p = b) ∧
        (let z := setOd s 0x2001 (p.val + 1) [b]
         (mode s = 6 → phase s = 0 → combined z = 3 → holdOf z 3 = 0 → ∃ t, exec (.modeRequest k p b) s = .next t ∧ phase t = 1 ∧ t.modes.target = 3 ∧ mode t = 6) ∧
         (mode s = 6 → phase s = 0 → combined z = 3 ∨ combined z = 1 → holdOf z (combined z) ≠ 0 →
           ∃ t, exec (.modeRequest k p b) s = .next t ∧ phase t = 0 ∧ rdF t .modStat 12 3 = holdOf z (combined z) ∧ mode t = 6) ∧
         (mode s = 3 ∨ mode s = 4 ∨ mode s = 5 → phase s = 0 → combined z = 6 → ∃ t, exec (.modeRequest k p b) s = .next t ∧ phase t = 3 ∧ mode t = mode s))) ∧
      ((odBytes s 0x2100 (p.val + 1)).length = 4 → ∃ t, exec (.wakeLatencyBudget k p x) s = .next t ∧ budgetOf t p = x.toNat)) ∧
    (serves → inBringUp s = false →
      ((odBytes s 0x2001 (p.val + 1)).length = 1 → (clientOf s k p = false → exec (.modeRequest k p b) s = .next (answered s2 (some noAccess) 1)) ∧
        (clientOf s k p = true → b ∉ [1, 3, 6, 7] → exec (.modeRequest k p b) s = .next (answered s2 (some badRange) 1))) ∧
      ((odBytes s 0x2100 (p.val + 1)).length = 4 → clientOf s k p = false → exec (.wakeLatencyBudget k p x) s = .next (answered s2 (some noAccess) 4))) ∧
    (inBringUp s = true → match k with
      | .node _ _ => serves → exec (.modeRequest k p b) s = .next (answered s2 (some (.reject .notReady)) 1)
      | .mailbox _ _ => exec (.modeRequest k p b) s = .next s) ∧
    (pcieOn s = false → s.modes.emulated = false → match k with | .node _ _ => True | .mailbox _ _ => exec (.modeRequest k p b) s = .next s) ∧
    (∀ bind : Bool, let o := if bind then 0x2010 else 0x2011
      serves → inBringUp s = false → configClient s k = true → sub ≠ 0 → (odValue s o sub.toNat).any (fun y => y.length == l.length) = true →
      (valueError s o sub.toNat l = none → ∃ t, exec (.partitionLayout k bind sub l) s = .next t ∧ odBytes t o sub.toNat = l ∧
        (mode s = 6 → combined s = 6 → t.inForce = s.inForce)) ∧
      (valueError s o sub.toNat l = some why → exec (.partitionLayout k bind sub l) s = .next (answered s2 (some why) l.length))) ∧
    (serves → inBringUp s = false → configClient s k = true →
      (fwBusy s = false → 72 ≤ l.length →
        (headerCode s (l.take 72) (some l.length) = none → ∃ t, exec (.imageDownload k l) s = .next (answered t none l.length) ∧
          (∀ j, j < l.length → slotByte slot (slotOf t slot) j = some (l.getD j 0)) ∧ slotOf t (activeSlot s) = slotOf s (activeSlot s) ∧ t.fw.result = 0 ∧ t.regs = s.regs) ∧
        (∀ c, headerCode s (l.take 72) (some l.length) = some c → exec (.imageDownload k l) s =
          .next (answered { s2 with fw := { s.fw with result := 2, lastCode := c } } (some (.reject (.firmware c))) l.length))) ∧
      (fwBusy s = true → exec (.imageDownload k l) s = .next (answered { s2 with fw := { s.fw with lastCode := Reject.busy.code } } (some (.reject .busy)) l.length)))

/-! ### The CAN node (R534 to R538, R541, R542) -/

/-- The CAN node: NMT, SYNC, heartbeats and TPDOs, bus states, LSS. A reset of communication takes the configured node-ID and bit rates into use and ends every session
(R534, R536, R538); a SYNC asserts the line of HST_SYNCEVT, the copy on the other bus within half a period does not (R535, R542); bus-off sets health bit 7 (R540). The messages and
states that CiA 301 and CiA 305 give are PRESUMED (log 55), and that a unit given a node-ID is no longer unconfigured for fastscan is read from step 4 of R538; so is that bit timing set through LSS is used at a reset of
communication before that of 0x2020 (log 97). -/
def Obligations.CanCommands : Prop :=
  ∀ (s : State) (c : NmtCommand) (q : Bool) (m : BitVec 7) (y : Byte) (r t : BitVec 16) (j : Fin 8) (i : Fin 4) (id : BitVec 128) (a b d e : BitVec 32) (k o : Byte),
    s.pwr.aux = true →
    let can := s.can
    let line := (rdF s .hstSyncevt 0 8).toNat
    let synced : State := { s with can := { can with syncBus := some (q, s.clock) } }
    let lss : State → Byte → BitVec 32 → State := fun z spec x => sendCan z (.lss spec x)
    let interval := leNat (odBytes s 0x1017 0)
    (nodeId s = none → exec (.nmtStateChange c) s = .next s ∧ exec .heartbeat s = .next s ∧ exec (.tpdo j) s = .next s ∧ exec (.sync q) s = .next s) ∧
    (nodeId s = some m →
      exec (.nmtStateChange c) s = .next { s with can := { can with nmt := match c with | .start => 5 | .stop => 4 | .preOperational => 0x7F } } ∧
      (interval ≠ 0 → exec .heartbeat s = .next (sendCan s (.heartbeat can.nmt))) ∧
      (can.nmt = 5 → leNat (odBytes s (0x1800 + j.val) 1) < 2 ^ 31 →
        exec (.tpdo j) s = .next (sendCan s (.tpdo j ((mappedBytes s j (leNat (odBytes s (0x1A00 + j.val) 0))).take 64)))) ∧
      (can.nmt ≠ 5 ∨ s.pwr.crystal = false ∨ s.pwr.resetN = false → exec (.tpdo j) s = .next s) ∧
      (s.pwr.crystal = false ∨ s.pwr.resetN = false → exec .heartbeat s = .next s) ∧
      (can.nmt ≠ 4 → can.syncBus = none → rdB s .hstSyncevt 8 = false → exec (.sync q) s = .next synced) ∧
      (can.nmt ≠ 4 → can.syncBus = none → rdB s .hstSyncevt 8 = true → exec (.sync q) s = .next { synced with
        events := { s.events with asserted := s.events.asserted ++ [⟨line, lineOwner s line, s.events.now⟩] } }) ∧
      (∀ g, can.syncBus = some (!q, g) → s.clock < g + 20 * leNat (odBytes s 0x1006 0) → exec (.sync q) s = .next s)) ∧
    (∃ z, exec (.nmtResetCommunication q) s = .next z ∧ z.can.nmt = 0x7F ∧ z.can.sessions = [] ∧ z.can.nodeNew = none ∧ z.can.timingNew = none ∧ z.od = s.od ∧
      (can.nodeNew = some y → y ≠ 0xFF → nodeId z = some (bits y 0 7)) ∧ (can.nodeNew = some 0xFF → nodeId z = none) ∧ (can.nodeNew = none → nodeId z = nodeId s) ∧
      (can.timingNew = some (r, t) → z.can.nominal = r ∧ z.can.data = t) ∧
      (can.timingNew = none → z.can.nominal = BitVec.ofNat 16 (leNat (odBytes s 0x2020 1)) ∧ z.can.data = BitVec.ofNat 16 (leNat (odBytes s 0x2020 2)))) ∧
    (∃ z, exec (.busOff q) s = .next z ∧ busState z q = 2 ∧ busState z (!q) = busState s (!q) ∧ bit z.can.reported 7 = true) ∧
    (busState s q = 2 → exec (.errorPassive q true) s = .next s ∧ ∃ z, exec (.busOffRecovery q) s = .next z ∧ busState z q = 0) ∧
    (busState s q ≠ 2 → exec (.busOffRecovery q) s = .next s ∧
      ∀ g : Bool, ∃ z, exec (.errorPassive q g) s = .next z ∧ busState z q = (if g then 1 else 0) ∧ busState z (!q) = busState s (!q)) ∧
    (monitored s m = true → m ∉ can.seen → exec (.heartbeatReceived m) s = .next { s with can := { can with seen := can.seen ++ [m] } }) ∧
    (monitored s m = false → exec (.heartbeatReceived m) s = .next s) ∧
    exec (.heartbeatConsumerTimeout m) s = .next { s with can := { can with seen := can.seen.filter (· != m) } } ∧
    exec (.switchStateGlobal q) s = .next { s with can := { can with lssConfig := q } } ∧
    (id = identity 0 ++ identity 1 ++ identity 2 ++ identity 3 →
      exec (.switchStateSelective id) s = .next (lss { s with can := { can with lssConfig := true } } 0x44 0)) ∧
    (id ≠ identity 0 ++ identity 1 ++ identity 2 ++ identity 3 → exec (.switchStateSelective id) s = .next s) ∧
    (can.lssConfig = true →
      ((1 ≤ y.toNat ∧ y.toNat ≤ 127) ∨ y = 0xFF → exec (.configureNodeId y) s = .next (lss { s with can := { can with nodeNew := some y } } 0x11 0)) ∧
      (y = 0 ∨ (128 ≤ y.toNat ∧ y.toNat < 255) → exec (.configureNodeId y) s = .next (lss s 0x11 1)) ∧
      (r.toNat ∈ [125, 250, 500, 1000] → t.toNat ∈ [1000, 2000, 4000, 5000] →
        exec (.configureBitTiming r t) s = .next (lss { s with can := { can with timingNew := some (r, t) } } 0x13 0)) ∧
      (r.toNat ∉ [125, 250, 500, 1000] → exec (.configureBitTiming r t) s = .next (lss s 0x13 1)) ∧
      (can.nodeNew = some y → y ≠ 0xFF → can.timingNew = some (r, t) →
        exec .storeConfiguration s = .next (lss { s with can := { can with nodeStored := some y, timingStored := some (r, t) } } 0x17 0)) ∧
      exec (.inquireIdentity i) s = .next (lss s (BitVec.ofNat 8 (0x5A + i.val)) (identity i)) ∧
      (nodeId s = some m → exec .inquireNodeId s = .next (lss s 0x5E (m.setWidth 32))) ∧ (nodeId s = none → exec .inquireNodeId s = .next (lss s 0x5E 0xFF))) ∧
    (can.lssConfig = false → exec (.configureNodeId y) s = .next s ∧ exec (.configureBitTiming r t) s = .next s ∧ exec .storeConfiguration s = .next s ∧
      exec (.inquireIdentity i) s = .next s ∧ exec .inquireNodeId s = .next s) ∧
    (a ≤ identity 2 → identity 2 ≤ b → d ≤ identity 3 → identity 3 ≤ e →
      exec (.identifyRemoteSlave (identity 0) (identity 1) a b d e) s = .next (lss s 0x4F 0)) ∧
    (identity 2 < a ∨ b < identity 2 ∨ identity 3 < d ∨ e < identity 3 → exec (.identifyRemoteSlave (identity 0) (identity 1) a b d e) s = .next s) ∧
    (nodeId s = none → hasNode s = false → can.lssConfig = false →
      exec (.fastscan a 0x80 k o) s = .next (lss { s with can := { can with scanField := 0 } } 0x4F 0) ∧
      (y.toNat < 32 → k.toNat = can.scanField → k.toNat < 4 → a >>> y.toNat = identity k.toNat >>> y.toNat →
        (y ≠ 0 → exec (.fastscan a y k o) s = .next (lss s 0x4F 0)) ∧
        (y = 0 → exec (.fastscan a y k o) s = .next (lss { s with can := { can with scanField := o.toNat, lssConfig := decide (o < k) } } 0x4F 0))) ∧
      (y.toNat < 32 → a >>> y.toNat ≠ identity k.toNat >>> y.toNat → exec (.fastscan a y k o) s = .next s)) ∧
    (nodeId s = some m ∨ hasNode s = true ∨ can.lssConfig = true → exec (.fastscan a y k o) s = .next s) ∧
    (can.nodeNew = some y → y ≠ 0xFF → hasNode s = true)

/-! ### Firmware (R572 to R595) -/

/-- Firmware commands. A command that its conditions admit begins with BUSY 1; while one runs or an image download is open, or where its conditions fail, it is rejected with its reason, the last CODE (R583, R588, R591, R594, R595). At the end CLEAR leaves the
inactive slot erased (R584), PROGRAM writes the bytes of its chunk and no other (R589), ACTIVATE makes a slot that verifies active and leaves one that does not (R587), COMMIT raises each
fuse counter to MINSV and lowers none (R582, R583), KEYPROG blows the customer key (R591). That the source
words are read at the end of the command is the model's choice (log 87). -/
def Obligations.FirmwareCommands : Prop :=
  ∀ (s z : State) (w : Writer) (c : FwCmd) (l : List Word72) (e : BitVec 12) (m : Image) (ok : Bool), s.pwr.aux = true →
    let a := authOf s w
    let g := grantRegisters s w
    let src := (rd s .fwSrcl).toNat + (rdF s .fwSrch 0 16).toNat * 2 ^ 24
    let len := (rdF s .fwLen 0 20).toNat
    let off := (rd s .fwOff).toNat
    let b := !activeSlot s
    let rejects : Instr → Reject → Prop := fun i r => exec i s = .next (postReject g .fwCmd r)
    let begun : Instr → BitVec 3 → Prop := fun i op =>
      exec i s = .next (wrB { g with fw := { s.fw with cmd := some { op, src, off, len, owner := a.code, verified := op == 3 && slotGood s b } } } .fwStat 0 true)
    let chunk := plyInWord src = 0 ∧ 0 < len ∧ len ≤ 524288 ∧ off + len ≤ 14913080
    let done : State → Prop := fun t => fwBusy t = false ∧ rdB t .fwStat 1 = true ∧ rdB t .fwStat 2 = false ∧ t.fw.cmd = none
    let failed : State → BitVec 7 → Prop := fun t r => fwBusy t = false ∧ rdB t .fwStat 1 = true ∧ rdB t .fwStat 2 = true ∧ t.fw.cmd = none ∧ t.fw.result = r
    (Reaches s w Rg.fwCmd.index → inRun s = true ∨ inRecovery s = true →
      (mayFw a = true → fwBusy s = false → downloadOpen s = false → begun (.clear w) 1 ∧ (chunk → begun (.program w) 2) ∧ (¬ chunk → rejects (.program w) .reservedCode) ∧ begun (.activate w) 3 ∧
        (fallback s = false → inRecovery s = false → begun (.commit w) 4) ∧ (fallback s = true ∨ inRecovery s = true → rejects (.commit w) .notPermitted) ∧
        (s.fuses.customer = none → plyInWord src = 0 → begun (.keyprog w) 5) ∧ (s.fuses.customer ≠ none → rejects (.keyprog w) .writtenOnce)) ∧
      (mayFw a = true → fwBusy s = true ∨ downloadOpen s = true → ∀ i ∈ [Instr.clear w, .program w, .activate w, .commit w, .keyprog w], rejects i .busy) ∧
      (mayFw a = false → ∀ i ∈ [Instr.clear w, .program w, .activate w, .commit w, .keyprog w], rejects i .notPermitted)) ∧
    (s.fw.cmd = none → exec (.firmwareCommandComplete ok) s = .next s) ∧
    (s.fw.cmd = some c →
      (c.op = 1 → (∃ t, exec (.firmwareCommandComplete true) s = .next t ∧ done t ∧ slotOf t b = { erased := true } ∧ slotOf t (!b) = slotOf s (!b)) ∧
        (∃ t, exec (.firmwareCommandComplete false) s = .next t ∧ failed t 4 ∧ slotOf t (!b) = slotOf s (!b))) ∧
      (c.op = 2 → sourceWords s c c.len = some (.ok l, z) → 8 ≤ c.off → ∃ t, exec (.firmwareCommandComplete true) s = .next t ∧ done t ∧
        (∀ j, slotByte b (slotOf t b) j = if 9 * c.off ≤ j ∧ j < 9 * c.off + 9 * l.length then some ((hostBytes l).getD (j - 9 * c.off) 0) else slotByte b (slotOf z b) j) ∧
        slotOf t (!b) = slotOf z (!b)) ∧
      (c.op = 3 → (verifySlot s b = .ok m → ∃ t, exec (.firmwareCommandComplete true) s = .next t ∧ done t ∧ activeSlot t = b ∧ someSlot t = true ∧
          slotOf t b = slotOf s b ∧ slotOf t (!b) = slotOf s (!b)) ∧
        (verifySlot s b = .error e → ∃ t, exec (.firmwareCommandComplete ok) s = .next t ∧ failed t 3 ∧ t.fw.lastCode = e ∧ rdF t .fwCmdStatus 12 12 = e ∧ t.flash = s.flash)) ∧
      (c.op = 4 → ∃ t, exec (.firmwareCommandComplete ok) s = .next t ∧ done t ∧ t.fuses.customer = s.fuses.customer ∧
        ∀ k, k < 5 → s.fw.minsv.getD k 0 ≤ 63 → fuseCount t k = Nat.max (fuseCount s k) (s.fw.minsv.getD k 0)) ∧
      (c.op = 5 → sourceWords s c 10 = some (.ok l, z) → (∀ y ∈ (hostBytes l).drop 80, y = 0) →
        ∃ t, exec (.firmwareCommandComplete ok) s = .next t ∧ done t ∧ t.fuses = { z.fuses with customer := some ((hostBytes l).take 80) }))

/-! ### Modes (R549 to R559, R589, R590, R607) -/

/-- Transitions of the mode. Draining ends when no splice runs, at its limit by preemption of those that have a record (R555). The depth selected is reached (R555, R558); the switch-off loses what the main domains
held, or is emulated (R549, R607); a wake ends in RUN (R556). A start ends in READY depth 1 with the image of the active slot, or of the other when that does not verify, and in RECOVERY when neither does or RECOVERY is
asked (R560, R590); RECOVERY is left when a slot verifies, RECOVERY_N is high and the request is another (R590). Elsewhere the events mean nothing. -/
def Obligations.ModeCommands : Prop :=
  ∀ (s : State) (trained : BitVec 128) (m : Image) (p : Splice) (i : Fin 16) (e : BitVec 12) (low : Bool), s.pwr.aux = true →
    let d := selectedDepth s
    let a := activeSlot s
    let recovers := ∃ t, exec (.bootComplete trained) s = .next t ∧ mode t = 7 ∧ rdF t (.cisOwner 0) 0 4 = 1 ∧ cisState t 0 = 0 ∧ present t 0 = true ∧ t.fw.running = none
    let boots : Bool → Prop := fun b => ∃ t, exec (.bootComplete trained) s = .next t ∧ mode t = 3 ∧ phase t = 3 ∧ t.fw.running = some b ∧ t.fw.build = m.build ∧
      t.fw.minsv = m.minsv ∧ rdB t .fwStat 3 = (b != a)
    (inRun s = true → phase s = 1 →
      (splicesRun s = false → (∃ t, exec .drainComplete s = .next t ∧ phase t = 2 ∧ t.mem = s.mem ∧ t.modes = s.modes ∧ ∀ x, x < 5 → dogEn s x = true → (dogOf t x).paused = true) ∧
        (∃ t, exec .drainLimit s = .next t ∧ phase t = 2)) ∧
      (splicesRun s = true → exec .drainComplete s = .next s) ∧
      (s.splices.list = [p] → p.phase = .running i → spliceOn s i = some p →
        (p.lazyArea ≠ 0 → pumpFailed s i = false → ∃ t, exec .drainLimit s = .next t ∧ t.splices.list = [{ p with phase := .saving i, stamp := s.splices.stamp }] ∧ pumpState t i = 2 ∧ phase t = 1) ∧
        (p.lazyArea = 0 → exec .drainLimit s = .next s))) ∧
    (inRun s = false ∨ phase s ≠ 1 → exec .drainComplete s = .next s ∧ exec .drainLimit s = .next s) ∧
    (phase s = 2 → s.modes.target = 3 → s.store.held = [] →
      (combined s = 3 → ∃ t, exec .depthReached s = .next t ∧ mode t = BitVec.ofNat 8 (2 + d) ∧ rdF t .modStat 8 2 = BitVec.ofNat 2 d ∧ phase t = 0 ∧ t.modes.target = 0 ∧ t.mem = s.mem ∧
        (2 ≤ d → t.modes.emulated = emulates s)) ∧
      (combined s = 6 → ∃ t, exec .depthReached s = .next t ∧ mode t = BitVec.ofNat 8 (2 + d) ∧ phase t = 3)) ∧
    (phase s = 2 → s.modes.target = 1 → combined s = 1 →
      (emulates s = false → ∃ t, exec .standbySwitchOff s = .next t ∧ mode t = 1 ∧ phase t = 0 ∧ t.mem = Tab.empty ∧ t.ctxs = Tab.empty ∧ t.od = s.od ∧
        t.fuses = s.fuses ∧ t.flash.log = s.flash.log) ∧
      (emulates s = true → ∃ t, exec .standbySwitchOff s = .next t ∧ mode t = 1 ∧ phase t = 0 ∧ t.modes.emulated = true)) ∧
    (phase s ≠ 2 → exec .depthReached s = .next s ∧ exec .standbySwitchOff s = .next s) ∧
    (phase s = 3 → s.store.held = [] → Quiet s → combined s = 6 → ∃ t, exec .wakeComplete s = .next t ∧ mode t = 6 ∧ phase t = 0 ∧ rdF t .modStat 12 3 = 0 ∧ t.modes.emulated = false ∧ t.mem = s.mem) ∧
    (phase s ≠ 3 → exec .wakeComplete s = .next s) ∧
    (inBringUp s = true →
      (s.modes.recovery = true → recovers) ∧
      (s.modes.recovery = false → verifySlot s a = .error e → slotGood s (!a) = false → recovers) ∧
      (s.modes.recovery = false → phase s = 0 → defaultsOf m = [] → scalarLoad m = none → storedLayout { s with odBase := Tab.empty } = s.inForce → (∀ q, q < 4 → bound s q = true → s.od.find (odKey 0x2001 (q + 1)) = some [6]) →
        (verifySlot s a = .ok m → boots a) ∧ (verifySlot s a = .error e → verifySlot s (!a) = .ok m → boots (!a)))) ∧
    (inBringUp s = false → exec (.bootComplete trained) s = .next s) ∧
    (inRecovery s = true → someSlot s = true → combined s ≠ 7 → ∃ t, exec (.recoveryExit true) s = .next t ∧ mode t = 2 ∧ phase t = 0 ∧ t.modes.recovery = false ∧ t.mem = Tab.empty) ∧
    (inRecovery s = false ∨ someSlot s = false ∨ combined s = 7 ∨ low = false →
      exec (.recoveryExit low) s = .next { s with pwr := { s.pwr with recoveryN := low } })

/-! ### Supplies, pins, clocks (R516, R540, R549, R554, R563, R566, R626) -/

/-- Power and the outside. Losing VIN_MAIN, RESET_N low, a lid more than 10 °C above its limit or a bad clock sends the device to STANDBY without what the main domains held (R563, R566, R626). When
all of them are good again and the request is not STANDBY, BRING-UP begins, its CAUSE the event that allowed it, with the layout stored (R29, R554, R570); a VIN_MAIN out of 10.8 V to 13.2 V is not good (R634). A
supply out of range sets its health bit, back in range clears it, and the lid's follows its limits of the ordering code (R2, R540, R642). Losing VIN_AUX leaves
flash and fuses alone (R549); until it is valid again the levels of VIN_MAIN, RESET_N, the lid and the clocks are noted (R554, R561, R563, R642) and no other command acts, which is the model's reading (log 110),
as are that the unflushed error log is lost at every shutdown and that a thermal shutdown shows a free temperature above the threshold where none was measured (log 104), the range of a supply in steps
of 10 mV (log 162), and the pins that VIN_MAIN shows where it enters its range again (log 157). -/
def Obligations.SupplyCommands : Prop :=
  (∀ (s : State) (c : Instr), s.pwr.aux = false → mode s = 1 → (∀ l, c ≠ .vinAuxValid l) → (∀ l rn split, c ≠ .vinMainValid l rn split) → c ≠ .vinMainLoss →
    (∀ l, c ≠ .supplyOutOfRange true l ∧ c ≠ .supplyBackInRange true l ∧ c ≠ .lidOutOfRange l ∧ c ≠ .lidBackInRange l ∧ c ≠ .thermalReturn l) →
    c ≠ .thermalShutdown → c ≠ .resetNLow → c ≠ .resetNHigh → (∀ x y, c ≠ .clockMonitorCheck x y) → c ≠ .clockRecovery → exec c s = .next s) ∧
  (∀ (s : State) (l : BitVec 12) (x y : Bool), s.pwr.aux = false →
    let noted : State := wrF { s with pwr := { s.pwr with lidOut := lidBeyond l } } .modTemp 0 l
    exec .resetNLow s = .next { s with pwr := { s.pwr with resetN := false } } ∧ exec .resetNHigh s = .next { s with pwr := { s.pwr with resetN := true } } ∧
    exec (.lidOutOfRange l) s = .next noted ∧ exec (.lidBackInRange l) s = .next noted ∧
    exec (.clockMonitorCheck x y) s = .next { s with pwr := { s.pwr with crystal := !x, clockGood := s.pwr.clockGood && !(x || y) } } ∧
    exec .clockRecovery s = .next { s with pwr := { s.pwr with crystal := true, clockGood := true } }) ∧
  (∀ (s : State) (l : BitVec 12) (rn split : Bool), s.pwr.aux = false → supplyOut true l = false → s.pwr.main = false →
    ∃ t, exec (.vinMainValid l rn split) s = .next t ∧ t.pwr.main = true ∧ t.pwr.aux = false ∧ mode t = mode s ∧ t.pwr.split = split ∧ t.modes.pinRecovery = !rn) ∧
  (∀ (s : State) (l : BitVec 12), s.pwr.aux = true ∨ supplyOut false l = true → exec (.vinAuxValid l) s = .next s) ∧
  (∀ l : BitVec 12, supplyOut true l = false ↔ 1080 ≤ l.toNat ∧ l.toNat ≤ 1320) ∧
  ∀ (s : State) (l : BitVec 12) (rn split main : Bool),
    let o := s.pwr
    let stored : State := { s with odBase := Tab.empty }
    let gone : Instr → Prop := fun i => ∃ t, exec i s = .next t ∧ mode t = 1 ∧ phase t = 0 ∧ t.mem = Tab.empty ∧ t.ctxs = Tab.empty ∧ t.splices.list = [] ∧
      t.store.retiring = [] ∧ t.flash.unflushed = [] ∧ t.od = s.od ∧ t.fuses = s.fuses ∧ t.flash.log = s.flash.log
    let starts : Instr → BitVec 3 → Bool → Prop := fun i cause recovery => ∃ t, exec i s = .next t ∧ mode t = 2 ∧ phase t = 0 ∧ rdF t .modStat 15 3 = cause ∧ t.modes.recovery = recovery ∧
      t.rwsDone = [] ∧ (∀ sub, 1 ≤ sub → sub ≤ 9 → layoutBytes t 0x2010 sub = odBytes stored 0x2010 sub) ∧
      ∀ sub, 1 ≤ sub → sub ≤ 19 → layoutBytes t 0x2011 sub = odBytes stored 0x2011 sub
    let rec' := s.modes.pinRecovery || combined s == 7
    let valid : Prop := o.main = true ∧ o.mainOut = false
    let cool : Prop := o.hot = false ∧ lidTooHot (rdF s .modTemp 0 12) = false
    let low : Int := if Config.variantX then -400 else 0
    let high : Int := if Config.variantX then 950 else 850
    let inside := low ≤ l.toInt ∧ l.toInt ≤ high
    (o.aux = false → supplyOut false l = false → mode s = 1 →
      (o.main = false → ∃ t, exec (.vinAuxValid l) s = .next t ∧ t.pwr.aux = true ∧ mode t = 1 ∧ rdF t .modVolt 12 12 = l ∧ t.od = s.od) ∧
      (combined s ≠ 1 → valid → o.resetN = true → lidTooHot (rdF s .modTemp 0 12) = false → o.clockGood = true → starts (.vinAuxValid l) 0 rec')) ∧
    (o.aux = true →
      (∃ t, exec .vinAuxLoss s = .next t ∧ t.pwr.aux = false ∧ t.pwr.main = o.main ∧ mode t = 1 ∧ t.mem = Tab.empty ∧ t.fuses = s.fuses ∧ t.flash.log = s.flash.log ∧
        t.flash.retired = s.flash.retired ∧ t.modes.pinRecovery = s.modes.pinRecovery ∧ rdF t .modVolt 0 12 = (rdF s .modVolt 0 12 : BitVec 12) ∧
        (s.fw.cmd = none → t.flash.slotA = s.flash.slotA ∧ t.flash.slotB = s.flash.slotB ∧ t.flash.sector0 = s.flash.sector0 ∧ t.flash.sector1 = s.flash.sector1) ∧
        (∀ sub, sub < 256 → t.od.find (odKey 0x2010 sub) = s.od.find (odKey 0x2010 sub) ∧ t.od.find (odKey 0x2011 sub) = s.od.find (odKey 0x2011 sub))) ∧
      (o.main = true → gone .vinMainLoss) ∧ (o.main = false → exec .vinMainLoss s = .next s) ∧ (valid → exec (.vinMainValid l rn split) s = .next s) ∧
      gone .resetNLow ∧ gone .thermalShutdown ∧
      (∃ t, exec .thermalShutdown s = .next t ∧ t.pwr.hot = true ∧ rdF t .modTemp 0 12 = (hotReading s).1 ∧ high + 100 < (hotReading s).1.toInt) ∧
      (high + 100 < (rdF s .modTemp 0 12 : BitVec 12).toInt → (hotReading s).1 = rdF s .modTemp 0 12) ∧ gone (.clockMonitorCheck true main) ∧ gone (.clockMonitorCheck false true) ∧
      (∃ t, exec (.clockMonitorCheck true main) s = .next t ∧ t.pwr.crystal = false ∧ t.pwr.clockGood = false) ∧ (o.crystal = true → exec (.clockMonitorCheck false false) s = .next s) ∧
      (mode s = 1 → combined s ≠ 1 →
        (¬ valid → supplyOut true l = false → o.resetN = true → cool → o.clockGood = true →
          starts (.vinMainValid l rn split) (if s.modes.powerUp then 0 else 1) (!rn || combined s == 7) ∧
          ∃ t, exec (.vinMainValid l rn split) s = .next t ∧ rdB t .hstLink 0 = split ∧ rdB t .modStat 18 = rn ∧ t.pwr.main = true) ∧
        (valid → cool → o.clockGood = true → starts .resetNHigh 3 rec') ∧
        (valid → o.resetN = true → cool → starts .clockRecovery 1 rec') ∧
        (inside → valid → o.resetN = true → o.clockGood = true → starts (.thermalReturn l) 5 rec') ∧
        (o.main = true → supplyOut true l = false → o.resetN = true → cool → o.clockGood = true →
          ∃ asked, starts (.supplyBackInRange true l) (if s.modes.powerUp then 0 else 1) asked ∧ (o.mainOut = false → asked = rec'))) ∧
      (mode s = 1 → ¬ valid →
        exec .resetNHigh s = .next { s with pwr := { o with resetN := true } } ∧ exec .clockRecovery s = .next { s with pwr := { o with clockGood := true, crystal := true } } ∧
        (inside → ∃ t, exec (.thermalReturn l) s = .next t ∧ mode t = 1 ∧ t.pwr.hot = false ∧ rdF t .modTemp 0 12 = l)) ∧
      (¬ inside → ∃ t, exec (.thermalReturn l) s = .next t ∧ mode t = mode s ∧ t.pwr.hot = o.hot ∧ rdF t .modTemp 0 12 = l) ∧
      (∀ i ∈ [Instr.supplyOutOfRange main l, .supplyBackInRange main l], ∃ t, exec i s = .next t ∧ rdF t .modVolt (if main then 0 else 12) 12 = l ∧
        bit t.can.reported 10 = (supplyOut main l || (if main then o.auxOut else o.mainOut)) ∧ (mode s ≠ 1 → mode t = mode s ∧ t.mem = s.mem)) ∧
      ∀ i ∈ [Instr.lidOutOfRange l, .lidBackInRange l], ∃ t, exec i s = .next t ∧ rdF t .modTemp 0 12 = l ∧ (bit t.can.reported 11 = true ↔ ¬ inside) ∧ mode t = mode s ∧ t.mem = s.mem)

/-! ### Debug (R596 to R616) -/

/-- Aftar and trace. A word or register access that alignment, power, permission and the target's check admit ends with STS 0 and its data; another with the STS that R597 to R600 give; a held one is busy and
ends later (R597, R600, R614). HALT is taken at a boundary that allows it, STEP runs to the next, RESUME and RELEASE let the core go on (R601 to R606); REGRD and REGWR reach a register of a halted core (R601).
A freeze shows its bits (R608). Stimuli and syncs make packets while trace is on, the FIFO loses and counts what does not fit, an overflow packet follows, and the oldest leaves first, or the idle packet with none
(R610, R611). RESUME and STEP need ATT (R614). An access shows the TAP out of Test-Logic-Reset, and TRST_N puts it there (R596; log 160). The order of the STS codes and the addresses outside every region
(log 99), HALT, STEP and RESUME where the core cannot run (logs 94, 165), RESUME from a delay slot (log 161), the register numbers (log 95) and the permission that RELEASE needs (log 117) are the model's reading. -/
def Obligations.DebugCommands : Prop :=
  ∀ (s z : State) (w : Writer) (a : BitVec 40) (d : Word72) (inc : Bool) (i : Nat) (v : Reg24) (r : Rg) (why : Reject) (n : Fin 16) (c : Fin 5) (bank : BitVec 5) (k : BitVec 7) (j : BitVec 2)
    (x : Word72) (q : Fin 32) (world : Bool) (pk : List Byte) (l : List (List Byte)), s.pwr.aux = true →
    let cn : BitVec 3 := BitVec.ofNat 3 c.val
    let may := mayDebugCode s (rdF s .dbgCtl 1 4) = true
    let s0 := underAftar s
    let g0 := grantRegisters s0 .aftar
    let gw := grantRegisters s w
    let still : Prop := rdB s .dbgCtl 7 = false ∨ s.store.held = []
    let me := authOf s .aftar
    let cell := memAt s a.toNat
    let on : BitVec 3 → Prop := fun sts => ∀ g ∈ [Instr.wordRead a inc, .wordWrite a d inc], ∃ t, exec g s = .next t ∧ t.dbg.sts = sts ∧ t.dbg.busy = none ∧ t.dbg.testReset = false ∧ t.mem = s.mem ∧ t.regs = s.regs
    let core : Prop := s.dbg.busy = none ∧ may ∧ mayDebugCore s c = true ∧ rdB s .dbgCmdStatus 0 = false
    let bk := debugBank c bank
    let fin : State → Prop := fun t => rdB t .dbgCmdStatus 0 = false ∧ rdB t .dbgCmdStatus 1 = true
    (s.dbg.busy = none →
      ((regionOf a.toNat).isSome = true → plyInWord a.toNat ≠ 0 → on 6) ∧
      (regionOf a.toNat = none ∨ plyInWord a.toNat = 0 → asleep s = true → on 5) ∧
      (plyInWord a.toNat = 0 → asleep s = false → ¬ may → on 4) ∧
      (regionOf a.toNat = some (.cistern n) → plyInWord a.toNat = 0 → asleep s = false → may → cell.err = 0 → cell.fold = 0 → cell.poison = false →
        (checkCistern s (aftarWho s) n = .ok →
          (∃ t, exec (.wordRead a inc) s = .next t ∧ t.dbg.sts = 0 ∧ t.dbg.data = cell.data ∧ t.dbg.next = (if inc then a + 6 else a) ∧ t.mem = s.mem ∧ t.regs = s.regs) ∧
          (rdB s .eccInjCtl 17 = false → ∃ t, exec (.wordWrite a d inc) s = .next t ∧ t.dbg.sts = 0 ∧ memAt t a.toNat = { data := d } ∧ (∀ y, y ≠ a.toNat → memAt t y = memAt s y) ∧
            t.regs = s.regs)) ∧
        (checkCistern s (aftarWho s) n = .refused → ∃ t, exec (.wordRead a inc) s = .next t ∧ t.dbg.sts = 2 ∧ t.mem = s.mem) ∧
        (checkCistern s (aftarWho s) n = .held → ∃ t, exec (.wordRead a inc) s = .next t ∧ t.dbg.sts = 1 ∧ t.dbg.busy = some (1, a, 0, inc) ∧ t.mem = s.mem)) ∧
      exec .aftarAccessComplete s = .next s ∧
      (i < 1048576 → asleep s = false ∨ awakeForAftar i = true → may →
        (∃ t, exec (.registerRead i inc) s = .next t ∧ t.dbg.sts = 0 ∧ t.dbg.data = (readRegister s me i).setWidth 72 ∧ t.regs = s.regs) ∧
        (Rg.ofIndex i = some r → answersRead s me i = true → let c := r.bits.rc
          (marked s r = none → ∃ t, exec (.consumingRegisterRead i inc) s = .next t ∧ t.dbg.data = (shown s r).setWidth 72 ∧ rd t r = rd s r &&& ~~~c) ∧
          ∀ m, marked s r = some m → ∃ t, exec (.consumingRegisterRead i inc) s = .next t ∧ t.dbg.data = ((shown s r &&& ~~~c) ||| (m.before &&& c)).setWidth 72 ∧
            rd t r &&& c = ((rd s r &&& c) - (m.before &&& c)) &&& c) ∧
        (Rg.ofIndex i = some r → putBlock g0 me r v = .ok z → ∃ t, exec (.registerWrite i v inc) s = .next t ∧ t.dbg.sts = 0 ∧ t.regs = z.regs ∧ t.ctxs = z.ctxs ∧ t.events = z.events) ∧
        (Rg.ofIndex i = some r → putBlock g0 me r v = .error why → ∃ t, exec (.registerWrite i v inc) s = .next t ∧ t.dbg.sts = 6 ∧ t.regs = (postReject s r why).regs)) ∧
      (1048576 ≤ i → i < 2 ^ 40 → ∃ t, exec (.registerRead i inc) s = .next t ∧ t.dbg.sts = 2 ∧ t.regs = s.regs)) ∧
    (s.dbg.busy = some (1, a, 0, inc) → regionOf a.toNat = some (.cistern n) → plyInWord a.toNat = 0 → asleep s = false → may → cell.err = 0 → cell.fold = 0 → cell.poison = false →
      checkCistern s (aftarWho s) n = .ok → ∃ t, exec .aftarAccessComplete s = .next t ∧ t.dbg.sts = 0 ∧ t.dbg.busy = none ∧ t.dbg.data = cell.data) ∧
    (s.modes.emulated = false → exec .trstNLow s = .next (wrB { s with dbg := { s.dbg with testReset := true, ir := 1 } } .dbgCtl 0 false)) ∧
    (core →
      (rdB s .dbgCtl 0 = false → ∀ y ∈ [Instr.resume cn, .step cn], ∃ t, exec y s = .next t ∧ rdB t .dbgCmdStatus 2 = true ∧ rdF t .dbgCmdStatus 12 12 = Reject.notPermitted.code ∧
        halted t c = halted s c ∧ t.cores = s.cores ∧ t.ctxs = s.ctxs) ∧
      (halted s c = false → (∃ t, exec (.halt cn) s = .next t ∧ (coreOf t c).haltAsked = true ∧ rdB t .dbgCmdStatus 0 = true ∧ t.ctxs = s.ctxs) ∧
        (rdB s .dbgCtl 0 = true → ∃ t, exec (.resume cn) s = .next t ∧ fin t ∧ t.cores = s.cores) ∧ (rdB s .dbgCtl 0 = true → ∃ t, exec (.step cn) s = .next t ∧ fin t ∧ t.cores = s.cores)) ∧
      (halted s c = true → (∃ t, exec (.halt cn) s = .next t ∧ fin t ∧ t.cores = s.cores) ∧
        (rdB s .dbgCtl 0 = true → still → ∃ t, exec (.resume cn) s = .next t ∧ fin t ∧ halted t c = false ∧ ((coreOf s c).slot = none → t.ctxs = s.ctxs) ∧
          (∀ g, (coreOf s c).slot = some g → (coreOf t c).slot = none ∧ pcOf t c = g)) ∧
        (canStep s c = true → rdB s .dbgCtl 0 = true → still → ∃ t, exec (.step cn) s = .next t ∧ halted t c = false ∧ (coreOf t c).stepping = true ∧ rdB t .dbgCmdStatus 0 = true) ∧
        (canStep s c = false → rdB s .dbgCtl 0 = true → ∃ t, exec (.step cn) s = .next t ∧ fin t ∧ t.cores = s.cores) ∧
        (debugGet s c bk k.toNat j.toNat = some x →
          (∃ t, exec (.regrd cn bank k j) s = .next t ∧ fin t ∧ debugData t = x ∧ t.ctxs = s.ctxs) ∧
          (debugWriteBad s c bk k.toNat (debugData s) = false → ∃ t, exec (.regwr cn bank k j) s = .next t ∧ fin t ∧
            t.ctxs = (debugSet s c bk k.toNat j.toNat (debugData s)).ctxs ∧ t.cores = (debugSet s c bk k.toNat j.toNat (debugData s)).cores ∧
            (k.toNat < 32 → debugGet t c bk k.toNat 0 = some (if k = 0 then 0 else (bits (debugData s) 0 48).setWidth 72))))) ∧
      (c.val < 4 → coreLocked s c = true → ∃ t, exec (.release cn) s = .next t ∧ fin t ∧ rdF t (.capStat c) 0 2 = 0 ∧ halted t c = true ∧ bit (ctxOf t c).stw 12 = true)) ∧
    ((coreOf s c).haltAsked = true → haltAllowed s c = true → ∃ t, exec (.haltTaken c) s = .next t ∧ halted t c = true ∧ rdF t .dbgStat 5 3 = 0 ∧ fin t ∧
      (coreOf t c).haltAsked = false ∧ (coreOf t c).reservation = none ∧ (ctxOf t c).chain = [] ∧ ((coreOf s c).waiting = false → (ctxOf s c).chain = [] → t.ctxs = s.ctxs) ∧
      ∀ g, getG t c g = getG s c g) ∧
    ((coreOf s c).haltAsked = false ∨ haltAllowed s c = false → exec (.haltTaken c) s = .next s) ∧
    (Reaches s w Rg.dbgFreeze.index → exec (.dbgFreeze w v) s = .next (post gw .dbgCmdStatus 2 .notPermitted)) ∧
    (s.dbg.busy = none → may → bit v 20 = true ∨ s.store.held = [] → ∃ t, exec (.dbgFreeze .aftar v) s = .next t ∧ ∀ g, g < 21 → bit (rd t .dbgFreeze) g = bit v g) ∧
    (Reaches s w (Rg.dbgStim (cond world 1 0) q).index → let b := authOf s w
      let packet : List Byte := [1, b.code.setWidth 8, BitVec.ofNat 8 q.val] ++ leBytes 3 v.toNat ++ leBytes 2 s.clock
      ((if b.code = 8 then world = false else b.safety ≠ world) → exec (.stimulus w world q v) s = .next (post gw .dbgCmdStatus 2 .notPermitted)) ∧
      ((if b.code = 8 then world = true else b.safety = world) →
        (rdF s .dbgTrcfg 0 2 = 1 → s.dbg.lost = 0 → s.dbg.fifo.length < 256 → exec (.stimulus w world q v) s = .next { gw with dbg := { s.dbg with fifo := s.dbg.fifo ++ [packet] } }) ∧
        (rdF s .dbgTrcfg 0 2 = 3 → s.dbg.lost = 0 → s.dbg.fifo = [] → exec (.stimulus w world q v) s = .next { gw with dbg := { s.dbg with fifo := [packet] } }) ∧
        (rdF s .dbgTrcfg 0 2 = 1 → s.dbg.lost ≠ 0 → s.dbg.fifo.length < 255 → ∃ t, exec (.stimulus w world q v) s = .next t ∧ t.dbg.lost = 0 ∧
          t.dbg.fifo = s.dbg.fifo ++ [[3, BitVec.ofNat 8 s.dbg.lost]] ++ [packet]) ∧
        (rdB s .dbgTrcfg 0 = true → 256 ≤ s.dbg.fifo.length → ∃ t, exec (.stimulus w world q v) s = .next t ∧ t.dbg.fifo = s.dbg.fifo ∧
          t.dbg.lost = satAdd 255 s.dbg.lost 1 ∧ rd t .dbgTrlost = bumpField (rd s .dbgTrlost) 0 24 1) ∧
        (rdB s .dbgTrcfg 0 = false → exec (.stimulus w world q v) s = .next gw))) ∧
    (rdF s .dbgTrcfg 0 2 = 1 → s.dbg.lost = 0 → s.dbg.fifo.length < 256 → exec .syncPacket s = .next { s with dbg := { s.dbg with fifo := s.dbg.fifo ++ [2 :: leBytes 6 s.clock] } }) ∧
    (rdB s .dbgTrcfg 0 = false → exec .syncPacket s = .next s) ∧
    (tracePins s ≠ .driven → rdF s .dbgTrcfg 0 2 ≠ 3 → exec .tracePacketSent s = .next s) ∧
    (tracePins s = .driven → s.dbg.fifo = [] → exec .tracePacketSent s = .next (send s (.trace [0]))) ∧
    (tracePins s = .driven → s.dbg.fifo = pk :: l → (s.dbg.lost = 0 → exec .tracePacketSent s = .next (send { s with dbg := { s.dbg with fifo := l } } (.trace pk))) ∧
      (s.dbg.lost ≠ 0 → l.length < 256 → ∃ t, exec .tracePacketSent s = .next t ∧ t.sent = .trace pk :: s.sent ∧ t.dbg.fifo = l ++ [[3, BitVec.ofNat 8 s.dbg.lost]] ∧ t.dbg.lost = 0))

/-! ### Reset (R550, R554) -/

/-- Right after reset the device is in STANDBY with every register at its Reset value, nothing in memory, no splice, no command waiting, lifeline DISABLED, every task slot INVALID, no event asserted and no
fuse blown (R15, R550); a VIN_MAIN in its range starts it, and BRING-UP follows (R554). The fuses and the layout objects as delivered (log 11), and that the pins are high, the lid cool and the clocks good at
reset (log 5), are the model's. -/
def Obligations.ResetState : Prop :=
  let s := State.reset
  s.pending = [] ∧ s.pwr.aux = true ∧ mode s = 1 ∧ phase s = 0 ∧ llState s = 0 ∧ (∀ r : Rg, rd s r = r.reset) ∧ (∀ k, memAt s k = blank k) ∧ Memory.wf s.mem = true ∧
  s.splices.list = [] ∧ s.events.asserted = [] ∧ s.rwsDone = [] ∧ (∀ (c : Fin 4) (t : Fin 64), taskState s c t = 0 ∧ taskValid s c t = false) ∧
  (∀ c, fuseCount s c = 0) ∧ s.fuses.customer = none ∧ combined s = 6 ∧ (∀ c : Core, coreRuns s c = false) ∧
  ∀ (l : BitVec 12) (rn split : Bool), supplyOut true l = false → ∃ t, exec (.vinMainValid l rn split) s = .next t ∧ mode t = 2 ∧ rdB t .hstLink 0 = split
end

