-- ==== Sys2Proof/Laws/Tab.lean ====
section
/-! SUPPORT. What the operations of the sparse table do: what an entry reads as after each, and the canonical form. -/

namespace Sys2Proof.Laws

variable {α : Type}

theorem look_place (t : List (Nat × α)) (k j : Nat) (v : α) (h : keysRise t = true) :
    Tab.look (Tab.place t k v) j = if j = k then some v else Tab.look t j := by
  induction t with
  | nil => simp [Tab.place, Tab.look]
  | cons a t ih =>
    obtain ⟨i, w⟩ := a
    have ht := Tab.keysRise_cons.mp h
    simp only [Tab.place]
    split
    · simp only [Tab.look]
    · split
      · rename_i _ hk
        subst hk
        by_cases hj : j = k <;> simp [Tab.look, hj]
      · rename_i h1 h2
        simp only [Tab.look, ih ht.2]
        by_cases hj : j = k
        · subst hj; simp [h2]
        · simp [hj]

theorem look_none (t : List (Nat × α)) (k : Nat) (h : ∀ b ∈ t, k < b.1) : Tab.look t k = none := by
  induction t with
  | nil => rfl
  | cons a t ih =>
    have ha := h a (by simp)
    have hk : k ≠ a.1 := by omega
    simp only [Tab.look, hk, if_false]
    exact ih (fun b hb => h b (by simp [hb]))

theorem look_strike (t : List (Nat × α)) (k j : Nat) (h : keysRise t = true) :
    Tab.look (Tab.strike t k) j = if j = k then none else Tab.look t j := by
  induction t with
  | nil => simp [Tab.strike, Tab.look]
  | cons a t ih =>
    obtain ⟨i, w⟩ := a
    have ht := Tab.keysRise_cons.mp h
    simp only [Tab.strike]
    split
    · rename_i hk
      subst hk
      by_cases hj : j = k
      · subst hj; simp only [if_true]; exact look_none t j ht.1
      · simp [Tab.look, hj]
    · rename_i hk
      simp only [Tab.look, ih ht.2]
      by_cases hj : j = k
      · subst hj; simp [hk]
      · simp [hj]

theorem find_insert (t : Tab α) (k j : Nat) (v : α) : (t.insert k v).find j = if j = k then some v else t.find j :=
  look_place t.entries k j v t.rising

theorem find_erase (t : Tab α) (k j : Nat) : (t.erase k).find j = if j = k then none else t.find j :=
  look_strike t.entries k j t.rising

/-- What a number reads as after a write of another or the same number. -/
theorem get_put [DecidableEq α] (t : Tab α) (k j : Nat) (v d : α) : (t.put k v d).get j d = if j = k then v else t.get j d := by
  unfold Tab.put Tab.get
  split
  · rename_i h; rw [find_erase]; split <;> simp [h]
  · rw [find_insert]; split <;> simp

@[simp] theorem get_put_same [DecidableEq α] (t : Tab α) (k : Nat) (v d : α) : (t.put k v d).get k d = v := by
  simp [get_put]

theorem get_put_ne [DecidableEq α] (t : Tab α) (k j : Nat) (v d d' : α) (h : j ≠ k) : (t.put k v d).get j d' = t.get j d' := by
  unfold Tab.put Tab.get
  split
  · rw [find_erase]; simp [h]
  · rw [find_insert]; simp [h]

@[simp] theorem get_empty (k : Nat) (d : α) : (Tab.empty : Tab α).get k d = d := rfl

@[simp] theorem find_empty (k : Nat) : (Tab.empty : Tab α).find k = none := rfl

theorem mem_look (t : List (Nat × α)) (k : Nat) (v : α) (h : keysRise t = true) (hm : (k, v) ∈ t) : Tab.look t k = some v := by
  induction t with
  | nil => simp at hm
  | cons a t ih =>
    have ht := Tab.keysRise_cons.mp h
    simp only [List.mem_cons] at hm
    rcases hm with hm | hm
    · subst hm; simp [Tab.look]
    · have := ht.1 _ hm
      have hk : k ≠ a.1 := by simp at this; omega
      simp only [Tab.look, hk, if_false]
      exact ih ht.2 hm

end Sys2Proof.Laws
end

