-- ==== Sys2Proof/Laws/State.lean ====
section
/-! SUPPORT. What each update of the state leaves, one lemma for each field and update, and what it makes the part that it
updates read as. -/

namespace Sys2Proof.Laws

open Sys2Proof.Machine

@[simp] theorem wr_pending (s : State) (r : Rg) (v : Reg24) : (wr s r v).pending = s.pending := rfl
@[simp] theorem wr_clock (s : State) (r : Rg) (v : Reg24) : (wr s r v).clock = s.clock := rfl
@[simp] theorem wr_free (s : State) (r : Rg) (v : Reg24) : (wr s r v).free = s.free := rfl
@[simp] theorem wr_sent (s : State) (r : Rg) (v : Reg24) : (wr s r v).sent = s.sent := rfl
@[simp] theorem wr_rwsDone (s : State) (r : Rg) (v : Reg24) : (wr s r v).rwsDone = s.rwsDone := rfl
@[simp] theorem wr_pwr (s : State) (r : Rg) (v : Reg24) : (wr s r v).pwr = s.pwr := rfl
@[simp] theorem wr_modes (s : State) (r : Rg) (v : Reg24) : (wr s r v).modes = s.modes := rfl
@[simp] theorem wr_mem (s : State) (r : Rg) (v : Reg24) : (wr s r v).mem = s.mem := rfl
@[simp] theorem wr_frames (s : State) (r : Rg) (v : Reg24) : (wr s r v).frames = s.frames := rfl
@[simp] theorem wr_store (s : State) (r : Rg) (v : Reg24) : (wr s r v).store = s.store := rfl
@[simp] theorem wr_handovers (s : State) (r : Rg) (v : Reg24) : (wr s r v).handovers = s.handovers := rfl
@[simp] theorem wr_ctxs (s : State) (r : Rg) (v : Reg24) : (wr s r v).ctxs = s.ctxs := rfl
@[simp] theorem wr_cores (s : State) (r : Rg) (v : Reg24) : (wr s r v).cores = s.cores := rfl
@[simp] theorem wr_caps (s : State) (r : Rg) (v : Reg24) : (wr s r v).caps = s.caps := rfl
@[simp] theorem wr_checkpoint (s : State) (r : Rg) (v : Reg24) : (wr s r v).checkpoint = s.checkpoint := rfl
@[simp] theorem wr_rollbacks (s : State) (r : Rg) (v : Reg24) : (wr s r v).rollbacks = s.rollbacks := rfl
@[simp] theorem wr_splices (s : State) (r : Rg) (v : Reg24) : (wr s r v).splices = s.splices := rfl
@[simp] theorem wr_events (s : State) (r : Rg) (v : Reg24) : (wr s r v).events = s.events := rfl
@[simp] theorem wr_timers (s : State) (r : Rg) (v : Reg24) : (wr s r v).timers = s.timers := rfl
@[simp] theorem wr_lanes (s : State) (r : Rg) (v : Reg24) : (wr s r v).lanes = s.lanes := rfl
@[simp] theorem wr_rxSince (s : State) (r : Rg) (v : Reg24) : (wr s r v).rxSince = s.rxSince := rfl
@[simp] theorem wr_dogs (s : State) (r : Rg) (v : Reg24) : (wr s r v).dogs = s.dogs := rfl
@[simp] theorem wr_hosts (s : State) (r : Rg) (v : Reg24) : (wr s r v).hosts = s.hosts := rfl
@[simp] theorem wr_hostQueue (s : State) (r : Rg) (v : Reg24) : (wr s r v).hostQueue = s.hostQueue := rfl
@[simp] theorem wr_can (s : State) (r : Rg) (v : Reg24) : (wr s r v).can = s.can := rfl
@[simp] theorem wr_od (s : State) (r : Rg) (v : Reg24) : (wr s r v).od = s.od := rfl
@[simp] theorem wr_odBase (s : State) (r : Rg) (v : Reg24) : (wr s r v).odBase = s.odBase := rfl
@[simp] theorem wr_inForce (s : State) (r : Rg) (v : Reg24) : (wr s r v).inForce = s.inForce := rfl
@[simp] theorem wr_flash (s : State) (r : Rg) (v : Reg24) : (wr s r v).flash = s.flash := rfl
@[simp] theorem wr_fuses (s : State) (r : Rg) (v : Reg24) : (wr s r v).fuses = s.fuses := rfl
@[simp] theorem wr_fw (s : State) (r : Rg) (v : Reg24) : (wr s r v).fw = s.fw := rfl
@[simp] theorem wr_dbg (s : State) (r : Rg) (v : Reg24) : (wr s r v).dbg = s.dbg := rfl

@[simp] theorem wrF_pending (s : State) {n : Nat} (r : Rg) (i : Nat) (x : BitVec n) : (wrF s r i x).pending = s.pending := rfl
@[simp] theorem wrF_clock (s : State) {n : Nat} (r : Rg) (i : Nat) (x : BitVec n) : (wrF s r i x).clock = s.clock := rfl
@[simp] theorem wrF_free (s : State) {n : Nat} (r : Rg) (i : Nat) (x : BitVec n) : (wrF s r i x).free = s.free := rfl
@[simp] theorem wrF_sent (s : State) {n : Nat} (r : Rg) (i : Nat) (x : BitVec n) : (wrF s r i x).sent = s.sent := rfl
@[simp] theorem wrF_rwsDone (s : State) {n : Nat} (r : Rg) (i : Nat) (x : BitVec n) : (wrF s r i x).rwsDone = s.rwsDone := rfl
@[simp] theorem wrF_pwr (s : State) {n : Nat} (r : Rg) (i : Nat) (x : BitVec n) : (wrF s r i x).pwr = s.pwr := rfl
@[simp] theorem wrF_modes (s : State) {n : Nat} (r : Rg) (i : Nat) (x : BitVec n) : (wrF s r i x).modes = s.modes := rfl
@[simp] theorem wrF_mem (s : State) {n : Nat} (r : Rg) (i : Nat) (x : BitVec n) : (wrF s r i x).mem = s.mem := rfl
@[simp] theorem wrF_frames (s : State) {n : Nat} (r : Rg) (i : Nat) (x : BitVec n) : (wrF s r i x).frames = s.frames := rfl
@[simp] theorem wrF_store (s : State) {n : Nat} (r : Rg) (i : Nat) (x : BitVec n) : (wrF s r i x).store = s.store := rfl
@[simp] theorem wrF_handovers (s : State) {n : Nat} (r : Rg) (i : Nat) (x : BitVec n) : (wrF s r i x).handovers = s.handovers := rfl
@[simp] theorem wrF_ctxs (s : State) {n : Nat} (r : Rg) (i : Nat) (x : BitVec n) : (wrF s r i x).ctxs = s.ctxs := rfl
@[simp] theorem wrF_cores (s : State) {n : Nat} (r : Rg) (i : Nat) (x : BitVec n) : (wrF s r i x).cores = s.cores := rfl
@[simp] theorem wrF_caps (s : State) {n : Nat} (r : Rg) (i : Nat) (x : BitVec n) : (wrF s r i x).caps = s.caps := rfl
@[simp] theorem wrF_checkpoint (s : State) {n : Nat} (r : Rg) (i : Nat) (x : BitVec n) : (wrF s r i x).checkpoint = s.checkpoint := rfl
@[simp] theorem wrF_rollbacks (s : State) {n : Nat} (r : Rg) (i : Nat) (x : BitVec n) : (wrF s r i x).rollbacks = s.rollbacks := rfl
@[simp] theorem wrF_splices (s : State) {n : Nat} (r : Rg) (i : Nat) (x : BitVec n) : (wrF s r i x).splices = s.splices := rfl
@[simp] theorem wrF_events (s : State) {n : Nat} (r : Rg) (i : Nat) (x : BitVec n) : (wrF s r i x).events = s.events := rfl
@[simp] theorem wrF_timers (s : State) {n : Nat} (r : Rg) (i : Nat) (x : BitVec n) : (wrF s r i x).timers = s.timers := rfl
@[simp] theorem wrF_lanes (s : State) {n : Nat} (r : Rg) (i : Nat) (x : BitVec n) : (wrF s r i x).lanes = s.lanes := rfl
@[simp] theorem wrF_rxSince (s : State) {n : Nat} (r : Rg) (i : Nat) (x : BitVec n) : (wrF s r i x).rxSince = s.rxSince := rfl
@[simp] theorem wrF_dogs (s : State) {n : Nat} (r : Rg) (i : Nat) (x : BitVec n) : (wrF s r i x).dogs = s.dogs := rfl
@[simp] theorem wrF_hosts (s : State) {n : Nat} (r : Rg) (i : Nat) (x : BitVec n) : (wrF s r i x).hosts = s.hosts := rfl
@[simp] theorem wrF_hostQueue (s : State) {n : Nat} (r : Rg) (i : Nat) (x : BitVec n) : (wrF s r i x).hostQueue = s.hostQueue := rfl
@[simp] theorem wrF_can (s : State) {n : Nat} (r : Rg) (i : Nat) (x : BitVec n) : (wrF s r i x).can = s.can := rfl
@[simp] theorem wrF_od (s : State) {n : Nat} (r : Rg) (i : Nat) (x : BitVec n) : (wrF s r i x).od = s.od := rfl
@[simp] theorem wrF_odBase (s : State) {n : Nat} (r : Rg) (i : Nat) (x : BitVec n) : (wrF s r i x).odBase = s.odBase := rfl
@[simp] theorem wrF_inForce (s : State) {n : Nat} (r : Rg) (i : Nat) (x : BitVec n) : (wrF s r i x).inForce = s.inForce := rfl
@[simp] theorem wrF_flash (s : State) {n : Nat} (r : Rg) (i : Nat) (x : BitVec n) : (wrF s r i x).flash = s.flash := rfl
@[simp] theorem wrF_fuses (s : State) {n : Nat} (r : Rg) (i : Nat) (x : BitVec n) : (wrF s r i x).fuses = s.fuses := rfl
@[simp] theorem wrF_fw (s : State) {n : Nat} (r : Rg) (i : Nat) (x : BitVec n) : (wrF s r i x).fw = s.fw := rfl
@[simp] theorem wrF_dbg (s : State) {n : Nat} (r : Rg) (i : Nat) (x : BitVec n) : (wrF s r i x).dbg = s.dbg := rfl

@[simp] theorem wrB_pending (s : State) (r : Rg) (i : Nat) (b : Bool) : (wrB s r i b).pending = s.pending := rfl
@[simp] theorem wrB_clock (s : State) (r : Rg) (i : Nat) (b : Bool) : (wrB s r i b).clock = s.clock := rfl
@[simp] theorem wrB_free (s : State) (r : Rg) (i : Nat) (b : Bool) : (wrB s r i b).free = s.free := rfl
@[simp] theorem wrB_sent (s : State) (r : Rg) (i : Nat) (b : Bool) : (wrB s r i b).sent = s.sent := rfl
@[simp] theorem wrB_rwsDone (s : State) (r : Rg) (i : Nat) (b : Bool) : (wrB s r i b).rwsDone = s.rwsDone := rfl
@[simp] theorem wrB_pwr (s : State) (r : Rg) (i : Nat) (b : Bool) : (wrB s r i b).pwr = s.pwr := rfl
@[simp] theorem wrB_modes (s : State) (r : Rg) (i : Nat) (b : Bool) : (wrB s r i b).modes = s.modes := rfl
@[simp] theorem wrB_mem (s : State) (r : Rg) (i : Nat) (b : Bool) : (wrB s r i b).mem = s.mem := rfl
@[simp] theorem wrB_frames (s : State) (r : Rg) (i : Nat) (b : Bool) : (wrB s r i b).frames = s.frames := rfl
@[simp] theorem wrB_store (s : State) (r : Rg) (i : Nat) (b : Bool) : (wrB s r i b).store = s.store := rfl
@[simp] theorem wrB_handovers (s : State) (r : Rg) (i : Nat) (b : Bool) : (wrB s r i b).handovers = s.handovers := rfl
@[simp] theorem wrB_ctxs (s : State) (r : Rg) (i : Nat) (b : Bool) : (wrB s r i b).ctxs = s.ctxs := rfl
@[simp] theorem wrB_cores (s : State) (r : Rg) (i : Nat) (b : Bool) : (wrB s r i b).cores = s.cores := rfl
@[simp] theorem wrB_caps (s : State) (r : Rg) (i : Nat) (b : Bool) : (wrB s r i b).caps = s.caps := rfl
@[simp] theorem wrB_checkpoint (s : State) (r : Rg) (i : Nat) (b : Bool) : (wrB s r i b).checkpoint = s.checkpoint := rfl
@[simp] theorem wrB_rollbacks (s : State) (r : Rg) (i : Nat) (b : Bool) : (wrB s r i b).rollbacks = s.rollbacks := rfl
@[simp] theorem wrB_splices (s : State) (r : Rg) (i : Nat) (b : Bool) : (wrB s r i b).splices = s.splices := rfl
@[simp] theorem wrB_events (s : State) (r : Rg) (i : Nat) (b : Bool) : (wrB s r i b).events = s.events := rfl
@[simp] theorem wrB_timers (s : State) (r : Rg) (i : Nat) (b : Bool) : (wrB s r i b).timers = s.timers := rfl
@[simp] theorem wrB_lanes (s : State) (r : Rg) (i : Nat) (b : Bool) : (wrB s r i b).lanes = s.lanes := rfl
@[simp] theorem wrB_rxSince (s : State) (r : Rg) (i : Nat) (b : Bool) : (wrB s r i b).rxSince = s.rxSince := rfl
@[simp] theorem wrB_dogs (s : State) (r : Rg) (i : Nat) (b : Bool) : (wrB s r i b).dogs = s.dogs := rfl
@[simp] theorem wrB_hosts (s : State) (r : Rg) (i : Nat) (b : Bool) : (wrB s r i b).hosts = s.hosts := rfl
@[simp] theorem wrB_hostQueue (s : State) (r : Rg) (i : Nat) (b : Bool) : (wrB s r i b).hostQueue = s.hostQueue := rfl
@[simp] theorem wrB_can (s : State) (r : Rg) (i : Nat) (b : Bool) : (wrB s r i b).can = s.can := rfl
@[simp] theorem wrB_od (s : State) (r : Rg) (i : Nat) (b : Bool) : (wrB s r i b).od = s.od := rfl
@[simp] theorem wrB_odBase (s : State) (r : Rg) (i : Nat) (b : Bool) : (wrB s r i b).odBase = s.odBase := rfl
@[simp] theorem wrB_inForce (s : State) (r : Rg) (i : Nat) (b : Bool) : (wrB s r i b).inForce = s.inForce := rfl
@[simp] theorem wrB_flash (s : State) (r : Rg) (i : Nat) (b : Bool) : (wrB s r i b).flash = s.flash := rfl
@[simp] theorem wrB_fuses (s : State) (r : Rg) (i : Nat) (b : Bool) : (wrB s r i b).fuses = s.fuses := rfl
@[simp] theorem wrB_fw (s : State) (r : Rg) (i : Nat) (b : Bool) : (wrB s r i b).fw = s.fw := rfl
@[simp] theorem wrB_dbg (s : State) (r : Rg) (i : Nat) (b : Bool) : (wrB s r i b).dbg = s.dbg := rfl

@[simp] theorem bumpF_pending (s : State) (r : Rg) (i n k : Nat) : (bumpF s r i n k).pending = s.pending := rfl
@[simp] theorem bumpF_clock (s : State) (r : Rg) (i n k : Nat) : (bumpF s r i n k).clock = s.clock := rfl
@[simp] theorem bumpF_free (s : State) (r : Rg) (i n k : Nat) : (bumpF s r i n k).free = s.free := rfl
@[simp] theorem bumpF_sent (s : State) (r : Rg) (i n k : Nat) : (bumpF s r i n k).sent = s.sent := rfl
@[simp] theorem bumpF_rwsDone (s : State) (r : Rg) (i n k : Nat) : (bumpF s r i n k).rwsDone = s.rwsDone := rfl
@[simp] theorem bumpF_pwr (s : State) (r : Rg) (i n k : Nat) : (bumpF s r i n k).pwr = s.pwr := rfl
@[simp] theorem bumpF_modes (s : State) (r : Rg) (i n k : Nat) : (bumpF s r i n k).modes = s.modes := rfl
@[simp] theorem bumpF_mem (s : State) (r : Rg) (i n k : Nat) : (bumpF s r i n k).mem = s.mem := rfl
@[simp] theorem bumpF_frames (s : State) (r : Rg) (i n k : Nat) : (bumpF s r i n k).frames = s.frames := rfl
@[simp] theorem bumpF_store (s : State) (r : Rg) (i n k : Nat) : (bumpF s r i n k).store = s.store := rfl
@[simp] theorem bumpF_handovers (s : State) (r : Rg) (i n k : Nat) : (bumpF s r i n k).handovers = s.handovers := rfl
@[simp] theorem bumpF_ctxs (s : State) (r : Rg) (i n k : Nat) : (bumpF s r i n k).ctxs = s.ctxs := rfl
@[simp] theorem bumpF_cores (s : State) (r : Rg) (i n k : Nat) : (bumpF s r i n k).cores = s.cores := rfl
@[simp] theorem bumpF_caps (s : State) (r : Rg) (i n k : Nat) : (bumpF s r i n k).caps = s.caps := rfl
@[simp] theorem bumpF_checkpoint (s : State) (r : Rg) (i n k : Nat) : (bumpF s r i n k).checkpoint = s.checkpoint := rfl
@[simp] theorem bumpF_rollbacks (s : State) (r : Rg) (i n k : Nat) : (bumpF s r i n k).rollbacks = s.rollbacks := rfl
@[simp] theorem bumpF_splices (s : State) (r : Rg) (i n k : Nat) : (bumpF s r i n k).splices = s.splices := rfl
@[simp] theorem bumpF_events (s : State) (r : Rg) (i n k : Nat) : (bumpF s r i n k).events = s.events := rfl
@[simp] theorem bumpF_timers (s : State) (r : Rg) (i n k : Nat) : (bumpF s r i n k).timers = s.timers := rfl
@[simp] theorem bumpF_lanes (s : State) (r : Rg) (i n k : Nat) : (bumpF s r i n k).lanes = s.lanes := rfl
@[simp] theorem bumpF_rxSince (s : State) (r : Rg) (i n k : Nat) : (bumpF s r i n k).rxSince = s.rxSince := rfl
@[simp] theorem bumpF_dogs (s : State) (r : Rg) (i n k : Nat) : (bumpF s r i n k).dogs = s.dogs := rfl
@[simp] theorem bumpF_hosts (s : State) (r : Rg) (i n k : Nat) : (bumpF s r i n k).hosts = s.hosts := rfl
@[simp] theorem bumpF_hostQueue (s : State) (r : Rg) (i n k : Nat) : (bumpF s r i n k).hostQueue = s.hostQueue := rfl
@[simp] theorem bumpF_can (s : State) (r : Rg) (i n k : Nat) : (bumpF s r i n k).can = s.can := rfl
@[simp] theorem bumpF_od (s : State) (r : Rg) (i n k : Nat) : (bumpF s r i n k).od = s.od := rfl
@[simp] theorem bumpF_odBase (s : State) (r : Rg) (i n k : Nat) : (bumpF s r i n k).odBase = s.odBase := rfl
@[simp] theorem bumpF_inForce (s : State) (r : Rg) (i n k : Nat) : (bumpF s r i n k).inForce = s.inForce := rfl
@[simp] theorem bumpF_flash (s : State) (r : Rg) (i n k : Nat) : (bumpF s r i n k).flash = s.flash := rfl
@[simp] theorem bumpF_fuses (s : State) (r : Rg) (i n k : Nat) : (bumpF s r i n k).fuses = s.fuses := rfl
@[simp] theorem bumpF_fw (s : State) (r : Rg) (i n k : Nat) : (bumpF s r i n k).fw = s.fw := rfl
@[simp] theorem bumpF_dbg (s : State) (r : Rg) (i n k : Nat) : (bumpF s r i n k).dbg = s.dbg := rfl

@[simp] theorem send_pending (s : State) (m : Msg) : (send s m).pending = s.pending := rfl
@[simp] theorem send_clock (s : State) (m : Msg) : (send s m).clock = s.clock := rfl
@[simp] theorem send_free (s : State) (m : Msg) : (send s m).free = s.free := rfl
@[simp] theorem send_regs (s : State) (m : Msg) : (send s m).regs = s.regs := rfl
@[simp] theorem send_rwsDone (s : State) (m : Msg) : (send s m).rwsDone = s.rwsDone := rfl
@[simp] theorem send_pwr (s : State) (m : Msg) : (send s m).pwr = s.pwr := rfl
@[simp] theorem send_modes (s : State) (m : Msg) : (send s m).modes = s.modes := rfl
@[simp] theorem send_mem (s : State) (m : Msg) : (send s m).mem = s.mem := rfl
@[simp] theorem send_frames (s : State) (m : Msg) : (send s m).frames = s.frames := rfl
@[simp] theorem send_store (s : State) (m : Msg) : (send s m).store = s.store := rfl
@[simp] theorem send_handovers (s : State) (m : Msg) : (send s m).handovers = s.handovers := rfl
@[simp] theorem send_ctxs (s : State) (m : Msg) : (send s m).ctxs = s.ctxs := rfl
@[simp] theorem send_cores (s : State) (m : Msg) : (send s m).cores = s.cores := rfl
@[simp] theorem send_caps (s : State) (m : Msg) : (send s m).caps = s.caps := rfl
@[simp] theorem send_checkpoint (s : State) (m : Msg) : (send s m).checkpoint = s.checkpoint := rfl
@[simp] theorem send_rollbacks (s : State) (m : Msg) : (send s m).rollbacks = s.rollbacks := rfl
@[simp] theorem send_splices (s : State) (m : Msg) : (send s m).splices = s.splices := rfl
@[simp] theorem send_events (s : State) (m : Msg) : (send s m).events = s.events := rfl
@[simp] theorem send_timers (s : State) (m : Msg) : (send s m).timers = s.timers := rfl
@[simp] theorem send_lanes (s : State) (m : Msg) : (send s m).lanes = s.lanes := rfl
@[simp] theorem send_rxSince (s : State) (m : Msg) : (send s m).rxSince = s.rxSince := rfl
@[simp] theorem send_dogs (s : State) (m : Msg) : (send s m).dogs = s.dogs := rfl
@[simp] theorem send_hosts (s : State) (m : Msg) : (send s m).hosts = s.hosts := rfl
@[simp] theorem send_hostQueue (s : State) (m : Msg) : (send s m).hostQueue = s.hostQueue := rfl
@[simp] theorem send_can (s : State) (m : Msg) : (send s m).can = s.can := rfl
@[simp] theorem send_od (s : State) (m : Msg) : (send s m).od = s.od := rfl
@[simp] theorem send_odBase (s : State) (m : Msg) : (send s m).odBase = s.odBase := rfl
@[simp] theorem send_inForce (s : State) (m : Msg) : (send s m).inForce = s.inForce := rfl
@[simp] theorem send_flash (s : State) (m : Msg) : (send s m).flash = s.flash := rfl
@[simp] theorem send_fuses (s : State) (m : Msg) : (send s m).fuses = s.fuses := rfl
@[simp] theorem send_fw (s : State) (m : Msg) : (send s m).fw = s.fw := rfl
@[simp] theorem send_dbg (s : State) (m : Msg) : (send s m).dbg = s.dbg := rfl

@[simp] theorem sendCan_pending (s : State) (m : Msg) : (sendCan s m).pending = s.pending := by unfold sendCan; split <;> rfl
@[simp] theorem sendCan_clock (s : State) (m : Msg) : (sendCan s m).clock = s.clock := by unfold sendCan; split <;> rfl
@[simp] theorem sendCan_free (s : State) (m : Msg) : (sendCan s m).free = s.free := by unfold sendCan; split <;> rfl
@[simp] theorem sendCan_regs (s : State) (m : Msg) : (sendCan s m).regs = s.regs := by unfold sendCan; split <;> rfl
@[simp] theorem sendCan_rwsDone (s : State) (m : Msg) : (sendCan s m).rwsDone = s.rwsDone := by unfold sendCan; split <;> rfl
@[simp] theorem sendCan_pwr (s : State) (m : Msg) : (sendCan s m).pwr = s.pwr := by unfold sendCan; split <;> rfl
@[simp] theorem sendCan_modes (s : State) (m : Msg) : (sendCan s m).modes = s.modes := by unfold sendCan; split <;> rfl
@[simp] theorem sendCan_mem (s : State) (m : Msg) : (sendCan s m).mem = s.mem := by unfold sendCan; split <;> rfl
@[simp] theorem sendCan_frames (s : State) (m : Msg) : (sendCan s m).frames = s.frames := by unfold sendCan; split <;> rfl
@[simp] theorem sendCan_store (s : State) (m : Msg) : (sendCan s m).store = s.store := by unfold sendCan; split <;> rfl
@[simp] theorem sendCan_handovers (s : State) (m : Msg) : (sendCan s m).handovers = s.handovers := by unfold sendCan; split <;> rfl
@[simp] theorem sendCan_ctxs (s : State) (m : Msg) : (sendCan s m).ctxs = s.ctxs := by unfold sendCan; split <;> rfl
@[simp] theorem sendCan_cores (s : State) (m : Msg) : (sendCan s m).cores = s.cores := by unfold sendCan; split <;> rfl
@[simp] theorem sendCan_caps (s : State) (m : Msg) : (sendCan s m).caps = s.caps := by unfold sendCan; split <;> rfl
@[simp] theorem sendCan_checkpoint (s : State) (m : Msg) : (sendCan s m).checkpoint = s.checkpoint := by unfold sendCan; split <;> rfl
@[simp] theorem sendCan_rollbacks (s : State) (m : Msg) : (sendCan s m).rollbacks = s.rollbacks := by unfold sendCan; split <;> rfl
@[simp] theorem sendCan_splices (s : State) (m : Msg) : (sendCan s m).splices = s.splices := by unfold sendCan; split <;> rfl
@[simp] theorem sendCan_events (s : State) (m : Msg) : (sendCan s m).events = s.events := by unfold sendCan; split <;> rfl
@[simp] theorem sendCan_timers (s : State) (m : Msg) : (sendCan s m).timers = s.timers := by unfold sendCan; split <;> rfl
@[simp] theorem sendCan_lanes (s : State) (m : Msg) : (sendCan s m).lanes = s.lanes := by unfold sendCan; split <;> rfl
@[simp] theorem sendCan_rxSince (s : State) (m : Msg) : (sendCan s m).rxSince = s.rxSince := by unfold sendCan; split <;> rfl
@[simp] theorem sendCan_dogs (s : State) (m : Msg) : (sendCan s m).dogs = s.dogs := by unfold sendCan; split <;> rfl
@[simp] theorem sendCan_hosts (s : State) (m : Msg) : (sendCan s m).hosts = s.hosts := by unfold sendCan; split <;> rfl
@[simp] theorem sendCan_hostQueue (s : State) (m : Msg) : (sendCan s m).hostQueue = s.hostQueue := by unfold sendCan; split <;> rfl
@[simp] theorem sendCan_can (s : State) (m : Msg) : (sendCan s m).can = s.can := by unfold sendCan; split <;> rfl
@[simp] theorem sendCan_od (s : State) (m : Msg) : (sendCan s m).od = s.od := by unfold sendCan; split <;> rfl
@[simp] theorem sendCan_odBase (s : State) (m : Msg) : (sendCan s m).odBase = s.odBase := by unfold sendCan; split <;> rfl
@[simp] theorem sendCan_inForce (s : State) (m : Msg) : (sendCan s m).inForce = s.inForce := by unfold sendCan; split <;> rfl
@[simp] theorem sendCan_flash (s : State) (m : Msg) : (sendCan s m).flash = s.flash := by unfold sendCan; split <;> rfl
@[simp] theorem sendCan_fuses (s : State) (m : Msg) : (sendCan s m).fuses = s.fuses := by unfold sendCan; split <;> rfl
@[simp] theorem sendCan_fw (s : State) (m : Msg) : (sendCan s m).fw = s.fw := by unfold sendCan; split <;> rfl
@[simp] theorem sendCan_dbg (s : State) (m : Msg) : (sendCan s m).dbg = s.dbg := by unfold sendCan; split <;> rfl

@[simp] theorem setCtxAt_pending (s : State) (k : Nat) (x : Ctx) : (setCtxAt s k x).pending = s.pending := rfl
@[simp] theorem setCtxAt_clock (s : State) (k : Nat) (x : Ctx) : (setCtxAt s k x).clock = s.clock := rfl
@[simp] theorem setCtxAt_free (s : State) (k : Nat) (x : Ctx) : (setCtxAt s k x).free = s.free := rfl
@[simp] theorem setCtxAt_sent (s : State) (k : Nat) (x : Ctx) : (setCtxAt s k x).sent = s.sent := rfl
@[simp] theorem setCtxAt_regs (s : State) (k : Nat) (x : Ctx) : (setCtxAt s k x).regs = s.regs := rfl
@[simp] theorem setCtxAt_rwsDone (s : State) (k : Nat) (x : Ctx) : (setCtxAt s k x).rwsDone = s.rwsDone := rfl
@[simp] theorem setCtxAt_pwr (s : State) (k : Nat) (x : Ctx) : (setCtxAt s k x).pwr = s.pwr := rfl
@[simp] theorem setCtxAt_modes (s : State) (k : Nat) (x : Ctx) : (setCtxAt s k x).modes = s.modes := rfl
@[simp] theorem setCtxAt_mem (s : State) (k : Nat) (x : Ctx) : (setCtxAt s k x).mem = s.mem := rfl
@[simp] theorem setCtxAt_frames (s : State) (k : Nat) (x : Ctx) : (setCtxAt s k x).frames = s.frames := rfl
@[simp] theorem setCtxAt_store (s : State) (k : Nat) (x : Ctx) : (setCtxAt s k x).store = s.store := rfl
@[simp] theorem setCtxAt_handovers (s : State) (k : Nat) (x : Ctx) : (setCtxAt s k x).handovers = s.handovers := rfl
@[simp] theorem setCtxAt_cores (s : State) (k : Nat) (x : Ctx) : (setCtxAt s k x).cores = s.cores := rfl
@[simp] theorem setCtxAt_caps (s : State) (k : Nat) (x : Ctx) : (setCtxAt s k x).caps = s.caps := rfl
@[simp] theorem setCtxAt_checkpoint (s : State) (k : Nat) (x : Ctx) : (setCtxAt s k x).checkpoint = s.checkpoint := rfl
@[simp] theorem setCtxAt_rollbacks (s : State) (k : Nat) (x : Ctx) : (setCtxAt s k x).rollbacks = s.rollbacks := rfl
@[simp] theorem setCtxAt_splices (s : State) (k : Nat) (x : Ctx) : (setCtxAt s k x).splices = s.splices := rfl
@[simp] theorem setCtxAt_events (s : State) (k : Nat) (x : Ctx) : (setCtxAt s k x).events = s.events := rfl
@[simp] theorem setCtxAt_timers (s : State) (k : Nat) (x : Ctx) : (setCtxAt s k x).timers = s.timers := rfl
@[simp] theorem setCtxAt_lanes (s : State) (k : Nat) (x : Ctx) : (setCtxAt s k x).lanes = s.lanes := rfl
@[simp] theorem setCtxAt_rxSince (s : State) (k : Nat) (x : Ctx) : (setCtxAt s k x).rxSince = s.rxSince := rfl
@[simp] theorem setCtxAt_dogs (s : State) (k : Nat) (x : Ctx) : (setCtxAt s k x).dogs = s.dogs := rfl
@[simp] theorem setCtxAt_hosts (s : State) (k : Nat) (x : Ctx) : (setCtxAt s k x).hosts = s.hosts := rfl
@[simp] theorem setCtxAt_hostQueue (s : State) (k : Nat) (x : Ctx) : (setCtxAt s k x).hostQueue = s.hostQueue := rfl
@[simp] theorem setCtxAt_can (s : State) (k : Nat) (x : Ctx) : (setCtxAt s k x).can = s.can := rfl
@[simp] theorem setCtxAt_od (s : State) (k : Nat) (x : Ctx) : (setCtxAt s k x).od = s.od := rfl
@[simp] theorem setCtxAt_odBase (s : State) (k : Nat) (x : Ctx) : (setCtxAt s k x).odBase = s.odBase := rfl
@[simp] theorem setCtxAt_inForce (s : State) (k : Nat) (x : Ctx) : (setCtxAt s k x).inForce = s.inForce := rfl
@[simp] theorem setCtxAt_flash (s : State) (k : Nat) (x : Ctx) : (setCtxAt s k x).flash = s.flash := rfl
@[simp] theorem setCtxAt_fuses (s : State) (k : Nat) (x : Ctx) : (setCtxAt s k x).fuses = s.fuses := rfl
@[simp] theorem setCtxAt_fw (s : State) (k : Nat) (x : Ctx) : (setCtxAt s k x).fw = s.fw := rfl
@[simp] theorem setCtxAt_dbg (s : State) (k : Nat) (x : Ctx) : (setCtxAt s k x).dbg = s.dbg := rfl

@[simp] theorem setCtx_pending (s : State) (c : Nat) (x : Ctx) : (setCtx s c x).pending = s.pending := rfl
@[simp] theorem setCtx_clock (s : State) (c : Nat) (x : Ctx) : (setCtx s c x).clock = s.clock := rfl
@[simp] theorem setCtx_free (s : State) (c : Nat) (x : Ctx) : (setCtx s c x).free = s.free := rfl
@[simp] theorem setCtx_sent (s : State) (c : Nat) (x : Ctx) : (setCtx s c x).sent = s.sent := rfl
@[simp] theorem setCtx_regs (s : State) (c : Nat) (x : Ctx) : (setCtx s c x).regs = s.regs := rfl
@[simp] theorem setCtx_rwsDone (s : State) (c : Nat) (x : Ctx) : (setCtx s c x).rwsDone = s.rwsDone := rfl
@[simp] theorem setCtx_pwr (s : State) (c : Nat) (x : Ctx) : (setCtx s c x).pwr = s.pwr := rfl
@[simp] theorem setCtx_modes (s : State) (c : Nat) (x : Ctx) : (setCtx s c x).modes = s.modes := rfl
@[simp] theorem setCtx_mem (s : State) (c : Nat) (x : Ctx) : (setCtx s c x).mem = s.mem := rfl
@[simp] theorem setCtx_frames (s : State) (c : Nat) (x : Ctx) : (setCtx s c x).frames = s.frames := rfl
@[simp] theorem setCtx_store (s : State) (c : Nat) (x : Ctx) : (setCtx s c x).store = s.store := rfl
@[simp] theorem setCtx_handovers (s : State) (c : Nat) (x : Ctx) : (setCtx s c x).handovers = s.handovers := rfl
@[simp] theorem setCtx_cores (s : State) (c : Nat) (x : Ctx) : (setCtx s c x).cores = s.cores := rfl
@[simp] theorem setCtx_caps (s : State) (c : Nat) (x : Ctx) : (setCtx s c x).caps = s.caps := rfl
@[simp] theorem setCtx_checkpoint (s : State) (c : Nat) (x : Ctx) : (setCtx s c x).checkpoint = s.checkpoint := rfl
@[simp] theorem setCtx_rollbacks (s : State) (c : Nat) (x : Ctx) : (setCtx s c x).rollbacks = s.rollbacks := rfl
@[simp] theorem setCtx_splices (s : State) (c : Nat) (x : Ctx) : (setCtx s c x).splices = s.splices := rfl
@[simp] theorem setCtx_events (s : State) (c : Nat) (x : Ctx) : (setCtx s c x).events = s.events := rfl
@[simp] theorem setCtx_timers (s : State) (c : Nat) (x : Ctx) : (setCtx s c x).timers = s.timers := rfl
@[simp] theorem setCtx_lanes (s : State) (c : Nat) (x : Ctx) : (setCtx s c x).lanes = s.lanes := rfl
@[simp] theorem setCtx_rxSince (s : State) (c : Nat) (x : Ctx) : (setCtx s c x).rxSince = s.rxSince := rfl
@[simp] theorem setCtx_dogs (s : State) (c : Nat) (x : Ctx) : (setCtx s c x).dogs = s.dogs := rfl
@[simp] theorem setCtx_hosts (s : State) (c : Nat) (x : Ctx) : (setCtx s c x).hosts = s.hosts := rfl
@[simp] theorem setCtx_hostQueue (s : State) (c : Nat) (x : Ctx) : (setCtx s c x).hostQueue = s.hostQueue := rfl
@[simp] theorem setCtx_can (s : State) (c : Nat) (x : Ctx) : (setCtx s c x).can = s.can := rfl
@[simp] theorem setCtx_od (s : State) (c : Nat) (x : Ctx) : (setCtx s c x).od = s.od := rfl
@[simp] theorem setCtx_odBase (s : State) (c : Nat) (x : Ctx) : (setCtx s c x).odBase = s.odBase := rfl
@[simp] theorem setCtx_inForce (s : State) (c : Nat) (x : Ctx) : (setCtx s c x).inForce = s.inForce := rfl
@[simp] theorem setCtx_flash (s : State) (c : Nat) (x : Ctx) : (setCtx s c x).flash = s.flash := rfl
@[simp] theorem setCtx_fuses (s : State) (c : Nat) (x : Ctx) : (setCtx s c x).fuses = s.fuses := rfl
@[simp] theorem setCtx_fw (s : State) (c : Nat) (x : Ctx) : (setCtx s c x).fw = s.fw := rfl
@[simp] theorem setCtx_dbg (s : State) (c : Nat) (x : Ctx) : (setCtx s c x).dbg = s.dbg := rfl

@[simp] theorem setG_pending (s : State) (c n : Nat) (v : W48) : (setG s c n v).pending = s.pending := rfl
@[simp] theorem setG_clock (s : State) (c n : Nat) (v : W48) : (setG s c n v).clock = s.clock := rfl
@[simp] theorem setG_free (s : State) (c n : Nat) (v : W48) : (setG s c n v).free = s.free := rfl
@[simp] theorem setG_sent (s : State) (c n : Nat) (v : W48) : (setG s c n v).sent = s.sent := rfl
@[simp] theorem setG_regs (s : State) (c n : Nat) (v : W48) : (setG s c n v).regs = s.regs := rfl
@[simp] theorem setG_rwsDone (s : State) (c n : Nat) (v : W48) : (setG s c n v).rwsDone = s.rwsDone := rfl
@[simp] theorem setG_pwr (s : State) (c n : Nat) (v : W48) : (setG s c n v).pwr = s.pwr := rfl
@[simp] theorem setG_modes (s : State) (c n : Nat) (v : W48) : (setG s c n v).modes = s.modes := rfl
@[simp] theorem setG_mem (s : State) (c n : Nat) (v : W48) : (setG s c n v).mem = s.mem := rfl
@[simp] theorem setG_frames (s : State) (c n : Nat) (v : W48) : (setG s c n v).frames = s.frames := rfl
@[simp] theorem setG_store (s : State) (c n : Nat) (v : W48) : (setG s c n v).store = s.store := rfl
@[simp] theorem setG_handovers (s : State) (c n : Nat) (v : W48) : (setG s c n v).handovers = s.handovers := rfl
@[simp] theorem setG_cores (s : State) (c n : Nat) (v : W48) : (setG s c n v).cores = s.cores := rfl
@[simp] theorem setG_caps (s : State) (c n : Nat) (v : W48) : (setG s c n v).caps = s.caps := rfl
@[simp] theorem setG_checkpoint (s : State) (c n : Nat) (v : W48) : (setG s c n v).checkpoint = s.checkpoint := rfl
@[simp] theorem setG_rollbacks (s : State) (c n : Nat) (v : W48) : (setG s c n v).rollbacks = s.rollbacks := rfl
@[simp] theorem setG_splices (s : State) (c n : Nat) (v : W48) : (setG s c n v).splices = s.splices := rfl
@[simp] theorem setG_events (s : State) (c n : Nat) (v : W48) : (setG s c n v).events = s.events := rfl
@[simp] theorem setG_timers (s : State) (c n : Nat) (v : W48) : (setG s c n v).timers = s.timers := rfl
@[simp] theorem setG_lanes (s : State) (c n : Nat) (v : W48) : (setG s c n v).lanes = s.lanes := rfl
@[simp] theorem setG_rxSince (s : State) (c n : Nat) (v : W48) : (setG s c n v).rxSince = s.rxSince := rfl
@[simp] theorem setG_dogs (s : State) (c n : Nat) (v : W48) : (setG s c n v).dogs = s.dogs := rfl
@[simp] theorem setG_hosts (s : State) (c n : Nat) (v : W48) : (setG s c n v).hosts = s.hosts := rfl
@[simp] theorem setG_hostQueue (s : State) (c n : Nat) (v : W48) : (setG s c n v).hostQueue = s.hostQueue := rfl
@[simp] theorem setG_can (s : State) (c n : Nat) (v : W48) : (setG s c n v).can = s.can := rfl
@[simp] theorem setG_od (s : State) (c n : Nat) (v : W48) : (setG s c n v).od = s.od := rfl
@[simp] theorem setG_odBase (s : State) (c n : Nat) (v : W48) : (setG s c n v).odBase = s.odBase := rfl
@[simp] theorem setG_inForce (s : State) (c n : Nat) (v : W48) : (setG s c n v).inForce = s.inForce := rfl
@[simp] theorem setG_flash (s : State) (c n : Nat) (v : W48) : (setG s c n v).flash = s.flash := rfl
@[simp] theorem setG_fuses (s : State) (c n : Nat) (v : W48) : (setG s c n v).fuses = s.fuses := rfl
@[simp] theorem setG_fw (s : State) (c n : Nat) (v : W48) : (setG s c n v).fw = s.fw := rfl
@[simp] theorem setG_dbg (s : State) (c n : Nat) (v : W48) : (setG s c n v).dbg = s.dbg := rfl

@[simp] theorem setFr_pending (s : State) (c n : Nat) (v : W48) : (setFr s c n v).pending = s.pending := rfl
@[simp] theorem setFr_clock (s : State) (c n : Nat) (v : W48) : (setFr s c n v).clock = s.clock := rfl
@[simp] theorem setFr_free (s : State) (c n : Nat) (v : W48) : (setFr s c n v).free = s.free := rfl
@[simp] theorem setFr_sent (s : State) (c n : Nat) (v : W48) : (setFr s c n v).sent = s.sent := rfl
@[simp] theorem setFr_regs (s : State) (c n : Nat) (v : W48) : (setFr s c n v).regs = s.regs := rfl
@[simp] theorem setFr_rwsDone (s : State) (c n : Nat) (v : W48) : (setFr s c n v).rwsDone = s.rwsDone := rfl
@[simp] theorem setFr_pwr (s : State) (c n : Nat) (v : W48) : (setFr s c n v).pwr = s.pwr := rfl
@[simp] theorem setFr_modes (s : State) (c n : Nat) (v : W48) : (setFr s c n v).modes = s.modes := rfl
@[simp] theorem setFr_mem (s : State) (c n : Nat) (v : W48) : (setFr s c n v).mem = s.mem := rfl
@[simp] theorem setFr_frames (s : State) (c n : Nat) (v : W48) : (setFr s c n v).frames = s.frames := rfl
@[simp] theorem setFr_store (s : State) (c n : Nat) (v : W48) : (setFr s c n v).store = s.store := rfl
@[simp] theorem setFr_handovers (s : State) (c n : Nat) (v : W48) : (setFr s c n v).handovers = s.handovers := rfl
@[simp] theorem setFr_cores (s : State) (c n : Nat) (v : W48) : (setFr s c n v).cores = s.cores := rfl
@[simp] theorem setFr_caps (s : State) (c n : Nat) (v : W48) : (setFr s c n v).caps = s.caps := rfl
@[simp] theorem setFr_checkpoint (s : State) (c n : Nat) (v : W48) : (setFr s c n v).checkpoint = s.checkpoint := rfl
@[simp] theorem setFr_rollbacks (s : State) (c n : Nat) (v : W48) : (setFr s c n v).rollbacks = s.rollbacks := rfl
@[simp] theorem setFr_splices (s : State) (c n : Nat) (v : W48) : (setFr s c n v).splices = s.splices := rfl
@[simp] theorem setFr_events (s : State) (c n : Nat) (v : W48) : (setFr s c n v).events = s.events := rfl
@[simp] theorem setFr_timers (s : State) (c n : Nat) (v : W48) : (setFr s c n v).timers = s.timers := rfl
@[simp] theorem setFr_lanes (s : State) (c n : Nat) (v : W48) : (setFr s c n v).lanes = s.lanes := rfl
@[simp] theorem setFr_rxSince (s : State) (c n : Nat) (v : W48) : (setFr s c n v).rxSince = s.rxSince := rfl
@[simp] theorem setFr_dogs (s : State) (c n : Nat) (v : W48) : (setFr s c n v).dogs = s.dogs := rfl
@[simp] theorem setFr_hosts (s : State) (c n : Nat) (v : W48) : (setFr s c n v).hosts = s.hosts := rfl
@[simp] theorem setFr_hostQueue (s : State) (c n : Nat) (v : W48) : (setFr s c n v).hostQueue = s.hostQueue := rfl
@[simp] theorem setFr_can (s : State) (c n : Nat) (v : W48) : (setFr s c n v).can = s.can := rfl
@[simp] theorem setFr_od (s : State) (c n : Nat) (v : W48) : (setFr s c n v).od = s.od := rfl
@[simp] theorem setFr_odBase (s : State) (c n : Nat) (v : W48) : (setFr s c n v).odBase = s.odBase := rfl
@[simp] theorem setFr_inForce (s : State) (c n : Nat) (v : W48) : (setFr s c n v).inForce = s.inForce := rfl
@[simp] theorem setFr_flash (s : State) (c n : Nat) (v : W48) : (setFr s c n v).flash = s.flash := rfl
@[simp] theorem setFr_fuses (s : State) (c n : Nat) (v : W48) : (setFr s c n v).fuses = s.fuses := rfl
@[simp] theorem setFr_fw (s : State) (c n : Nat) (v : W48) : (setFr s c n v).fw = s.fw := rfl
@[simp] theorem setFr_dbg (s : State) (c n : Nat) (v : W48) : (setFr s c n v).dbg = s.dbg := rfl

@[simp] theorem setStw_pending (s : State) (c : Nat) (v : W48) : (setStw s c v).pending = s.pending := rfl
@[simp] theorem setStw_clock (s : State) (c : Nat) (v : W48) : (setStw s c v).clock = s.clock := rfl
@[simp] theorem setStw_free (s : State) (c : Nat) (v : W48) : (setStw s c v).free = s.free := rfl
@[simp] theorem setStw_sent (s : State) (c : Nat) (v : W48) : (setStw s c v).sent = s.sent := rfl
@[simp] theorem setStw_regs (s : State) (c : Nat) (v : W48) : (setStw s c v).regs = s.regs := rfl
@[simp] theorem setStw_rwsDone (s : State) (c : Nat) (v : W48) : (setStw s c v).rwsDone = s.rwsDone := rfl
@[simp] theorem setStw_pwr (s : State) (c : Nat) (v : W48) : (setStw s c v).pwr = s.pwr := rfl
@[simp] theorem setStw_modes (s : State) (c : Nat) (v : W48) : (setStw s c v).modes = s.modes := rfl
@[simp] theorem setStw_mem (s : State) (c : Nat) (v : W48) : (setStw s c v).mem = s.mem := rfl
@[simp] theorem setStw_frames (s : State) (c : Nat) (v : W48) : (setStw s c v).frames = s.frames := rfl
@[simp] theorem setStw_store (s : State) (c : Nat) (v : W48) : (setStw s c v).store = s.store := rfl
@[simp] theorem setStw_handovers (s : State) (c : Nat) (v : W48) : (setStw s c v).handovers = s.handovers := rfl
@[simp] theorem setStw_cores (s : State) (c : Nat) (v : W48) : (setStw s c v).cores = s.cores := rfl
@[simp] theorem setStw_caps (s : State) (c : Nat) (v : W48) : (setStw s c v).caps = s.caps := rfl
@[simp] theorem setStw_checkpoint (s : State) (c : Nat) (v : W48) : (setStw s c v).checkpoint = s.checkpoint := rfl
@[simp] theorem setStw_rollbacks (s : State) (c : Nat) (v : W48) : (setStw s c v).rollbacks = s.rollbacks := rfl
@[simp] theorem setStw_splices (s : State) (c : Nat) (v : W48) : (setStw s c v).splices = s.splices := rfl
@[simp] theorem setStw_events (s : State) (c : Nat) (v : W48) : (setStw s c v).events = s.events := rfl
@[simp] theorem setStw_timers (s : State) (c : Nat) (v : W48) : (setStw s c v).timers = s.timers := rfl
@[simp] theorem setStw_lanes (s : State) (c : Nat) (v : W48) : (setStw s c v).lanes = s.lanes := rfl
@[simp] theorem setStw_rxSince (s : State) (c : Nat) (v : W48) : (setStw s c v).rxSince = s.rxSince := rfl
@[simp] theorem setStw_dogs (s : State) (c : Nat) (v : W48) : (setStw s c v).dogs = s.dogs := rfl
@[simp] theorem setStw_hosts (s : State) (c : Nat) (v : W48) : (setStw s c v).hosts = s.hosts := rfl
@[simp] theorem setStw_hostQueue (s : State) (c : Nat) (v : W48) : (setStw s c v).hostQueue = s.hostQueue := rfl
@[simp] theorem setStw_can (s : State) (c : Nat) (v : W48) : (setStw s c v).can = s.can := rfl
@[simp] theorem setStw_od (s : State) (c : Nat) (v : W48) : (setStw s c v).od = s.od := rfl
@[simp] theorem setStw_odBase (s : State) (c : Nat) (v : W48) : (setStw s c v).odBase = s.odBase := rfl
@[simp] theorem setStw_inForce (s : State) (c : Nat) (v : W48) : (setStw s c v).inForce = s.inForce := rfl
@[simp] theorem setStw_flash (s : State) (c : Nat) (v : W48) : (setStw s c v).flash = s.flash := rfl
@[simp] theorem setStw_fuses (s : State) (c : Nat) (v : W48) : (setStw s c v).fuses = s.fuses := rfl
@[simp] theorem setStw_fw (s : State) (c : Nat) (v : W48) : (setStw s c v).fw = s.fw := rfl
@[simp] theorem setStw_dbg (s : State) (c : Nat) (v : W48) : (setStw s c v).dbg = s.dbg := rfl

@[simp] theorem setPc_pending (s : State) (c : Nat) (a : Addr) : (setPc s c a).pending = s.pending := rfl
@[simp] theorem setPc_clock (s : State) (c : Nat) (a : Addr) : (setPc s c a).clock = s.clock := rfl
@[simp] theorem setPc_free (s : State) (c : Nat) (a : Addr) : (setPc s c a).free = s.free := rfl
@[simp] theorem setPc_sent (s : State) (c : Nat) (a : Addr) : (setPc s c a).sent = s.sent := rfl
@[simp] theorem setPc_regs (s : State) (c : Nat) (a : Addr) : (setPc s c a).regs = s.regs := rfl
@[simp] theorem setPc_rwsDone (s : State) (c : Nat) (a : Addr) : (setPc s c a).rwsDone = s.rwsDone := rfl
@[simp] theorem setPc_pwr (s : State) (c : Nat) (a : Addr) : (setPc s c a).pwr = s.pwr := rfl
@[simp] theorem setPc_modes (s : State) (c : Nat) (a : Addr) : (setPc s c a).modes = s.modes := rfl
@[simp] theorem setPc_mem (s : State) (c : Nat) (a : Addr) : (setPc s c a).mem = s.mem := rfl
@[simp] theorem setPc_frames (s : State) (c : Nat) (a : Addr) : (setPc s c a).frames = s.frames := rfl
@[simp] theorem setPc_store (s : State) (c : Nat) (a : Addr) : (setPc s c a).store = s.store := rfl
@[simp] theorem setPc_handovers (s : State) (c : Nat) (a : Addr) : (setPc s c a).handovers = s.handovers := rfl
@[simp] theorem setPc_cores (s : State) (c : Nat) (a : Addr) : (setPc s c a).cores = s.cores := rfl
@[simp] theorem setPc_caps (s : State) (c : Nat) (a : Addr) : (setPc s c a).caps = s.caps := rfl
@[simp] theorem setPc_checkpoint (s : State) (c : Nat) (a : Addr) : (setPc s c a).checkpoint = s.checkpoint := rfl
@[simp] theorem setPc_rollbacks (s : State) (c : Nat) (a : Addr) : (setPc s c a).rollbacks = s.rollbacks := rfl
@[simp] theorem setPc_splices (s : State) (c : Nat) (a : Addr) : (setPc s c a).splices = s.splices := rfl
@[simp] theorem setPc_events (s : State) (c : Nat) (a : Addr) : (setPc s c a).events = s.events := rfl
@[simp] theorem setPc_timers (s : State) (c : Nat) (a : Addr) : (setPc s c a).timers = s.timers := rfl
@[simp] theorem setPc_lanes (s : State) (c : Nat) (a : Addr) : (setPc s c a).lanes = s.lanes := rfl
@[simp] theorem setPc_rxSince (s : State) (c : Nat) (a : Addr) : (setPc s c a).rxSince = s.rxSince := rfl
@[simp] theorem setPc_dogs (s : State) (c : Nat) (a : Addr) : (setPc s c a).dogs = s.dogs := rfl
@[simp] theorem setPc_hosts (s : State) (c : Nat) (a : Addr) : (setPc s c a).hosts = s.hosts := rfl
@[simp] theorem setPc_hostQueue (s : State) (c : Nat) (a : Addr) : (setPc s c a).hostQueue = s.hostQueue := rfl
@[simp] theorem setPc_can (s : State) (c : Nat) (a : Addr) : (setPc s c a).can = s.can := rfl
@[simp] theorem setPc_od (s : State) (c : Nat) (a : Addr) : (setPc s c a).od = s.od := rfl
@[simp] theorem setPc_odBase (s : State) (c : Nat) (a : Addr) : (setPc s c a).odBase = s.odBase := rfl
@[simp] theorem setPc_inForce (s : State) (c : Nat) (a : Addr) : (setPc s c a).inForce = s.inForce := rfl
@[simp] theorem setPc_flash (s : State) (c : Nat) (a : Addr) : (setPc s c a).flash = s.flash := rfl
@[simp] theorem setPc_fuses (s : State) (c : Nat) (a : Addr) : (setPc s c a).fuses = s.fuses := rfl
@[simp] theorem setPc_fw (s : State) (c : Nat) (a : Addr) : (setPc s c a).fw = s.fw := rfl
@[simp] theorem setPc_dbg (s : State) (c : Nat) (a : Addr) : (setPc s c a).dbg = s.dbg := rfl

@[simp] theorem setCore_pending (s : State) (c : Nat) (x : CoreSt) : (setCore s c x).pending = s.pending := rfl
@[simp] theorem setCore_clock (s : State) (c : Nat) (x : CoreSt) : (setCore s c x).clock = s.clock := rfl
@[simp] theorem setCore_free (s : State) (c : Nat) (x : CoreSt) : (setCore s c x).free = s.free := rfl
@[simp] theorem setCore_sent (s : State) (c : Nat) (x : CoreSt) : (setCore s c x).sent = s.sent := rfl
@[simp] theorem setCore_regs (s : State) (c : Nat) (x : CoreSt) : (setCore s c x).regs = s.regs := rfl
@[simp] theorem setCore_rwsDone (s : State) (c : Nat) (x : CoreSt) : (setCore s c x).rwsDone = s.rwsDone := rfl
@[simp] theorem setCore_pwr (s : State) (c : Nat) (x : CoreSt) : (setCore s c x).pwr = s.pwr := rfl
@[simp] theorem setCore_modes (s : State) (c : Nat) (x : CoreSt) : (setCore s c x).modes = s.modes := rfl
@[simp] theorem setCore_mem (s : State) (c : Nat) (x : CoreSt) : (setCore s c x).mem = s.mem := rfl
@[simp] theorem setCore_frames (s : State) (c : Nat) (x : CoreSt) : (setCore s c x).frames = s.frames := rfl
@[simp] theorem setCore_store (s : State) (c : Nat) (x : CoreSt) : (setCore s c x).store = s.store := rfl
@[simp] theorem setCore_handovers (s : State) (c : Nat) (x : CoreSt) : (setCore s c x).handovers = s.handovers := rfl
@[simp] theorem setCore_ctxs (s : State) (c : Nat) (x : CoreSt) : (setCore s c x).ctxs = s.ctxs := rfl
@[simp] theorem setCore_caps (s : State) (c : Nat) (x : CoreSt) : (setCore s c x).caps = s.caps := rfl
@[simp] theorem setCore_checkpoint (s : State) (c : Nat) (x : CoreSt) : (setCore s c x).checkpoint = s.checkpoint := rfl
@[simp] theorem setCore_rollbacks (s : State) (c : Nat) (x : CoreSt) : (setCore s c x).rollbacks = s.rollbacks := rfl
@[simp] theorem setCore_splices (s : State) (c : Nat) (x : CoreSt) : (setCore s c x).splices = s.splices := rfl
@[simp] theorem setCore_events (s : State) (c : Nat) (x : CoreSt) : (setCore s c x).events = s.events := rfl
@[simp] theorem setCore_timers (s : State) (c : Nat) (x : CoreSt) : (setCore s c x).timers = s.timers := rfl
@[simp] theorem setCore_lanes (s : State) (c : Nat) (x : CoreSt) : (setCore s c x).lanes = s.lanes := rfl
@[simp] theorem setCore_rxSince (s : State) (c : Nat) (x : CoreSt) : (setCore s c x).rxSince = s.rxSince := rfl
@[simp] theorem setCore_dogs (s : State) (c : Nat) (x : CoreSt) : (setCore s c x).dogs = s.dogs := rfl
@[simp] theorem setCore_hosts (s : State) (c : Nat) (x : CoreSt) : (setCore s c x).hosts = s.hosts := rfl
@[simp] theorem setCore_hostQueue (s : State) (c : Nat) (x : CoreSt) : (setCore s c x).hostQueue = s.hostQueue := rfl
@[simp] theorem setCore_can (s : State) (c : Nat) (x : CoreSt) : (setCore s c x).can = s.can := rfl
@[simp] theorem setCore_od (s : State) (c : Nat) (x : CoreSt) : (setCore s c x).od = s.od := rfl
@[simp] theorem setCore_odBase (s : State) (c : Nat) (x : CoreSt) : (setCore s c x).odBase = s.odBase := rfl
@[simp] theorem setCore_inForce (s : State) (c : Nat) (x : CoreSt) : (setCore s c x).inForce = s.inForce := rfl
@[simp] theorem setCore_flash (s : State) (c : Nat) (x : CoreSt) : (setCore s c x).flash = s.flash := rfl
@[simp] theorem setCore_fuses (s : State) (c : Nat) (x : CoreSt) : (setCore s c x).fuses = s.fuses := rfl
@[simp] theorem setCore_fw (s : State) (c : Nat) (x : CoreSt) : (setCore s c x).fw = s.fw := rfl
@[simp] theorem setCore_dbg (s : State) (c : Nat) (x : CoreSt) : (setCore s c x).dbg = s.dbg := rfl

@[simp] theorem setCap_pending (s : State) (c : Nat) (x : CapSt) : (setCap s c x).pending = s.pending := rfl
@[simp] theorem setCap_clock (s : State) (c : Nat) (x : CapSt) : (setCap s c x).clock = s.clock := rfl
@[simp] theorem setCap_free (s : State) (c : Nat) (x : CapSt) : (setCap s c x).free = s.free := rfl
@[simp] theorem setCap_sent (s : State) (c : Nat) (x : CapSt) : (setCap s c x).sent = s.sent := rfl
@[simp] theorem setCap_regs (s : State) (c : Nat) (x : CapSt) : (setCap s c x).regs = s.regs := rfl
@[simp] theorem setCap_rwsDone (s : State) (c : Nat) (x : CapSt) : (setCap s c x).rwsDone = s.rwsDone := rfl
@[simp] theorem setCap_pwr (s : State) (c : Nat) (x : CapSt) : (setCap s c x).pwr = s.pwr := rfl
@[simp] theorem setCap_modes (s : State) (c : Nat) (x : CapSt) : (setCap s c x).modes = s.modes := rfl
@[simp] theorem setCap_mem (s : State) (c : Nat) (x : CapSt) : (setCap s c x).mem = s.mem := rfl
@[simp] theorem setCap_frames (s : State) (c : Nat) (x : CapSt) : (setCap s c x).frames = s.frames := rfl
@[simp] theorem setCap_store (s : State) (c : Nat) (x : CapSt) : (setCap s c x).store = s.store := rfl
@[simp] theorem setCap_handovers (s : State) (c : Nat) (x : CapSt) : (setCap s c x).handovers = s.handovers := rfl
@[simp] theorem setCap_ctxs (s : State) (c : Nat) (x : CapSt) : (setCap s c x).ctxs = s.ctxs := rfl
@[simp] theorem setCap_cores (s : State) (c : Nat) (x : CapSt) : (setCap s c x).cores = s.cores := rfl
@[simp] theorem setCap_checkpoint (s : State) (c : Nat) (x : CapSt) : (setCap s c x).checkpoint = s.checkpoint := rfl
@[simp] theorem setCap_rollbacks (s : State) (c : Nat) (x : CapSt) : (setCap s c x).rollbacks = s.rollbacks := rfl
@[simp] theorem setCap_splices (s : State) (c : Nat) (x : CapSt) : (setCap s c x).splices = s.splices := rfl
@[simp] theorem setCap_events (s : State) (c : Nat) (x : CapSt) : (setCap s c x).events = s.events := rfl
@[simp] theorem setCap_timers (s : State) (c : Nat) (x : CapSt) : (setCap s c x).timers = s.timers := rfl
@[simp] theorem setCap_lanes (s : State) (c : Nat) (x : CapSt) : (setCap s c x).lanes = s.lanes := rfl
@[simp] theorem setCap_rxSince (s : State) (c : Nat) (x : CapSt) : (setCap s c x).rxSince = s.rxSince := rfl
@[simp] theorem setCap_dogs (s : State) (c : Nat) (x : CapSt) : (setCap s c x).dogs = s.dogs := rfl
@[simp] theorem setCap_hosts (s : State) (c : Nat) (x : CapSt) : (setCap s c x).hosts = s.hosts := rfl
@[simp] theorem setCap_hostQueue (s : State) (c : Nat) (x : CapSt) : (setCap s c x).hostQueue = s.hostQueue := rfl
@[simp] theorem setCap_can (s : State) (c : Nat) (x : CapSt) : (setCap s c x).can = s.can := rfl
@[simp] theorem setCap_od (s : State) (c : Nat) (x : CapSt) : (setCap s c x).od = s.od := rfl
@[simp] theorem setCap_odBase (s : State) (c : Nat) (x : CapSt) : (setCap s c x).odBase = s.odBase := rfl
@[simp] theorem setCap_inForce (s : State) (c : Nat) (x : CapSt) : (setCap s c x).inForce = s.inForce := rfl
@[simp] theorem setCap_flash (s : State) (c : Nat) (x : CapSt) : (setCap s c x).flash = s.flash := rfl
@[simp] theorem setCap_fuses (s : State) (c : Nat) (x : CapSt) : (setCap s c x).fuses = s.fuses := rfl
@[simp] theorem setCap_fw (s : State) (c : Nat) (x : CapSt) : (setCap s c x).fw = s.fw := rfl
@[simp] theorem setCap_dbg (s : State) (c : Nat) (x : CapSt) : (setCap s c x).dbg = s.dbg := rfl

@[simp] theorem setMem_pending (s : State) (k : Nat) (w : StoredWord) : (setMem s k w).pending = s.pending := rfl
@[simp] theorem setMem_clock (s : State) (k : Nat) (w : StoredWord) : (setMem s k w).clock = s.clock := rfl
@[simp] theorem setMem_free (s : State) (k : Nat) (w : StoredWord) : (setMem s k w).free = s.free := rfl
@[simp] theorem setMem_sent (s : State) (k : Nat) (w : StoredWord) : (setMem s k w).sent = s.sent := rfl
@[simp] theorem setMem_regs (s : State) (k : Nat) (w : StoredWord) : (setMem s k w).regs = s.regs := rfl
@[simp] theorem setMem_rwsDone (s : State) (k : Nat) (w : StoredWord) : (setMem s k w).rwsDone = s.rwsDone := rfl
@[simp] theorem setMem_pwr (s : State) (k : Nat) (w : StoredWord) : (setMem s k w).pwr = s.pwr := rfl
@[simp] theorem setMem_modes (s : State) (k : Nat) (w : StoredWord) : (setMem s k w).modes = s.modes := rfl
@[simp] theorem setMem_frames (s : State) (k : Nat) (w : StoredWord) : (setMem s k w).frames = s.frames := rfl
@[simp] theorem setMem_store (s : State) (k : Nat) (w : StoredWord) : (setMem s k w).store = s.store := rfl
@[simp] theorem setMem_handovers (s : State) (k : Nat) (w : StoredWord) : (setMem s k w).handovers = s.handovers := rfl
@[simp] theorem setMem_ctxs (s : State) (k : Nat) (w : StoredWord) : (setMem s k w).ctxs = s.ctxs := rfl
@[simp] theorem setMem_cores (s : State) (k : Nat) (w : StoredWord) : (setMem s k w).cores = s.cores := rfl
@[simp] theorem setMem_caps (s : State) (k : Nat) (w : StoredWord) : (setMem s k w).caps = s.caps := rfl
@[simp] theorem setMem_checkpoint (s : State) (k : Nat) (w : StoredWord) : (setMem s k w).checkpoint = s.checkpoint := rfl
@[simp] theorem setMem_rollbacks (s : State) (k : Nat) (w : StoredWord) : (setMem s k w).rollbacks = s.rollbacks := rfl
@[simp] theorem setMem_splices (s : State) (k : Nat) (w : StoredWord) : (setMem s k w).splices = s.splices := rfl
@[simp] theorem setMem_events (s : State) (k : Nat) (w : StoredWord) : (setMem s k w).events = s.events := rfl
@[simp] theorem setMem_timers (s : State) (k : Nat) (w : StoredWord) : (setMem s k w).timers = s.timers := rfl
@[simp] theorem setMem_lanes (s : State) (k : Nat) (w : StoredWord) : (setMem s k w).lanes = s.lanes := rfl
@[simp] theorem setMem_rxSince (s : State) (k : Nat) (w : StoredWord) : (setMem s k w).rxSince = s.rxSince := rfl
@[simp] theorem setMem_dogs (s : State) (k : Nat) (w : StoredWord) : (setMem s k w).dogs = s.dogs := rfl
@[simp] theorem setMem_hosts (s : State) (k : Nat) (w : StoredWord) : (setMem s k w).hosts = s.hosts := rfl
@[simp] theorem setMem_hostQueue (s : State) (k : Nat) (w : StoredWord) : (setMem s k w).hostQueue = s.hostQueue := rfl
@[simp] theorem setMem_can (s : State) (k : Nat) (w : StoredWord) : (setMem s k w).can = s.can := rfl
@[simp] theorem setMem_od (s : State) (k : Nat) (w : StoredWord) : (setMem s k w).od = s.od := rfl
@[simp] theorem setMem_odBase (s : State) (k : Nat) (w : StoredWord) : (setMem s k w).odBase = s.odBase := rfl
@[simp] theorem setMem_inForce (s : State) (k : Nat) (w : StoredWord) : (setMem s k w).inForce = s.inForce := rfl
@[simp] theorem setMem_flash (s : State) (k : Nat) (w : StoredWord) : (setMem s k w).flash = s.flash := rfl
@[simp] theorem setMem_fuses (s : State) (k : Nat) (w : StoredWord) : (setMem s k w).fuses = s.fuses := rfl
@[simp] theorem setMem_fw (s : State) (k : Nat) (w : StoredWord) : (setMem s k w).fw = s.fw := rfl
@[simp] theorem setMem_dbg (s : State) (k : Nat) (w : StoredWord) : (setMem s k w).dbg = s.dbg := rfl

@[simp] theorem setFrame_pending (s : State) (n : Nat) (e : FEntry) : (setFrame s n e).pending = s.pending := by unfold setFrame; dsimp only; split <;> rfl
@[simp] theorem setFrame_clock (s : State) (n : Nat) (e : FEntry) : (setFrame s n e).clock = s.clock := by unfold setFrame; dsimp only; split <;> rfl
@[simp] theorem setFrame_free (s : State) (n : Nat) (e : FEntry) : (setFrame s n e).free = s.free := by unfold setFrame; dsimp only; split <;> rfl
@[simp] theorem setFrame_sent (s : State) (n : Nat) (e : FEntry) : (setFrame s n e).sent = s.sent := by unfold setFrame; dsimp only; split <;> rfl
@[simp] theorem setFrame_rwsDone (s : State) (n : Nat) (e : FEntry) : (setFrame s n e).rwsDone = s.rwsDone := by unfold setFrame; dsimp only; split <;> rfl
@[simp] theorem setFrame_pwr (s : State) (n : Nat) (e : FEntry) : (setFrame s n e).pwr = s.pwr := by unfold setFrame; dsimp only; split <;> rfl
@[simp] theorem setFrame_modes (s : State) (n : Nat) (e : FEntry) : (setFrame s n e).modes = s.modes := by unfold setFrame; dsimp only; split <;> rfl
@[simp] theorem setFrame_handovers (s : State) (n : Nat) (e : FEntry) : (setFrame s n e).handovers = s.handovers := by unfold setFrame; dsimp only; split <;> rfl
@[simp] theorem setFrame_ctxs (s : State) (n : Nat) (e : FEntry) : (setFrame s n e).ctxs = s.ctxs := by unfold setFrame; dsimp only; split <;> rfl
@[simp] theorem setFrame_cores (s : State) (n : Nat) (e : FEntry) : (setFrame s n e).cores = s.cores := by unfold setFrame; dsimp only; split <;> rfl
@[simp] theorem setFrame_caps (s : State) (n : Nat) (e : FEntry) : (setFrame s n e).caps = s.caps := by unfold setFrame; dsimp only; split <;> rfl
@[simp] theorem setFrame_checkpoint (s : State) (n : Nat) (e : FEntry) : (setFrame s n e).checkpoint = s.checkpoint := by unfold setFrame; dsimp only; split <;> rfl
@[simp] theorem setFrame_rollbacks (s : State) (n : Nat) (e : FEntry) : (setFrame s n e).rollbacks = s.rollbacks := by unfold setFrame; dsimp only; split <;> rfl
@[simp] theorem setFrame_splices (s : State) (n : Nat) (e : FEntry) : (setFrame s n e).splices = s.splices := by unfold setFrame; dsimp only; split <;> rfl
@[simp] theorem setFrame_events (s : State) (n : Nat) (e : FEntry) : (setFrame s n e).events = s.events := by unfold setFrame; dsimp only; split <;> rfl
@[simp] theorem setFrame_timers (s : State) (n : Nat) (e : FEntry) : (setFrame s n e).timers = s.timers := by unfold setFrame; dsimp only; split <;> rfl
@[simp] theorem setFrame_lanes (s : State) (n : Nat) (e : FEntry) : (setFrame s n e).lanes = s.lanes := by unfold setFrame; dsimp only; split <;> rfl
@[simp] theorem setFrame_rxSince (s : State) (n : Nat) (e : FEntry) : (setFrame s n e).rxSince = s.rxSince := by unfold setFrame; dsimp only; split <;> rfl
@[simp] theorem setFrame_dogs (s : State) (n : Nat) (e : FEntry) : (setFrame s n e).dogs = s.dogs := by unfold setFrame; dsimp only; split <;> rfl
@[simp] theorem setFrame_hosts (s : State) (n : Nat) (e : FEntry) : (setFrame s n e).hosts = s.hosts := by unfold setFrame; dsimp only; split <;> rfl
@[simp] theorem setFrame_hostQueue (s : State) (n : Nat) (e : FEntry) : (setFrame s n e).hostQueue = s.hostQueue := by unfold setFrame; dsimp only; split <;> rfl
@[simp] theorem setFrame_can (s : State) (n : Nat) (e : FEntry) : (setFrame s n e).can = s.can := by unfold setFrame; dsimp only; split <;> rfl
@[simp] theorem setFrame_od (s : State) (n : Nat) (e : FEntry) : (setFrame s n e).od = s.od := by unfold setFrame; dsimp only; split <;> rfl
@[simp] theorem setFrame_odBase (s : State) (n : Nat) (e : FEntry) : (setFrame s n e).odBase = s.odBase := by unfold setFrame; dsimp only; split <;> rfl
@[simp] theorem setFrame_inForce (s : State) (n : Nat) (e : FEntry) : (setFrame s n e).inForce = s.inForce := by unfold setFrame; dsimp only; split <;> rfl
@[simp] theorem setFrame_flash (s : State) (n : Nat) (e : FEntry) : (setFrame s n e).flash = s.flash := by unfold setFrame; dsimp only; split <;> rfl
@[simp] theorem setFrame_fuses (s : State) (n : Nat) (e : FEntry) : (setFrame s n e).fuses = s.fuses := by unfold setFrame; dsimp only; split <;> rfl
@[simp] theorem setFrame_fw (s : State) (n : Nat) (e : FEntry) : (setFrame s n e).fw = s.fw := by unfold setFrame; dsimp only; split <;> rfl
@[simp] theorem setFrame_dbg (s : State) (n : Nat) (e : FEntry) : (setFrame s n e).dbg = s.dbg := by unfold setFrame; dsimp only; split <;> rfl

@[simp] theorem drawBits_pending (s : State) (w : Nat) : ((drawBits w s).2).pending = s.pending := rfl
@[simp] theorem drawBits_clock (s : State) (w : Nat) : ((drawBits w s).2).clock = s.clock := rfl
@[simp] theorem drawBits_sent (s : State) (w : Nat) : ((drawBits w s).2).sent = s.sent := rfl
@[simp] theorem drawBits_regs (s : State) (w : Nat) : ((drawBits w s).2).regs = s.regs := rfl
@[simp] theorem drawBits_rwsDone (s : State) (w : Nat) : ((drawBits w s).2).rwsDone = s.rwsDone := rfl
@[simp] theorem drawBits_pwr (s : State) (w : Nat) : ((drawBits w s).2).pwr = s.pwr := rfl
@[simp] theorem drawBits_modes (s : State) (w : Nat) : ((drawBits w s).2).modes = s.modes := rfl
@[simp] theorem drawBits_mem (s : State) (w : Nat) : ((drawBits w s).2).mem = s.mem := rfl
@[simp] theorem drawBits_frames (s : State) (w : Nat) : ((drawBits w s).2).frames = s.frames := rfl
@[simp] theorem drawBits_store (s : State) (w : Nat) : ((drawBits w s).2).store = s.store := rfl
@[simp] theorem drawBits_handovers (s : State) (w : Nat) : ((drawBits w s).2).handovers = s.handovers := rfl
@[simp] theorem drawBits_ctxs (s : State) (w : Nat) : ((drawBits w s).2).ctxs = s.ctxs := rfl
@[simp] theorem drawBits_cores (s : State) (w : Nat) : ((drawBits w s).2).cores = s.cores := rfl
@[simp] theorem drawBits_caps (s : State) (w : Nat) : ((drawBits w s).2).caps = s.caps := rfl
@[simp] theorem drawBits_checkpoint (s : State) (w : Nat) : ((drawBits w s).2).checkpoint = s.checkpoint := rfl
@[simp] theorem drawBits_rollbacks (s : State) (w : Nat) : ((drawBits w s).2).rollbacks = s.rollbacks := rfl
@[simp] theorem drawBits_splices (s : State) (w : Nat) : ((drawBits w s).2).splices = s.splices := rfl
@[simp] theorem drawBits_events (s : State) (w : Nat) : ((drawBits w s).2).events = s.events := rfl
@[simp] theorem drawBits_timers (s : State) (w : Nat) : ((drawBits w s).2).timers = s.timers := rfl
@[simp] theorem drawBits_lanes (s : State) (w : Nat) : ((drawBits w s).2).lanes = s.lanes := rfl
@[simp] theorem drawBits_rxSince (s : State) (w : Nat) : ((drawBits w s).2).rxSince = s.rxSince := rfl
@[simp] theorem drawBits_dogs (s : State) (w : Nat) : ((drawBits w s).2).dogs = s.dogs := rfl
@[simp] theorem drawBits_hosts (s : State) (w : Nat) : ((drawBits w s).2).hosts = s.hosts := rfl
@[simp] theorem drawBits_hostQueue (s : State) (w : Nat) : ((drawBits w s).2).hostQueue = s.hostQueue := rfl
@[simp] theorem drawBits_can (s : State) (w : Nat) : ((drawBits w s).2).can = s.can := rfl
@[simp] theorem drawBits_od (s : State) (w : Nat) : ((drawBits w s).2).od = s.od := rfl
@[simp] theorem drawBits_odBase (s : State) (w : Nat) : ((drawBits w s).2).odBase = s.odBase := rfl
@[simp] theorem drawBits_inForce (s : State) (w : Nat) : ((drawBits w s).2).inForce = s.inForce := rfl
@[simp] theorem drawBits_flash (s : State) (w : Nat) : ((drawBits w s).2).flash = s.flash := rfl
@[simp] theorem drawBits_fuses (s : State) (w : Nat) : ((drawBits w s).2).fuses = s.fuses := rfl
@[simp] theorem drawBits_fw (s : State) (w : Nat) : ((drawBits w s).2).fw = s.fw := rfl
@[simp] theorem drawBits_dbg (s : State) (w : Nat) : ((drawBits w s).2).dbg = s.dbg := rfl

@[simp] theorem drawNat_pending (s : State) : ((drawNat s).2).pending = s.pending := rfl
@[simp] theorem drawNat_clock (s : State) : ((drawNat s).2).clock = s.clock := rfl
@[simp] theorem drawNat_sent (s : State) : ((drawNat s).2).sent = s.sent := rfl
@[simp] theorem drawNat_regs (s : State) : ((drawNat s).2).regs = s.regs := rfl
@[simp] theorem drawNat_rwsDone (s : State) : ((drawNat s).2).rwsDone = s.rwsDone := rfl
@[simp] theorem drawNat_pwr (s : State) : ((drawNat s).2).pwr = s.pwr := rfl
@[simp] theorem drawNat_modes (s : State) : ((drawNat s).2).modes = s.modes := rfl
@[simp] theorem drawNat_mem (s : State) : ((drawNat s).2).mem = s.mem := rfl
@[simp] theorem drawNat_frames (s : State) : ((drawNat s).2).frames = s.frames := rfl
@[simp] theorem drawNat_store (s : State) : ((drawNat s).2).store = s.store := rfl
@[simp] theorem drawNat_handovers (s : State) : ((drawNat s).2).handovers = s.handovers := rfl
@[simp] theorem drawNat_ctxs (s : State) : ((drawNat s).2).ctxs = s.ctxs := rfl
@[simp] theorem drawNat_cores (s : State) : ((drawNat s).2).cores = s.cores := rfl
@[simp] theorem drawNat_caps (s : State) : ((drawNat s).2).caps = s.caps := rfl
@[simp] theorem drawNat_checkpoint (s : State) : ((drawNat s).2).checkpoint = s.checkpoint := rfl
@[simp] theorem drawNat_rollbacks (s : State) : ((drawNat s).2).rollbacks = s.rollbacks := rfl
@[simp] theorem drawNat_splices (s : State) : ((drawNat s).2).splices = s.splices := rfl
@[simp] theorem drawNat_events (s : State) : ((drawNat s).2).events = s.events := rfl
@[simp] theorem drawNat_timers (s : State) : ((drawNat s).2).timers = s.timers := rfl
@[simp] theorem drawNat_lanes (s : State) : ((drawNat s).2).lanes = s.lanes := rfl
@[simp] theorem drawNat_rxSince (s : State) : ((drawNat s).2).rxSince = s.rxSince := rfl
@[simp] theorem drawNat_dogs (s : State) : ((drawNat s).2).dogs = s.dogs := rfl
@[simp] theorem drawNat_hosts (s : State) : ((drawNat s).2).hosts = s.hosts := rfl
@[simp] theorem drawNat_hostQueue (s : State) : ((drawNat s).2).hostQueue = s.hostQueue := rfl
@[simp] theorem drawNat_can (s : State) : ((drawNat s).2).can = s.can := rfl
@[simp] theorem drawNat_od (s : State) : ((drawNat s).2).od = s.od := rfl
@[simp] theorem drawNat_odBase (s : State) : ((drawNat s).2).odBase = s.odBase := rfl
@[simp] theorem drawNat_inForce (s : State) : ((drawNat s).2).inForce = s.inForce := rfl
@[simp] theorem drawNat_flash (s : State) : ((drawNat s).2).flash = s.flash := rfl
@[simp] theorem drawNat_fuses (s : State) : ((drawNat s).2).fuses = s.fuses := rfl
@[simp] theorem drawNat_fw (s : State) : ((drawNat s).2).fw = s.fw := rfl
@[simp] theorem drawNat_dbg (s : State) : ((drawNat s).2).dbg = s.dbg := rfl

@[simp] theorem setTrail_pending (s : State) (k : Nat) (t : Trail) : (setTrail s k t).pending = s.pending := rfl
@[simp] theorem setTrail_clock (s : State) (k : Nat) (t : Trail) : (setTrail s k t).clock = s.clock := rfl
@[simp] theorem setTrail_free (s : State) (k : Nat) (t : Trail) : (setTrail s k t).free = s.free := rfl
@[simp] theorem setTrail_sent (s : State) (k : Nat) (t : Trail) : (setTrail s k t).sent = s.sent := rfl
@[simp] theorem setTrail_regs (s : State) (k : Nat) (t : Trail) : (setTrail s k t).regs = s.regs := rfl
@[simp] theorem setTrail_rwsDone (s : State) (k : Nat) (t : Trail) : (setTrail s k t).rwsDone = s.rwsDone := rfl
@[simp] theorem setTrail_pwr (s : State) (k : Nat) (t : Trail) : (setTrail s k t).pwr = s.pwr := rfl
@[simp] theorem setTrail_modes (s : State) (k : Nat) (t : Trail) : (setTrail s k t).modes = s.modes := rfl
@[simp] theorem setTrail_mem (s : State) (k : Nat) (t : Trail) : (setTrail s k t).mem = s.mem := rfl
@[simp] theorem setTrail_frames (s : State) (k : Nat) (t : Trail) : (setTrail s k t).frames = s.frames := rfl
@[simp] theorem setTrail_store (s : State) (k : Nat) (t : Trail) : (setTrail s k t).store = s.store := rfl
@[simp] theorem setTrail_handovers (s : State) (k : Nat) (t : Trail) : (setTrail s k t).handovers = s.handovers := rfl
@[simp] theorem setTrail_ctxs (s : State) (k : Nat) (t : Trail) : (setTrail s k t).ctxs = s.ctxs := rfl
@[simp] theorem setTrail_cores (s : State) (k : Nat) (t : Trail) : (setTrail s k t).cores = s.cores := rfl
@[simp] theorem setTrail_caps (s : State) (k : Nat) (t : Trail) : (setTrail s k t).caps = s.caps := rfl
@[simp] theorem setTrail_checkpoint (s : State) (k : Nat) (t : Trail) : (setTrail s k t).checkpoint = s.checkpoint := rfl
@[simp] theorem setTrail_rollbacks (s : State) (k : Nat) (t : Trail) : (setTrail s k t).rollbacks = s.rollbacks := rfl
@[simp] theorem setTrail_events (s : State) (k : Nat) (t : Trail) : (setTrail s k t).events = s.events := rfl
@[simp] theorem setTrail_timers (s : State) (k : Nat) (t : Trail) : (setTrail s k t).timers = s.timers := rfl
@[simp] theorem setTrail_lanes (s : State) (k : Nat) (t : Trail) : (setTrail s k t).lanes = s.lanes := rfl
@[simp] theorem setTrail_rxSince (s : State) (k : Nat) (t : Trail) : (setTrail s k t).rxSince = s.rxSince := rfl
@[simp] theorem setTrail_dogs (s : State) (k : Nat) (t : Trail) : (setTrail s k t).dogs = s.dogs := rfl
@[simp] theorem setTrail_hosts (s : State) (k : Nat) (t : Trail) : (setTrail s k t).hosts = s.hosts := rfl
@[simp] theorem setTrail_hostQueue (s : State) (k : Nat) (t : Trail) : (setTrail s k t).hostQueue = s.hostQueue := rfl
@[simp] theorem setTrail_can (s : State) (k : Nat) (t : Trail) : (setTrail s k t).can = s.can := rfl
@[simp] theorem setTrail_od (s : State) (k : Nat) (t : Trail) : (setTrail s k t).od = s.od := rfl
@[simp] theorem setTrail_odBase (s : State) (k : Nat) (t : Trail) : (setTrail s k t).odBase = s.odBase := rfl
@[simp] theorem setTrail_inForce (s : State) (k : Nat) (t : Trail) : (setTrail s k t).inForce = s.inForce := rfl
@[simp] theorem setTrail_flash (s : State) (k : Nat) (t : Trail) : (setTrail s k t).flash = s.flash := rfl
@[simp] theorem setTrail_fuses (s : State) (k : Nat) (t : Trail) : (setTrail s k t).fuses = s.fuses := rfl
@[simp] theorem setTrail_fw (s : State) (k : Nat) (t : Trail) : (setTrail s k t).fw = s.fw := rfl
@[simp] theorem setTrail_dbg (s : State) (k : Nat) (t : Trail) : (setTrail s k t).dbg = s.dbg := rfl

/-! What is read back. -/

theorem rd_wr (s : State) (r q : Rg) (v : Reg24) (h : r.index = q.index → q.reset = r.reset) :
    rd (wr s r v) q = if q.index = r.index then v else rd s q := by
  unfold rd wr
  by_cases hi : q.index = r.index
  · simp only [hi, if_true]; rw [h hi.symm]; simp
  · simp only [hi, if_false]; exact get_put_ne _ _ _ _ _ _ hi

@[simp] theorem rd_wr_same (s : State) (r : Rg) (v : Reg24) : rd (wr s r v) r = v := by simp [rd, wr]

theorem rd_wr_ne (s : State) (r q : Rg) (v : Reg24) (h : q.index ≠ r.index) : rd (wr s r v) q = rd s q :=
  get_put_ne _ _ _ _ _ _ h

@[simp] theorem ctxAt_setCtxAt_same (s : State) (k : Nat) (x : Ctx) : ctxAt (setCtxAt s k x) k = x := by
  simp [ctxAt, setCtxAt]

theorem ctxAt_setCtxAt (s : State) (k j : Nat) (x : Ctx) : ctxAt (setCtxAt s k x) j = if j = k then x else ctxAt s j := by
  unfold ctxAt setCtxAt
  by_cases h : j = k
  · subst h; simp
  · simp only [h, if_false]; exact get_put_ne _ _ _ _ _ _ h

@[simp] theorem coreOf_setCore_same (s : State) (c : Nat) (x : CoreSt) : coreOf (setCore s c x) c = x := by
  simp [coreOf, setCore]

theorem coreOf_setCore (s : State) (c d : Nat) (x : CoreSt) : coreOf (setCore s c x) d = if d = c then x else coreOf s d := by
  simp only [coreOf, setCore, get_put]

@[simp] theorem capOf_setCap_same (s : State) (c : Nat) (x : CapSt) : capOf (setCap s c x) c = x := by
  simp [capOf, setCap]

/-- Reads of registers do not see an update of contexts, cores or memory. -/
@[simp] theorem rd_setCtxAt (s : State) (k : Nat) (x : Ctx) (r : Rg) : rd (setCtxAt s k x) r = rd s r := rfl
@[simp] theorem rd_setCtx (s : State) (c : Nat) (x : Ctx) (r : Rg) : rd (setCtx s c x) r = rd s r := rfl
@[simp] theorem rd_setCore (s : State) (c : Nat) (x : CoreSt) (r : Rg) : rd (setCore s c x) r = rd s r := rfl
@[simp] theorem rd_setCap (s : State) (c : Nat) (x : CapSt) (r : Rg) : rd (setCap s c x) r = rd s r := rfl
@[simp] theorem rd_setMem (s : State) (k : Nat) (w : StoredWord) (r : Rg) : rd (setMem s k w) r = rd s r := rfl
@[simp] theorem rd_send (s : State) (m : Msg) (r : Rg) : rd (send s m) r = rd s r := rfl
@[simp] theorem rd_sendCan (s : State) (m : Msg) (r : Rg) : rd (sendCan s m) r = rd s r := by unfold sendCan; split <;> rfl

@[simp] theorem bankOf_setCtxAt (s : State) (k : Nat) (x : Ctx) (c : Nat) : bankOf (setCtxAt s k x) c = bankOf s c := rfl
@[simp] theorem bankOf_setCtx (s : State) (d : Nat) (x : Ctx) (c : Nat) : bankOf (setCtx s d x) c = bankOf s c := rfl
@[simp] theorem bankOf_setCore (s : State) (d : Nat) (x : CoreSt) (c : Nat) : bankOf (setCore s d x) c = bankOf s c := rfl
@[simp] theorem bankOf_setG (s : State) (d n : Nat) (v : W48) (c : Nat) : bankOf (setG s d n v) c = bankOf s c := rfl
@[simp] theorem bankOf_setPc (s : State) (d : Nat) (a : Addr) (c : Nat) : bankOf (setPc s d a) c = bankOf s c := rfl

@[simp] theorem ctxOf_setCtx_same (s : State) (c : Nat) (x : Ctx) : ctxOf (setCtx s c x) c = x := by
  simp [ctxOf, setCtx]

@[simp] theorem ctxOf_setCore (s : State) (d : Nat) (x : CoreSt) (c : Nat) : ctxOf (setCore s d x) c = ctxOf s c := rfl
@[simp] theorem ctxAt_setCore (s : State) (d : Nat) (x : CoreSt) (k : Nat) : ctxAt (setCore s d x) k = ctxAt s k := rfl
@[simp] theorem coreOf_setCtx (s : State) (d : Nat) (x : Ctx) (c : Nat) : coreOf (setCtx s d x) c = coreOf s c := rfl
@[simp] theorem coreOf_setCtxAt (s : State) (k : Nat) (x : Ctx) (c : Nat) : coreOf (setCtxAt s k x) c = coreOf s c := rfl
@[simp] theorem coreOf_setG (s : State) (d n : Nat) (v : W48) (c : Nat) : coreOf (setG s d n v) c = coreOf s c := rfl
@[simp] theorem coreOf_setPc (s : State) (d : Nat) (a : Addr) (c : Nat) : coreOf (setPc s d a) c = coreOf s c := rfl

@[simp] theorem pcOf_setPc (s : State) (c : Nat) (a : Addr) : pcOf (setPc s c a) c = a := by simp [pcOf, setPc]
@[simp] theorem pcOf_setCore (s : State) (d : Nat) (x : CoreSt) (c : Nat) : pcOf (setCore s d x) c = pcOf s c := rfl

/-! Registers of a context (R309). -/

theorem gr_setGr (x : Ctx) (n m : Nat) (v : W48) : (x.setGr n v).gr m = if m ≠ 0 ∧ m = n then v else x.gr m := by
  unfold Ctx.setGr Ctx.gr
  by_cases hm : m = 0
  · simp [hm]
  · by_cases hn : n = 0
    · subst hn; simp [hm]
    · simp [hn, hm, get_put]

@[simp] theorem gr_zero (x : Ctx) : x.gr 0 = 0 := rfl

theorem fr_setFr (x : Ctx) (n m : Nat) (v : W48) : (x.setFr n v).fr m = if m = n then v else x.fr m := by
  simp [Ctx.setFr, Ctx.fr, get_put]

theorem mr_setMr (x : Ctx) (n m : Nat) (v : BitVec 16) : (x.setMr n v).mr m = if m = n then v else x.mr m := by
  simp [Ctx.setMr, Ctx.mr, get_put]

theorem vdr_setVdr (x : Ctx) (n m : Nat) (v : BitVec 144) : (x.setVdr n v).vdr m = if m = n then v else x.vdr m := by
  simp [Ctx.setVdr, Ctx.vdr, get_put]

@[simp] theorem setGr_f (x : Ctx) (n : Nat) (v : W48) : (x.setGr n v).f = x.f := by unfold Ctx.setGr; split <;> rfl
@[simp] theorem setGr_m (x : Ctx) (n : Nat) (v : W48) : (x.setGr n v).m = x.m := by unfold Ctx.setGr; split <;> rfl
@[simp] theorem setGr_vd (x : Ctx) (n : Nat) (v : W48) : (x.setGr n v).vd = x.vd := by unfold Ctx.setGr; split <;> rfl
@[simp] theorem setGr_vfr (x : Ctx) (n : Nat) (v : W48) : (x.setGr n v).vfr = x.vfr := by unfold Ctx.setGr; split <;> rfl
@[simp] theorem setGr_pc (x : Ctx) (n : Nat) (v : W48) : (x.setGr n v).pc = x.pc := by unfold Ctx.setGr; split <;> rfl
@[simp] theorem setGr_stw (x : Ctx) (n : Nat) (v : W48) : (x.setGr n v).stw = x.stw := by unfold Ctx.setGr; split <;> rfl
@[simp] theorem setGr_dspU (x : Ctx) (n : Nat) (v : W48) : (x.setGr n v).dspU = x.dspU := by unfold Ctx.setGr; split <;> rfl
@[simp] theorem setGr_dspS (x : Ctx) (n : Nat) (v : W48) : (x.setGr n v).dspS = x.dspS := by unfold Ctx.setGr; split <;> rfl
@[simp] theorem setGr_rspU (x : Ctx) (n : Nat) (v : W48) : (x.setGr n v).rspU = x.rspU := by unfold Ctx.setGr; split <;> rfl
@[simp] theorem setGr_rspS (x : Ctx) (n : Nat) (v : W48) : (x.setGr n v).rspS = x.rspS := by unfold Ctx.setGr; split <;> rfl
@[simp] theorem setGr_ssp (x : Ctx) (n : Nat) (v : W48) : (x.setGr n v).ssp = x.ssp := by unfold Ctx.setGr; split <;> rfl
@[simp] theorem setGr_xfp (x : Ctx) (n : Nat) (v : W48) : (x.setGr n v).xfp = x.xfp := by unfold Ctx.setGr; split <;> rfl
@[simp] theorem setGr_xc (x : Ctx) (n : Nat) (v : W48) : (x.setGr n v).xc = x.xc := by unfold Ctx.setGr; split <;> rfl
@[simp] theorem setGr_cid (x : Ctx) (n : Nat) (v : W48) : (x.setGr n v).cid = x.cid := by unfold Ctx.setGr; split <;> rfl
@[simp] theorem setGr_chain (x : Ctx) (n : Nat) (v : W48) : (x.setGr n v).chain = x.chain := by unfold Ctx.setGr; split <;> rfl
@[simp] theorem setGr_chainPc (x : Ctx) (n : Nat) (v : W48) : (x.setGr n v).chainPc = x.chainPc := by unfold Ctx.setGr; split <;> rfl
@[simp] theorem setFr_g (x : Ctx) (n : Nat) (v : W48) : (x.setFr n v).g = x.g := rfl
@[simp] theorem setFr_m (x : Ctx) (n : Nat) (v : W48) : (x.setFr n v).m = x.m := rfl
@[simp] theorem setFr_vd (x : Ctx) (n : Nat) (v : W48) : (x.setFr n v).vd = x.vd := rfl
@[simp] theorem setFr_vfr (x : Ctx) (n : Nat) (v : W48) : (x.setFr n v).vfr = x.vfr := rfl
@[simp] theorem setFr_pc (x : Ctx) (n : Nat) (v : W48) : (x.setFr n v).pc = x.pc := rfl
@[simp] theorem setFr_stw (x : Ctx) (n : Nat) (v : W48) : (x.setFr n v).stw = x.stw := rfl
@[simp] theorem setFr_dspU (x : Ctx) (n : Nat) (v : W48) : (x.setFr n v).dspU = x.dspU := rfl
@[simp] theorem setFr_dspS (x : Ctx) (n : Nat) (v : W48) : (x.setFr n v).dspS = x.dspS := rfl
@[simp] theorem setFr_rspU (x : Ctx) (n : Nat) (v : W48) : (x.setFr n v).rspU = x.rspU := rfl
@[simp] theorem setFr_rspS (x : Ctx) (n : Nat) (v : W48) : (x.setFr n v).rspS = x.rspS := rfl
@[simp] theorem setFr_ssp (x : Ctx) (n : Nat) (v : W48) : (x.setFr n v).ssp = x.ssp := rfl
@[simp] theorem setFr_xfp (x : Ctx) (n : Nat) (v : W48) : (x.setFr n v).xfp = x.xfp := rfl
@[simp] theorem setFr_xc (x : Ctx) (n : Nat) (v : W48) : (x.setFr n v).xc = x.xc := rfl
@[simp] theorem setFr_cid (x : Ctx) (n : Nat) (v : W48) : (x.setFr n v).cid = x.cid := rfl
@[simp] theorem setFr_chain (x : Ctx) (n : Nat) (v : W48) : (x.setFr n v).chain = x.chain := rfl
@[simp] theorem setFr_chainPc (x : Ctx) (n : Nat) (v : W48) : (x.setFr n v).chainPc = x.chainPc := rfl
@[simp] theorem setMr_g (x : Ctx) (n : Nat) (v : BitVec 16) : (x.setMr n v).g = x.g := rfl
@[simp] theorem setMr_f (x : Ctx) (n : Nat) (v : BitVec 16) : (x.setMr n v).f = x.f := rfl
@[simp] theorem setMr_vd (x : Ctx) (n : Nat) (v : BitVec 16) : (x.setMr n v).vd = x.vd := rfl
@[simp] theorem setMr_vfr (x : Ctx) (n : Nat) (v : BitVec 16) : (x.setMr n v).vfr = x.vfr := rfl
@[simp] theorem setMr_pc (x : Ctx) (n : Nat) (v : BitVec 16) : (x.setMr n v).pc = x.pc := rfl
@[simp] theorem setMr_stw (x : Ctx) (n : Nat) (v : BitVec 16) : (x.setMr n v).stw = x.stw := rfl
@[simp] theorem setMr_dspU (x : Ctx) (n : Nat) (v : BitVec 16) : (x.setMr n v).dspU = x.dspU := rfl
@[simp] theorem setMr_dspS (x : Ctx) (n : Nat) (v : BitVec 16) : (x.setMr n v).dspS = x.dspS := rfl
@[simp] theorem setMr_rspU (x : Ctx) (n : Nat) (v : BitVec 16) : (x.setMr n v).rspU = x.rspU := rfl
@[simp] theorem setMr_rspS (x : Ctx) (n : Nat) (v : BitVec 16) : (x.setMr n v).rspS = x.rspS := rfl
@[simp] theorem setMr_ssp (x : Ctx) (n : Nat) (v : BitVec 16) : (x.setMr n v).ssp = x.ssp := rfl
@[simp] theorem setMr_xfp (x : Ctx) (n : Nat) (v : BitVec 16) : (x.setMr n v).xfp = x.xfp := rfl
@[simp] theorem setMr_xc (x : Ctx) (n : Nat) (v : BitVec 16) : (x.setMr n v).xc = x.xc := rfl
@[simp] theorem setMr_cid (x : Ctx) (n : Nat) (v : BitVec 16) : (x.setMr n v).cid = x.cid := rfl
@[simp] theorem setMr_chain (x : Ctx) (n : Nat) (v : BitVec 16) : (x.setMr n v).chain = x.chain := rfl
@[simp] theorem setMr_chainPc (x : Ctx) (n : Nat) (v : BitVec 16) : (x.setMr n v).chainPc = x.chainPc := rfl
@[simp] theorem setVdr_g (x : Ctx) (n : Nat) (v : BitVec 144) : (x.setVdr n v).g = x.g := rfl
@[simp] theorem setVdr_f (x : Ctx) (n : Nat) (v : BitVec 144) : (x.setVdr n v).f = x.f := rfl
@[simp] theorem setVdr_m (x : Ctx) (n : Nat) (v : BitVec 144) : (x.setVdr n v).m = x.m := rfl
@[simp] theorem setVdr_vfr (x : Ctx) (n : Nat) (v : BitVec 144) : (x.setVdr n v).vfr = x.vfr := rfl
@[simp] theorem setVdr_pc (x : Ctx) (n : Nat) (v : BitVec 144) : (x.setVdr n v).pc = x.pc := rfl
@[simp] theorem setVdr_stw (x : Ctx) (n : Nat) (v : BitVec 144) : (x.setVdr n v).stw = x.stw := rfl
@[simp] theorem setVdr_dspU (x : Ctx) (n : Nat) (v : BitVec 144) : (x.setVdr n v).dspU = x.dspU := rfl
@[simp] theorem setVdr_dspS (x : Ctx) (n : Nat) (v : BitVec 144) : (x.setVdr n v).dspS = x.dspS := rfl
@[simp] theorem setVdr_rspU (x : Ctx) (n : Nat) (v : BitVec 144) : (x.setVdr n v).rspU = x.rspU := rfl
@[simp] theorem setVdr_rspS (x : Ctx) (n : Nat) (v : BitVec 144) : (x.setVdr n v).rspS = x.rspS := rfl
@[simp] theorem setVdr_ssp (x : Ctx) (n : Nat) (v : BitVec 144) : (x.setVdr n v).ssp = x.ssp := rfl
@[simp] theorem setVdr_xfp (x : Ctx) (n : Nat) (v : BitVec 144) : (x.setVdr n v).xfp = x.xfp := rfl
@[simp] theorem setVdr_xc (x : Ctx) (n : Nat) (v : BitVec 144) : (x.setVdr n v).xc = x.xc := rfl
@[simp] theorem setVdr_cid (x : Ctx) (n : Nat) (v : BitVec 144) : (x.setVdr n v).cid = x.cid := rfl
@[simp] theorem setVdr_chain (x : Ctx) (n : Nat) (v : BitVec 144) : (x.setVdr n v).chain = x.chain := rfl
@[simp] theorem setVdr_chainPc (x : Ctx) (n : Nat) (v : BitVec 144) : (x.setVdr n v).chainPc = x.chainPc := rfl

theorem getG_setG (s : State) (c n m : Nat) (v : W48) :
    getG (setG s c n v) c m = if m ≠ 0 ∧ m = n then v else getG s c m := by
  simp only [getG, setG, ctxOf_setCtx_same, gr_setGr]

end Sys2Proof.Laws
end

