-- ==== Sys2Proof/Laws/Flash.lean ====
section
/-! SUPPORT. Bytes of numbers, and the pointer record in flash: what reading back what was written gives (R573, R587). -/

namespace Sys2Proof.Laws

open Sys2Proof.Machine

/-- `n` bytes of a number are `n` bytes. -/
@[simp] theorem leBytes_length (n v : Nat) : (leBytes n v).length = n := by
  induction n generalizing v with
  | zero => rfl
  | succ n ih => simp [leBytes, ih]

/-- The number in `n` bytes of a number is what fits into them. -/
theorem leNat_leBytes (n v : Nat) : leNat (leBytes n v) = v % 256 ^ n := by
  induction n generalizing v with
  | zero => simp [leBytes, leNat, Nat.mod_one]
  | succ n ih =>
    simp only [leBytes, leNat, ih, BitVec.toNat_ofNat]
    rw [show (2 : Nat) ^ 8 = 256 from rfl, pow_succ', Nat.mod_mul]

/-- A pointer record is read back (R573). -/
theorem readPointer_record (q : BitVec 32) (b : Bool) : readPointer (pointerRecord q b) = some (q, b) := by
  have hd : (pointerRecord q b).take 12 = pointerHead q b := rfl
  have h4 : (pointerRecord q b).take 4 = leBytes 4 0x50544B58 := rfl
  have hc : ((pointerRecord q b).drop 12).take 4 = leBytes 4 (crc32 (pointerHead q b)).toNat := rfl
  have hq : ((pointerRecord q b).drop 4).take 4 = leBytes 4 q.toNat := rfl
  have hs : (pointerRecord q b).getD 8 0 = cond b 1 0 := rfl
  unfold readPointer
  rw [hd, h4, hc, hq, hs, leNat_leBytes, leNat_leBytes]
  have hm : q.toNat % 256 ^ 4 = q.toNat := Nat.mod_eq_of_lt q.isLt
  rw [hm]
  cases b <;> simp

/-- An erased sector holds no record (R573). -/
theorem readPointer_nil : readPointer [] = none := by decide

/-- With the record written and the other sector erased, the slot that it names is active (R573, R587). -/
theorem activeSlot_pointerStage (s : State) (b : Bool) (p : Option (BitVec 32 × Bool × Bool)) (n : Nat) :
    activeSlot { s with flash := pointerStage s.flash p b 3 n } = b := by
  unfold activeSlot pointer pointerStage
  rcases p with _ | ⟨q, c, d⟩
  · simp [readPointer_record, readPointer_nil]
  · cases d <;> simp [readPointer_record, readPointer_nil]

end Sys2Proof.Laws
end

