-- ==== Sys2Proof/Laws/Memory.lean ====
section
/-! SUPPORT. The stored words: every operation on them keeps the canonical form, and what a word reads as after a write. -/

namespace Sys2Proof.Laws

open Sys2Proof.Machine

/-- The canonical form, entry by entry: the numbers of a table always rise. -/
theorem wf_iff (m : Tab StoredWord) : Memory.wf m = true ↔ ∀ e ∈ m.entries, e.2 ≠ blank e.1 := by
  simp only [Memory.wf, m.rising, Bool.true_and, List.all_eq_true, bne_iff_ne, ne_eq]

@[simp] theorem wf_empty : Memory.wf Tab.empty = true := rfl

theorem wf_erase {m : Tab StoredWord} (k : Nat) (h : Memory.wf m = true) : Memory.wf (m.erase k) = true := by
  rw [wf_iff] at h ⊢
  exact fun e he => h e (Tab.mem_strike he)

theorem wf_insert {m : Tab StoredWord} {k : Nat} {v : StoredWord} (hv : v ≠ blank k) (h : Memory.wf m = true) :
    Memory.wf (m.insert k v) = true := by
  rw [wf_iff] at h ⊢
  intro e he
  rcases Tab.mem_place he with rfl | he
  · exact hv
  · exact h e he

theorem wf_put {m : Tab StoredWord} (k : Nat) (v : StoredWord) (h : Memory.wf m = true) :
    Memory.wf (m.put k v (blank k)) = true := by
  unfold Tab.put
  split
  · exact wf_erase k h
  · rename_i hv; exact wf_insert hv h

theorem wf_keep {m : Tab StoredWord} (p : Nat → Bool) (h : Memory.wf m = true) : Memory.wf (m.keep p) = true := by
  rw [wf_iff] at h ⊢
  exact fun e he => h e (List.mem_of_mem_filter he)

/-- Above the control stores an unlisted word is zero with valid check bits. -/
theorem blank_high {k : Nat} (h : 0x60000000 ≤ k) : blank k = StoredWord.clean := by
  unfold blank
  rw [if_neg (by omega), if_neg (by omega)]

@[simp] theorem setMem_wf (s : State) (k : Nat) (w : StoredWord) (h : Memory.wf s.mem = true) :
    Memory.wf (setMem s k w).mem = true := wf_put k w h

@[simp] theorem setFrame_wf (s : State) (n : Nat) (e : FEntry) (h : Memory.wf s.mem = true) :
    Memory.wf (setFrame s n e).mem = true := by
  unfold setFrame
  dsimp only
  split
  · exact h
  · exact wf_erase _ h

@[simp] theorem zeroWords_wf (s : State) (p : Nat → Bool) (h : Memory.wf s.mem = true) :
    Memory.wf (zeroWords s p).mem = true := wf_keep _ h

/-- A word that the device writes to the sump (R101, R348). -/
theorem sumpStore_wf (s : State) (k : Nat) (w : StoredWord) (hk : 0x60000000 ≤ k) (h : Memory.wf s.mem = true) :
    Memory.wf (sumpStore s k w).mem = true := by
  unfold sumpStore
  split
  · exact h
  · rw [← blank_high hk]; exact wf_put k w h

/-- An entry of the error log lands in the sump, and the form holds after it. -/
@[simp] theorem log_wf (s : State) (e : LogEntry) (h : Memory.wf s.mem = true) : Memory.wf (log s e).mem = true := by
  have hk : ∀ n d, 0x60000000 ≤ sumpBase + 6 * (2097152 + 2 * n) + d := fun n d => by simp [sumpBase]; omega
  unfold log
  split
  · exact h
  · have h2 := sumpStore_wf _ _ { data := (e.words s.clock).2 } (hk (rdF s .eccLogHead 0 15).toNat 6)
      (sumpStore_wf s _ { data := (e.words s.clock).1 } (hk (rdF s .eccLogHead 0 15).toNat 0) h)
    dsimp only
    split <;> exact h2

@[simp] theorem reset_wf : Memory.wf State.reset.mem = true := rfl

/-- What a word of a target holds after a write of another or the same word. -/
theorem cellAt_setMem (s : State) (k j : Nat) (w : StoredWord) : cellAt (setMem s k w) j = if j = k then w else cellAt s j := by
  by_cases hj : j = k
  · subst hj; simp [cellAt, setMem]
  · simp [cellAt, setMem, hj, get_put_ne]

@[simp] theorem cellAt_setMem_same (s : State) (k : Nat) (w : StoredWord) : cellAt (setMem s k w) k = w := by
  simp [cellAt_setMem]

theorem cellAt_setMem_ne (s : State) {k j : Nat} (w : StoredWord) (h : j ≠ k) : cellAt (setMem s k w) j = cellAt s j := by
  simp [cellAt_setMem, h]

/-! Reads with the effects of their errors, and writes. -/

/-- What each step of a fold keeps, the fold keeps. -/
theorem foldl_keeps {α β : Type} {P : β → Prop} (f : β → α → β) (l : List α) (hf : ∀ t a, P t → P (f t a)) :
    ∀ s, P s → P (l.foldl f s) := by
  induction l with
  | nil => exact fun _ h => h
  | cons a l ih => exact fun s h => ih _ (hf _ _ h)

@[simp] theorem report_mem (s : State) : (report s).mem = s.mem := by
  have hf : ∀ l : List Nat, (l.foldl (fun t b => sendCan t (.emcy (emcyCode b) (errorRegister (health s)))) s).mem = s.mem :=
    fun l => foldl_keeps (P := fun t : State => t.mem = s.mem) (fun t b => sendCan t (.emcy (emcyCode b) (errorRegister (health s)))) l
      (fun _ _ h => by rw [sendCan_mem]; exact h) s rfl
  simp only [report]
  split
  · rw [sendCan_mem]; exact hf _
  · exact hf _

@[simp] theorem recordRetirement_mem (s : State) (n : Nat) : (recordRetirement s n).mem = s.mem := by
  unfold recordRetirement
  split
  · rfl
  · split
    · rw [report_mem, wrB_mem]
    · rfl

theorem retireTrigger_wf (s : State) (n : Nat) (e : LogEntry) (h : Memory.wf s.mem = true) :
    Memory.wf (retireTrigger s n e).mem = true := by
  simp only [retireTrigger]
  split
  · exact h
  · split
    · split
      · exact h
      · exact log_wf _ _ h
    · split
      · exact log_wf _ _ (by rw [recordRetirement_mem]; exact setFrame_wf _ _ _ h)
      · exact log_wf _ _ (setFrame_wf _ _ _ h)

theorem frameCe_wf (s : State) (n : Nat) (e : LogEntry) (h : Memory.wf s.mem = true) :
    Memory.wf (frameCe s n e).mem = true := by
  simp only [frameCe]
  split
  · exact retireTrigger_wf _ _ _ (setFrame_wf _ _ _ h)
  · exact setFrame_wf _ _ _ h

theorem frameUe_wf (s : State) (n : Nat) (e : LogEntry) (h : Memory.wf s.mem = true) :
    Memory.wf (frameUe s n e).mem = true := by
  have hu : Memory.wf (if (frameAt s n).ecc = 3 then s else setFrame s n { frameAt s n with ecc := 2 }).mem = true := by
    split
    · exact h
    · exact setFrame_wf _ _ _ h
  simp only [frameUe]
  split
  · exact retireTrigger_wf _ _ _ hu
  · exact hu

theorem channelAce_wf (s : State) (n : Nat) (h : Memory.wf s.mem = true) : Memory.wf (channelAce s n).mem = true := by
  simp only [channelAce]
  split
  · rw [report_mem]; exact log_wf _ _ (by simpa using h)
  · exact h

theorem putAt_wf (s : State) (p : Home) (k : Nat) (w : StoredWord) (h : Memory.wf s.mem = true) :
    Memory.wf (putAt s p k w).mem = true := by
  cases p
  · exact setMem_wf _ _ _ h
  · exact h
  · exact h

theorem readCe_wf (s : State) (p : Home) (k : Nat) (m : Byte) (w : StoredWord) (l : BitVec 88) (h : Memory.wf s.mem = true) :
    Memory.wf (readCe s p k m w l).mem = true := by
  have hl := log_wf (bumpF (putAt s p k (w.corrected l)) (.eccCe (p.unit k)) 0 24 1)
    (errorEntry (if popCount l ≤ 1 then 1 else 2) (p.unit k) m k w l) (by rw [bumpF_mem]; exact putAt_wf _ _ _ _ h)
  simp only [readCe]
  split
  · exact frameCe_wf _ _ _ hl
  · exact hl

theorem readUe_wf (s : State) (p : Home) (k : Nat) (m : Byte) (w : StoredWord) (h : Memory.wf s.mem = true) :
    Memory.wf (readUe s p k m w).mem = true := by
  have hl := log_wf (bumpF (putAt s p k .poisoned) (.eccUe (p.unit k)) 0 24 1)
    (errorEntry 3 (p.unit k) m k w 0) (by rw [bumpF_mem]; exact putAt_wf _ _ _ _ h)
  simp only [readUe]
  split
  · exact frameUe_wf _ _ _ hl
  · exact hl

theorem readAce_wf (s : State) (p : Home) (k : Nat) (m : Byte) (w : StoredWord) (h : Memory.wf s.mem = true) :
    Memory.wf (readAce s p k m w).mem = true := by
  have hl := log_wf (bumpF s (.eccAce (p.unit k)) 0 24 1) (errorEntry 4 (p.unit k) m k w 0) (by rw [bumpF_mem]; exact h)
  simp only [readAce]
  split
  · exact channelAce_wf _ _ hl
  · exact hl

theorem decodeRead_wf (s : State) (p : Home) (k : Nat) (m : Byte) (w : StoredWord) (h : Memory.wf s.mem = true) :
    Memory.wf (decodeRead s p k m w).2.mem = true := by
  unfold decodeRead
  split
  · exact h
  · exact readCe_wf _ _ _ _ _ _ h
  · exact readAce_wf _ _ _ _ _ h
  · exact h
  · exact readUe_wf _ _ _ _ _ h

theorem readTarget_wf (s : State) (k : Nat) (m : Byte) (h : Memory.wf s.mem = true) :
    Memory.wf (readTarget s k m).2.mem = true := by
  unfold readTarget
  split
  · exact h
  · split <;> exact decodeRead_wf _ _ _ _ _ h

/-- A read of a word keeps the form, whatever errors it meets. -/
theorem readWord_wf (s : State) (k : Nat) (m : Byte) (h : Memory.wf s.mem = true) :
    Memory.wf (readWord s k m).2.mem = true := by
  unfold readWord
  split
  · exact decodeRead_wf _ _ _ _ _ h
  · exact readTarget_wf _ _ _ h

@[simp] theorem clearReservations_mem (s : State) (k : Nat) : (clearReservations s k).mem = s.mem := rfl

theorem storeWhole_wf (s : State) (k : Nat) (w : StoredWord) (h : Memory.wf s.mem = true) :
    Memory.wf (storeWhole s k w).mem = true := by
  unfold storeWhole
  split <;> exact wf_put _ _ h

theorem storeTarget_wf (s : State) (k : Nat) (w : StoredWord) (h : Memory.wf s.mem = true) :
    Memory.wf (storeTarget s k w).mem = true := by
  unfold storeTarget
  split
  · exact h
  · exact storeWhole_wf _ _ _ h

theorem cachesFollow_wf (s : State) (k : Nat) (mask d : Word72) (m : Byte) (h : Memory.wf s.mem = true) :
    Memory.wf (cachesFollow s k mask d m).mem = true := by
  simp only [cachesFollow]
  split
  · exact h
  · split
    · exact h
    · split <;> exact decodeRead_wf _ _ _ _ _ (by exact h)

/-- A write of a word, whole or merged, keeps the form. -/
theorem writeMasked_wf (s : State) (k : Nat) (mask d : Word72) (m : Byte) (h : Memory.wf s.mem = true) :
    Memory.wf (writeMasked s k mask d m).mem = true := by
  have h1 : Memory.wf (if cacheable k then cachesFollow (clearReservations s k) k mask d m else clearReservations s k).mem = true := by
    split
    · exact cachesFollow_wf _ _ _ _ _ h
    · exact h
  have key : ∀ u : State, Memory.wf u.mem = true →
      Memory.wf (if failedAt u k then bumpF u (.eccUe (channelOf k)) 0 24 1
        else if mask = BitVec.allOnes 72 then storeWhole u k { data := d }
        else match readTarget u k m with
          | (w, s2) => if w.poison then s2 else setMem s2 k { data := maskInto w.data mask d }).mem = true := by
    intro u hu
    split
    · exact hu
    · split
      · exact storeWhole_wf _ _ _ hu
      · have hr := readTarget_wf u k m hu
        dsimp only
        split
        · exact hr
        · exact wf_put _ _ hr
  unfold writeMasked
  by_cases hz : mask = 0
  · rw [if_pos hz]; exact h
  · rw [if_neg hz]; exact key _ h1

theorem writeWord_wf (s : State) (k : Nat) (mask : BitVec 6) (d : Word72) (m : Byte) (h : Memory.wf s.mem = true) :
    Memory.wf (writeWord s k mask d m).mem = true := writeMasked_wf _ _ _ _ _ h

theorem writePoison_wf (s : State) (k : Nat) (h : Memory.wf s.mem = true) : Memory.wf (writePoison s k).mem = true := by
  unfold writePoison
  refine storeTarget_wf _ _ _ ?_
  split <;> exact h

theorem poisonUsed_wf (s : State) (k : Nat) (b : Bool) (m : Byte) (h : Memory.wf s.mem = true) :
    Memory.wf (poisonUsed s k b m).mem = true := log_wf _ _ h

theorem discardFrame_wf (s : State) (n : Nat) (h : Memory.wf s.mem = true) : Memory.wf (discardFrame s n).mem = true := h

theorem readEntry_wf (s : State) (n : Nat) (m : Byte) (h : Memory.wf s.mem = true) : Memory.wf (readEntry s n m).mem = true := by
  have hr := readTarget_wf s (sumpBase + 6 * n) m h
  simp only [readEntry]
  split
  · exact log_wf _ _ (discardFrame_wf _ _ hr)
  · exact hr

theorem readCopy_wf (s : State) (n : Nat) (b : Bool) (m : Byte) (w : StoredWord) (h : Memory.wf s.mem = true) :
    Memory.wf (readCopy s n b m w).2.mem = true := decodeRead_wf _ _ _ _ _ h

theorem readLocked_wf (s : State) (n : Nat) (m : Byte) (p : StoredWord × StoredWord) (b : Bool) (h : Memory.wf s.mem = true) :
    Memory.wf (readLocked s n m p b).mem = true := by
  unfold readLocked
  have h1 := readCopy_wf s n false m p.1 h
  split
  · rename_i s1 e
    rw [e] at h1
    split
    · have h2 := readCopy_wf s1 n true m p.2 h1
      split
      · rename_i e; rw [e] at h2; exact h2
      · rename_i e; rw [e] at h2; exact h2
    · exact h1
  · rename_i s1 e
    rw [e] at h1
    have h2 := readCopy_wf s1 n true m p.2 h1
    split
    · rename_i e; rw [e] at h2; exact h2
    · rename_i e; rw [e] at h2; exact readEntry_wf _ _ _ h2

theorem lookupFrame_wf (s : State) (n : Nat) (m : Byte) (h : Memory.wf s.mem = true) :
    Memory.wf (lookupFrame s n m).mem = true := by
  unfold lookupFrame
  split
  · exact h
  · split
    · exact readLocked_wf _ _ _ _ _ h
    · split
      · rename_i l _
        have h1 := readCopy_wf s n false m l.copy h
        split
        · rename_i e; rw [e] at h1; exact h1
        · rename_i e; rw [e] at h1; exact readEntry_wf _ _ _ h1
      · exact readEntry_wf _ _ _ h

/-- The check of an access with its frame-table lookup keeps the form. -/
theorem checked_wf (s : State) (w : Who) (a : Nat) (k : Kind) (h : Memory.wf s.mem = true) :
    Memory.wf (checked s w a k).2.mem = true := by
  simp only [checked, lookup]
  split
  · exact lookupFrame_wf _ _ _ h
  · exact h

/-- A choice by region among three results keeps what each of them keeps. -/
theorem region_choice {α : Type} {P : α → Prop} {o : Option Region} {x y z : α} (hx : P x) (hy : P y) (hz : P z) :
    P (match o with | some .window => x | some .controlStore => y | _ => z) := by
  split <;> assumption

theorem fetchWord_wf (s : State) (a : Nat) (m : Byte) (h : Memory.wf s.mem = true) :
    Memory.wf (fetchWord s a m).2.mem = true := by
  have hr := readWord_wf s (wordBase (remapped s a)) m h
  unfold fetchWord
  exact region_choice (P := fun w : Word × State => Memory.wf w.2.mem = true) h hr hr

/-! The caches (R146 to R149, R346 to R349). -/

theorem readMany_wf (f : State → Nat → Word × State) (hf : ∀ t k, Memory.wf t.mem = true → Memory.wf (f t k).2.mem = true) :
    ∀ (l : List Nat) (s : State), Memory.wf s.mem = true → Memory.wf (readMany f l s).2.mem = true
  | [], _, h => h
  | k :: t, s, h => readMany_wf f hf t _ (hf s k h)

theorem writeBack_wf (s : State) (l : L2Line) (h : Memory.wf s.mem = true) : Memory.wf (writeBack s l).mem = true :=
  foldl_keeps (P := fun t : State => Memory.wf t.mem = true) _ _
    (fun _ _ ht => storeTarget_wf _ _ _ (decodeRead_wf _ _ _ _ _ ht)) s h

theorem evict_wf (s : State) (a w : Nat) (h : Memory.wf s.mem = true) : Memory.wf (evict s a w).mem = true := by
  unfold evict
  split
  · exact h
  · dsimp only
    split
    · exact writeBack_wf _ _ h
    · exact h

theorem fillWord_wf (s : State) (k : Nat) (m : Byte) (h : Memory.wf s.mem = true) : Memory.wf (fillWord s k m).2.mem = true := by
  unfold fillWord
  split
  · exact h
  · exact readTarget_wf _ _ _ h

theorem fillL2_wf (s : State) (a : Nat) (m : Byte) (h : Memory.wf s.mem = true) : Memory.wf (fillL2 s a m).mem = true := by
  have hr := readMany_wf (fun t k => fillWord t k m) (fun t k ht => fillWord_wf t k m ht) (lineKeys (lineOf a)) s h
  unfold fillL2
  split
  · exact h
  · dsimp only
    split
    · exact hr
    · exact evict_wf _ _ _ hr

theorem crcMismatch_wf (s : State) (c : Nat) (f : Bool) (l : L1Line) (m : Byte) (h : Memory.wf s.mem = true) :
    Memory.wf (crcMismatch s c f l m).mem = true := by
  have h1 : ∀ e, Memory.wf (log (bumpF s (.eccCe (l1Unit c f)) 0 24 1) e).mem = true := fun e => log_wf _ _ h
  simp only [crcMismatch]
  split
  · exact h1 _
  · exact log_wf _ _ (h1 _)

theorem readL2_wf (s : State) (k : Nat) (m : Byte) (h : Memory.wf s.mem = true) : Memory.wf (readL2 s k m).2.mem = true :=
  decodeRead_wf _ _ _ _ _ h

theorem l1Miss_wf (s : State) (c : Nat) (f : Bool) (a : Nat) (m : Byte) (h : Memory.wf s.mem = true) :
    Memory.wf (l1Miss s c f a m).2.mem = true := by
  have hr := readMany_wf (fun t k => readL2 t k m) (fun t k ht => readL2_wf t k m ht) (lineKeys (lineOf a)) _ (fillL2_wf s a m h)
  simp only [l1Miss]
  exact hr

theorem l1Read_wf (s : State) (c : Nat) (f : Bool) (a : Nat) (m : Byte) (h : Memory.wf s.mem = true) :
    Memory.wf (l1Read s c f a m).2.mem = true := by
  unfold l1Read
  split
  · exact l1Miss_wf _ _ _ _ _ h
  · split
    · exact h
    · exact l1Miss_wf _ _ _ _ _ (crcMismatch_wf _ _ _ _ _ h)

theorem cachedRead_wf (s : State) (c a : Nat) (m : Byte) (h : Memory.wf s.mem = true) :
    Memory.wf (cachedRead s c a m).2.mem = true := l1Read_wf _ _ _ _ _ h

theorem cachedWrite_wf (s : State) (c a : Nat) (mask d : Word72) (m : Byte) (h : Memory.wf s.mem = true) :
    Memory.wf (cachedWrite s c a mask d m).mem = true := by
  have h1 := fillL2_wf (clearReservations s (wordBase a)) a m h
  have h2 := decodeRead_wf _ .l2 (wordBase a) m
    (((fillL2 (clearReservations s (wordBase a)) a m).store.l2Word (wordBase a)).getD {}) h1
  simp only [cachedWrite]
  split
  · exact h
  · by_cases hm : mask = BitVec.allOnes 72
    · simp only [hm, if_true]
      split <;> exact h1
    · simp only [hm, if_false]
      split <;> exact h2

/-- A read by any master keeps the form. -/
theorem accessWord_wf (s : State) (w : Who) (a : Nat) (h : Memory.wf s.mem = true) :
    Memory.wf (accessWord s w a).2.mem = true := by
  unfold accessWord
  split
  · exact cachedRead_wf _ _ _ _ h
  · exact fetchWord_wf _ _ _ h

/-- A write by any master keeps the form. -/
theorem putWord_wf (s : State) (w : Who) (a : Nat) (mask : BitVec 6) (d : Word72) (h : Memory.wf s.mem = true) :
    Memory.wf (putWord s w a mask d).mem = true := by
  unfold putWord
  split
  · exact cachedWrite_wf _ _ _ _ _ _ h
  · exact writeWord_wf _ _ _ _ _ h

theorem flushLines_wf (s : State) (p : Nat → Bool) (h : Memory.wf s.mem = true) : Memory.wf (flushLines s p).mem = true :=
  foldl_keeps (P := fun t : State => Memory.wf t.mem = true) _ _
    (fun t e ht => by
      show Memory.wf (if e.2.dirty && p e.2.line then writeBack t e.2 else t).mem = true
      split
      · exact writeBack_wf _ _ ht
      · exact ht) s h

end Sys2Proof.Laws
end

