-- ==== Sys2Proof/Laws/Run.lean ====
section
/-! SUPPORT. What running one instruction comes to, once it issues, and what completing does to the core. -/

namespace Sys2Proof.Laws

open Sys2Proof.Machine

/-- The rules of place see only the kind and the count (R387, R394, R401). -/
theorem placeIllegal_info (s : State) (c : Nat) (i : InsInfo) :
    placeIllegal s c i = placeIllegal s c (placeInfo i.kind (i.cost s)) := rfl

/-- An instruction that issues runs its effect, and its end follows. -/
theorem runIns_issues {c : Core} {i : InsInfo} {body : State → Res} {s u : State} (h : Issues i.kind (i.cost u) s u c)
    (hl : i.legal = true) (hs : i.sup = true → (ctxOf u c).sup = true) (hr : i.reads u = u := by rfl) (ha : i.allowed u = true := by rfl) :
    runIns c i body s = .next (finish s c (effect u c i body)) := by
  have hp : placeIllegal u c i = false := (placeIllegal_info u c i).trans h.placed
  have hsup : ¬ (i.sup = true ∧ ¬ (ctxOf u c).sup = true) := fun ⟨a, b⟩ => b (hs a)
  unfold runIns runCore
  simp only [h.runs, h.fetched, not_true_eq_false, if_false, hr]
  unfold decoded
  rw [if_neg (by simp [h.chain]), if_neg (by simp [hl, hp, ha]), if_neg hsup]

/-- A stream instruction joins the open chain. -/
theorem runIns_stream {c : Core} {x : SIns} {i : InsInfo} {body : State → Res} {s u : State} (h : IssuesStream x s u c)
    (hk : i.kind = .stream) (hc : i.cost u = some 1) (hr : i.reads = entryReads c x) (ha : i.allowed u = true) (hl : i.legal = true)
    (hs : i.sup = false) :
    runIns c i body s = .next (finish s c (effect u c i body)) := by
  have hp : placeIllegal u c i = false := by
    rw [placeIllegal_info, hk, hc]; exact h.placed
  obtain ⟨v, hv, hu⟩ := h.fetched
  unfold runIns runCore
  simp only [h.runs, hv, not_true_eq_false, if_false, hr, hu]
  unfold decoded
  rw [if_neg (by simp [hk]), if_neg (by simp [hl, hp, ha]), if_neg (by simp [hs])]

/-- An effect that names no lazy state. -/
theorem effect_plain {s : State} {c : Nat} {i : InsInfo} {body : State → Res} (h : i.fills = false) :
    effect s c i body = body s := by simp [effect, h]

/-- An effect that names lazy state, after the fill (R427); no interrupt takes its delay slot (R382). -/
theorem effect_filled {s w : State} {c : Nat} {i : InsInfo} {body : State → Res} (h : i.fills = true) (hc : (ctxOf s c).chain = [])
    (hf : lazyFill s c = .ok () w) (hq : c = 4 → fillDue s 4 = true → slotIrq s = none) : effect s c i body = body w := by
  have hn : (if c = 4 ∧ fillDue s c = true then slotIrq s else none) = none := by
    split
    · rename_i hh; obtain ⟨rfl, h2⟩ := hh; exact hq rfl h2
    · rfl
  simp [effect, h, hc, hf, hn]

/-- An effect within an open chain, which triggers no fill. -/
theorem effect_chained {s : State} {c : Nat} {i : InsInfo} {body : State → Res} (h : i.kind = .stream)
    (hc : (ctxOf s c).chain ≠ []) : effect s c i body = body s := by
  simp [effect, h, hc]

/-- One value for Gd. -/
theorem runAlu_issues {c : Core} {i : Instr} {cost : Option Nat} {d : Reg} {f : State → W48} {s u : State}
    (h : Issues .plain cost s u c) (hl : i.wellFormed = true) :
    runAlu c i cost d f s = .next (completes (setG u c d (f u)) c) := by
  unfold runAlu
  rw [runIns_issues (u := u) h hl (by simp), effect_plain rfl]
  rfl

/-- An instruction that is fetched goes to its legality, place and level, whatever they say. -/
theorem runIns_fetched {c : Core} {s u : State} (i : InsInfo) (body : State → Res) (hr : coreRuns s c = true)
    (hu : fetchIns s c = .ok () u) :
    runIns c i body s = .next (decoded s (i.reads u) c i body) := by
  unfold runIns runCore
  simp [hr, hu]

/-- An instruction outside the stream that meets an open chain breaks it (R222, R265). -/
theorem decoded_broken {s u : State} {c : Nat} {i : InsInfo} {body : State → Res} (hk : i.kind ≠ .stream)
    (hc : (ctxOf u c).chain ≠ []) : decoded s u c i body = trapTo s u c (vectorIssue 0x0B) := by
  unfold decoded
  rw [if_pos ⟨hk, hc⟩]

/-- An instruction that is illegal where it stands. -/
theorem decoded_illegal {s u : State} {c : Nat} {i : InsInfo} {body : State → Res} (hc : (ctxOf u c).chain = [])
    (hi : i.legal = false ∨ i.allowed u = false ∨ placeIllegal u c i = true) : decoded s u c i body = trapTo s u c illegal := by
  unfold decoded
  rw [if_neg (by simp [hc]), if_pos (by simpa using hi)]

/-- A privileged instruction below supervisor level (R312). -/
theorem decoded_privilege {s u : State} {c : Nat} {i : InsInfo} {body : State → Res} (hc : (ctxOf u c).chain = [])
    (hl : i.legal = true) (ha : i.allowed u = true) (hp : placeIllegal u c i = false) (hs : i.sup = true) (hu : (ctxOf u c).sup = false) :
    decoded s u c i body = trapTo s u c privilege := by
  unfold decoded
  rw [if_neg (by simp [hc]), if_neg (by simp [hl, hp, ha]), if_pos (by simp [hs, hu])]

/-- An instruction that names no lazy state issues and completes. -/
theorem runIns_done {c : Core} {i : InsInfo} {body : State → Res} {s u t : State} (h : Issues i.kind (i.cost u) s u c)
    (hl : i.legal = true) (hs : i.sup = true → (ctxOf u c).sup = true) (hf : i.fills = false) (hb : body u = .done t)
    (hr : i.reads u = u := by rfl) (ha : i.allowed u = true := by rfl) :
    runIns c i body s = .next (completes t c) := by
  rw [runIns_issues h hl hs hr ha, effect_plain hf, hb]
  rfl

/-- An instruction that names lazy state issues and completes. -/
theorem runIns_done_lazy {c : Core} {i : InsInfo} {body : State → Res} {s u w t : State} (h : IssuesLazy i.kind (i.cost u) s u w c)
    (hl : i.legal = true) (hs : i.sup = true → (ctxOf u c).sup = true) (hf : i.fills = true) (hb : body w = .done t)
    (hr : i.reads u = u := by rfl) (ha : i.allowed u = true := by rfl) :
    runIns c i body s = .next (completes t c) := by
  rw [runIns_issues h.issues hl hs hr ha, effect_filled hf h.issues.chain h.filled h.quiet, hb]
  rfl

end Sys2Proof.Laws
end

