-- ==== Sys2Proof/Tests/Slice0.lean ====
section
/-! SUPPORT. Tests: results that the spec itself works out, one ill-formed term for each check of WellFormed, and for each statement with
hypotheses a state that meets them. -/

namespace Sys2Proof.Tests

open Sys2Proof.Machine

set_option maxRecDepth 8000

/-! ### States -/

/-- Registers take values. -/
def withRegs (s : State) (l : List (Rg × Reg24)) : State := l.foldl (fun t x => wr t x.1 x.2) s

/-- RUN, with core 0 running bank 4, and cistern 0 ON and owned by the safety world of partition 0. -/
def base : State := withRegs State.reset [(.modStat, 6), (.capStat 0, 16), (.cisStat 0, 0), (.cisOwner 0, 1)]

/-- The state after the instruction at PC is fetched; once its line is held a fetch changes nothing. -/
def fetched (s : State) (c : Core) : State :=
  match fetchIns s c with
  | .ok _ t => t
  | _ => s

/-- Core 0 runs safety-world supervisor code in cistern 0, with stacks there and a shadow stack in frame 0; G1 is 0x1000_0600, G2 is −3, G4 a
negative decimal. -/
def scalarAt : State := fetched (setCtx (setFrame base 0 { owner := 1, rights := 0xE00 }) 0 { ctxOf base 0 with
  pc := 0x10000000, stw := 0x3000, dspU := 0x10001200, dspS := 0x10001800, rspS := 0x10003000, ssp := 0x100000258,
  g := Tab.empty |>.insert 1 0x10000600 |>.insert 2 0xFFFFFFFFFFFD |>.insert 4 0x00000000345D }) 0

/-- The same core at a return address: both stacks hold 0x1000_0040. -/
def returning : State := setMem (setMem scalarAt 0x10003000 { data := 0x10000040 }) 0x100000258 { data := 0x10000040 }

/-- Lifeline ENABLED at level 8 in its local store. -/
def lifelineAt : State :=
  let s := { withRegs State.reset [(.modStat, 6), (.llStat, 2)] with fw := { lifeline := some (0x1C01800000, 64, 32) } }
  setCtx s 4 { ctxOf s 4 with pc := 0x60000000, stw := 0x3000 }

/-! ### Witnesses: the conditions of the statements can be met -/

/-- Core 0 issues any instruction that may stand at its place. -/
theorem issues_scalar (k : InsKind) (n : Option Nat) (h : placeIllegal scalarAt 0 (placeInfo k n) = false) : Issues k n scalarAt scalarAt 0 :=
  ⟨by decide, by decide +kernel, by decide, h⟩

/-- So does the lifeline core. -/
theorem issues_lifeline (k : InsKind) (n : Option Nat) (h : placeIllegal lifelineAt 4 (placeInfo k n) = false) : Issues k n lifelineAt lifelineAt 4 :=
  ⟨by decide, by decide +kernel, by decide, h⟩

theorem issues_lazy (k : InsKind) (n : Option Nat) (h : placeIllegal scalarAt 0 (placeInfo k n) = false) : IssuesLazy k n scalarAt scalarAt scalarAt 0 :=
  ⟨issues_scalar k n h, rfl, by decide⟩

theorem witness_StepRunsFront : ({ State.reset with pending := [.refresh 0] } : State).pending = .refresh 0 :: [] := rfl

theorem witness_StoppedCoreKeepsState : (Instr.wait 0).core? = some 0 ∧ coreRuns State.reset (0 : Core) = false := by decide

theorem witness_IntegerResults : Issues .plain (some 1) scalarAt scalarAt 0 := issues_scalar _ _ (by decide)

theorem witness_WideArithmetic : Issues .plain (some 2) scalarAt scalarAt 0 ∧ (Issues .plain (some 3) scalarAt scalarAt 0 ∧ (2 : Reg).val % 2 = 0) ∧
    Issues .plain none scalarAt scalarAt 0 :=
  ⟨issues_scalar _ _ (by decide), ⟨issues_scalar _ _ (by decide), rfl⟩, issues_scalar _ _ (by decide)⟩

theorem witness_ImmediateResults : Issues .plain (some 1) scalarAt scalarAt 0 ∧ (63 : BitVec 20).toNat < 64 ∧ (0x3FFFF : BitVec 30).toNat < 2 ^ 18 :=
  ⟨issues_scalar _ _ (by decide), by decide, by decide⟩

/-- The word at 0x1000_0600 is loaded and stored in every size. -/
theorem witness_LoadResults :
    (∀ n ∈ [1, 2, 4, 6], Issues .plain (accessCost scalarAt 0x10000600 n false) scalarAt scalarAt 0) ∧
    (∀ n ∈ [2, 4], IssuesLazy .plain (accessCost scalarAt 0x10000600 n false) scalarAt scalarAt scalarAt 0) ∧
    ((getG scalarAt 0 1).toNat + (BitVec.ofInt 48 (0 : BitVec 20).toInt).toNat) % 2 ^ 40 = 0x10000600 ∧
    (∃ t, loadAligned scalarAt 0 0x10000600 1 = .ok 0 t) ∧ (∃ t, loadAligned scalarAt 0 0x10000600 2 = .ok 0 t) ∧
    (∃ t, loadAligned scalarAt 0 0x10000600 4 = .ok 0 t) ∧ (∃ t, loadAligned scalarAt 0 0x10000600 6 = .ok 0 t) :=
  ⟨fun n h => issues_scalar _ _ (by revert n; decide), fun n h => issues_lazy _ _ (by revert n; decide), by decide, ⟨_, rfl⟩, ⟨_, rfl⟩, ⟨_, rfl⟩, ⟨_, rfl⟩⟩

theorem witness_StoreResults :
    (∀ n ∈ [1, 2, 4, 6], Issues .plain (accessCost scalarAt 0x10000600 n true) scalarAt scalarAt 0) ∧
    (∃ t, storeAligned scalarAt 0 0x10000600 1 0xFFD = .ok () t) ∧ (∃ t, storeAligned scalarAt 0 0x10000600 2 0xFFFFFD = .ok () t) ∧
    (∃ t, storeAligned scalarAt 0 0x10000600 4 0xFFFFFFFFFFFD = .ok () t) ∧
    (∃ t, storeAligned scalarAt 0 0x10000600 6 0xFFFFFFFFFFFD = .ok () t) :=
  ⟨fun n h => issues_scalar _ _ (by revert n; decide), ⟨_, rfl⟩, ⟨_, rfl⟩, ⟨_, rfl⟩, ⟨_, rfl⟩⟩

/-- LDL and STC on the word at 0x1000_0600, with the reservation and without. -/
theorem witness_LinkedAccess :
    let held := setCore scalarAt 0 { coreOf scalarAt 0 with reservation := some 0x10000600 }
    (pumpRegion 0x10000600).isSome = true ∧ plyInWord 0x10000600 = 0 ∧ (∃ t, coreLoad scalarAt 0 0x10000600 4 = .ok 0 t) ∧
    Issues .plain (accessCost held 0x10000600 4 true) held held 0 ∧ (coreOf held 0).reservation = some (0x10000600 - plyInWord 0x10000600) ∧
    (∃ t, coreStore held 0 0x10000600 4 5 = .ok () t) ∧ (coreOf scalarAt 0).reservation ≠ some 0x10000600 ∧
    waitsFor scalarAt 0 0x10000600 4 .write = false :=
  ⟨rfl, rfl, ⟨_, rfl⟩, ⟨by decide, by decide +kernel, by decide, by decide⟩, by decide, ⟨_, rfl⟩, by decide, by decide⟩

theorem witness_StackPointers :
    (∃ t, storeAligned scalarAt 0 ((ctxOf scalarAt 0).dspS - 4).toNat 4 5 = .ok () t) ∧
    (∃ t, loadAligned scalarAt 0 (ctxOf scalarAt 0).dspS.toNat 4 = .ok 0 t) ∧ bit (ctxOf scalarAt 0).stw 12 = true ∧ bit (ctxOf scalarAt 0).stw 13 = true :=
  ⟨⟨_, rfl⟩, ⟨_, rfl⟩, by decide, by decide⟩

theorem witness_BranchesAndCalls :
    Issues .branch (some 1) scalarAt scalarAt 0 ∧ Issues .branch ((accessCost scalarAt 0x10002FFA 6 true).map (· + 1)) scalarAt scalarAt 0 ∧
    (∃ t, pushReturn scalarAt 0 0x10000004 = .ok () t) ∧ (∃ t, popReturn returning 0 = .ok 0x10000040 t) ∧
    (BitVec.ofNat 40 (getG scalarAt 0 1).toNat).toNat % 4 = 0 ∧ (BitVec.ofNat 40 (getG scalarAt 0 2).toNat).toNat % 4 ≠ 0 ∧
    Issues .branch ((accessCost returning 0x10003000 6 false).map (· + 1)) returning returning 0 :=
  ⟨issues_scalar _ _ (by decide), issues_scalar _ _ (by decide), ⟨_, rfl⟩, ⟨_, rfl⟩, by decide, by decide,
    ⟨by decide, by decide +kernel, by decide, by decide⟩⟩

theorem witness_LoopInstructions : Issues .loopOp (some 1) lifelineAt lifelineAt 4 ∧ (coreOf lifelineAt 4).loops.length < 3 ∧
    Issues .plain (some 1) lifelineAt lifelineAt 4 :=
  ⟨issues_lifeline _ _ (by decide), by decide, issues_lifeline _ _ (by decide)⟩

theorem witness_FloatResults : IssuesLazy .plain (some 3) scalarAt scalarAt scalarAt 0 ∧ IssuesLazy .plain (some 8) scalarAt scalarAt scalarAt 0 ∧
    (7 : BitVec 3) ≠ 5 ∧ (7 : BitVec 3) ≠ 6 := ⟨issues_lazy _ _ (by decide), issues_lazy _ _ (by decide), by decide, by decide⟩

theorem witness_FloatConversions : IssuesLazy .plain (some 1) scalarAt scalarAt scalarAt 0 ∧ IssuesLazy .plain (some 2) scalarAt scalarAt scalarAt 0 :=
  ⟨issues_lazy _ _ (by decide), issues_lazy _ _ (by decide)⟩

theorem sound_scalarAt : MicrocodeSound scalarAt := by
  have e : scalarAt.mem.entries = [] := rfl
  intro x h
  simp [e] at h

/-- Operands that are valid, and one that is not. -/
theorem witness_DecimalResults : (99999999999 : Int).natAbs ≤ 99999999999 ∧ Issues .plain none scalarAt scalarAt 0 ∧ MicrocodeSound scalarAt ∧
    invalidK48 (getG scalarAt 0 4) = none ∧ invalidK48 0x1 ≠ none :=
  ⟨by decide, issues_scalar _ _ (by decide), sound_scalarAt, by decide, by decide⟩

/-- Descriptor of `n` elements of type 3 (I24) at a ply address, stride 1. -/
def desc (a : Addr) (n : BitVec 36) : BitVec 144 := n ++ (1 : BitVec 36) ++ (0 : BitVec 28) ++ (3 : BitVec 4) ++ a

/-- As `scalarAt`, with three vectors of 4 elements in cistern 0, with counts in G5 and G6, and a share of the pumps. -/
def vectorAt : State :=
  let s := withRegs scalarAt [(.pmpShare, 0xFFFFFF)]
  let x := (((ctxOf s 0).setVdr 0 (desc 0x10000600 4)).setVdr 1 (desc 0x10000700 4)).setVdr 2 (desc 0x10000800 4)
  setCtx s 0 { x with g := (x.g.insert 6 1).insert 7 127 }

/-- VADD of VD0 and VD1 into VD2 of type I24, CH as asked. -/
def sampleFields (ch : Bool) : StreamFields := { dst := 2, sa := 0, sb := 1, sc := 31, ch, ot := 3, msk := 0, sat := false, mreg := 31 }

theorem sound_vectorAt : MicrocodeSound vectorAt := by
  have e : vectorAt.mem.entries = [] := rfl
  intro x h
  simp [e] at h

theorem issues_vector (k : InsKind) (n : Option Nat) (h : placeIllegal vectorAt 0 (placeInfo k n) = false) : Issues k n vectorAt vectorAt 0 :=
  ⟨by decide, by decide +kernel, by decide, h⟩

theorem lazy_vector (k : InsKind) (n : Option Nat) (h : placeIllegal vectorAt 0 (placeInfo k n) = false) :
    IssuesLazy k n vectorAt vectorAt vectorAt 0 := ⟨issues_vector k n h, rfl, by decide⟩

/-- A count of 0 in G5, and of 1 in G6, with accesses that succeed. -/
theorem witness_BlockRepeat : Issues .plain none vectorAt vectorAt 0 ∧ getG vectorAt 0 5 = 0 ∧ getG vectorAt 0 6 = 1 ∧
    (coreOf vectorAt 0).stepping = false ∧
    (match loadAligned vectorAt 0 0x10000600 6 with
     | .ok v t => decide (v = 0) && (match storeAligned t 0 0x10000600 6 0 with
       | .ok _ z => decide ((ctxOf z 0).g = (ctxOf vectorAt 0).g ∧ coreOf z 0 = coreOf vectorAt 0)
       | _ => false)
     | _ => false) = true :=
  ⟨issues_vector _ _ (by decide), by decide, by decide, by decide, by decide⟩

theorem witness_SystemResults : Issues .plain (some 1) vectorAt vectorAt 0 ∧ Issues .setmode (some 1) vectorAt vectorAt 0 ∧
    Issues .wait none vectorAt vectorAt 0 ∧ Issues .plain (some 2) vectorAt vectorAt 0 ∧ (ctxOf vectorAt 0).sup = true ∧
    (ctxOf vectorAt 0).inXcall = false ∧ bits (getG vectorAt 0 7) 8 2 = (0 : BitVec 2) ∧ (bits (getG vectorAt 0 7) 0 7).toNat = 127 ∧
    (bits (getG vectorAt 0 6) 0 7).toNat < 32 ∧
    mayReachBank (setCore vectorAt 0 { coreOf vectorAt 0 with bankwin := 2 }) 0 2 = true ∧ bit (rd vectorAt .dbgCtl) 8 = false :=
  ⟨issues_vector _ _ (by decide), issues_vector _ _ (by decide), issues_vector _ _ (by decide), issues_vector _ _ (by decide), by decide, by decide,
    by decide, by decide, by decide, by decide, by decide⟩

/-- A frame of zeros at 0x1000_0600, which ERET reads. -/
def inHandler : State := setCtx vectorAt 0 { ctxOf vectorAt 0 with xfp := 0x10000600 }

theorem witness_ReturnFromException : ∃ l t, Issues .eret (some 10) inHandler inHandler 0 ∧ (ctxOf inHandler 0).lz = false ∧
    loadWords inHandler (coreWho inHandler 0) (ctxOf inHandler 0).xfp.toNat 16 0 = .ok l t ∧ bits (l.getD 0 0) 40 8 ≠ (0x1E : BitVec 8) ∧
    (ctxOf t 0).lz = false :=
  ⟨_, _, ⟨by decide, by decide +kernel, by decide, by decide⟩, by decide, rfl, by decide, by decide⟩

/-- Gate 0 of the application world of partition 0 lies in cistern 1, and lets supervisor callers in. -/
def gateAt : State :=
  let s := withRegs vectorAt [(.cisStat 1, 0), (.cisOwner 1, 0), (.capGate 0 0, 0x1030), (.capGcnt 0 0, 1)]
  setMem (setMem s 0x10300000 { data := 0x5_0010300100 }) 0x10300006 { data := 0x0100_001030EA60 }

/-- The callee's side of such a call: a frame that XCALL has written. -/
def gateBack : State :=
  let s := setMem vectorAt 0x10000600 { data := 0x1E_0000000000 }
  setCtx s 0 { ctxOf s 0 with xfp := 0x10000600, xc := 0x010010000040 }

/-- The two words of the gate are read, and the frame of the callee is written. -/
theorem witness_GateCallsAndReturns :
    (match loadWords gateAt (gateWho gateAt 0 false) (gateTable gateAt 0 false + 12 * 0) 2 0 with
     | .ok l t => l == [0x5_0010300100, 0x0100_001030EA60] &&
       (match storeWords t (gateWho gateAt 0 false) (0x1030EA60 - BitVec.ofNat 40 (6 * 256 * (32 * 0 + bankOf t 0)) - 480 : Addr).toNat
         (frameWords (ctxOf gateAt 0) [] { cause := 0x1E } ((ctxOf gateAt 0).pc + 4) none) 0 with
        | .ok _ z => decide (ctxOf z 0 = ctxOf gateAt 0)
        | _ => false)
     | _ => false) = true ∧ bit (0x5_0010300100 : Word72) 40 = true ∧ bit (0x5_0010300100 : Word72) 42 = true ∧
    (bits (0x0100_001030EA60 : Word72) 40 16).toNat = 256 ∧ placeIllegal gateAt 0 (placeInfo .plain none) = false := by decide

theorem witness_GateReturns : ∃ l t, loadWords gateBack (coreWho gateBack 0) (ctxOf gateBack 0).xfp.toNat 1 0 = .ok l t ∧
    bits (l.getD 0 0) 40 8 = (0x1E : BitVec 8) ∧ (ctxOf t 0).lz = false ∧ Issues .plain none gateBack gateBack 0 ∧ (ctxOf gateBack 0).inXcall = true :=
  ⟨_, _, rfl, by decide, by decide, ⟨by decide, by decide +kernel, by decide, by decide⟩, by decide⟩

theorem streams_vector : IssuesStream ⟨0xC0, 0, sampleFields true⟩ vectorAt vectorAt 0 :=
  ⟨by decide, ⟨vectorAt, by decide +kernel, rfl⟩, by decide⟩

theorem witness_StreamInstructionsChain :
    let x : SIns := ⟨0xC0, 0, sampleFields true⟩
    (Instr.vadd 0 (sampleFields true)).stream? = some x ∧ (Instr.vadd 0 (sampleFields true)).wellFormed = true ∧ IssuesStream x vectorAt vectorAt 0 ∧
    (ctxOf vectorAt 0).chain = [] ∧ lazyFill vectorAt 0 = .ok () vectorAt ∧
    badLink vectorAt ((ctxOf vectorAt 0).chain.map SIns.ofWord) (ctxOf vectorAt 0).chain.length x = false :=
  ⟨rfl, by decide, streams_vector, by decide, rfl, by decide⟩

/-- With all three vectors named the splice is issued; with none of the pumps' share it is not. -/
theorem witness_StreamInstructionsIssue :
    let ins : List SIns := [⟨0xC0, 0, sampleFields false⟩]
    (Instr.vadd 0 (sampleFields false)).stream? = some ⟨0xC0, 0, sampleFields false⟩ ∧
    issueReason vectorAt (coreCode vectorAt 0) ins (capture vectorAt 0 ins) = 0 ∧ mustWait vectorAt 0 (capture vectorAt 0 ins) = false ∧
    issueReason scalarAt (coreCode scalarAt 0) ins (capture scalarAt 0 ins) ≠ 0 := by decide

theorem witness_DescriptorResults : (15 : BitVec 5).toNat < 16 ∧ IssuesLazy .plain (accessCost vectorAt 0x10000600 12 false) vectorAt vectorAt vectorAt 0 ∧
    plyInWord 0x10000600 = 0 ∧ (∃ t, coreLoad vectorAt 0 0x10000600 12 = .ok 0 t) ∧ (∃ t, coreStore vectorAt 0 0x10000600 12 7 = .ok () t) ∧
    IssuesLazy .plain (some 1) vectorAt vectorAt vectorAt 0 ∧ Issues .vfence none vectorAt vectorAt 0 ∧ vectorAt.splices.list = [] :=
  ⟨by decide, lazy_vector _ _ (by decide), by decide, ⟨_, rfl⟩, ⟨_, rfl⟩, lazy_vector _ _ (by decide), issues_vector _ _ (by decide), by decide⟩

/-- S0 and S1 into S2, eight lanes of I24. -/
def laneFields : StreamFields := { dst := 2, sa := 0, sb := 1, sc := 31, ch := false, ot := 3, msk := 0, sat := false, mreg := 31 }

theorem witness_LanewiseResults : (Instr.sadd 0 laneFields).lanewise? = some (.add, laneFields, 3, some 2) ∧ (Instr.sadd 0 laneFields).wellFormed = true ∧
    IssuesLazy .plain (some 2) vectorAt vectorAt vectorAt 0 := ⟨rfl, by decide, lazy_vector _ _ (by decide)⟩

theorem witness_LaneResults : IssuesLazy .plain (some 3) vectorAt vectorAt vectorAt 0 ∧ IssuesLazy .plain (some 5) vectorAt vectorAt vectorAt 0 ∧
    (Instr.scvt 0 7 { laneFields with sb := 31 }).wellFormed = true ∧
    (Instr.sld 0 { laneFields with sa := 1, sb := 0 }).wellFormed = true ∧ (∃ t, loadAligned vectorAt 0 0x10000600 16 = .ok 0 t) ∧
    lanesOf 3 ≠ 0 ∧ laneFields.dst.toNat < 8 :=
  ⟨lazy_vector _ _ (by decide), lazy_vector _ _ (by decide), by decide, by decide, ⟨_, rfl⟩, by decide, by decide⟩

theorem witness_MaskAndReduction : IssuesLazy .plain (some 5) vectorAt vectorAt vectorAt 0 ∧ (Instr.srsum 0 0 { laneFields with sb := 31 }).wellFormed = true ∧
    (Instr.scmp 0 6 { laneFields with ot := 6 }).wellFormed = true ∧ (Instr.sst 0 { laneFields with sa := 1, sb := 0 }).wellFormed = true ∧
    plyOffset 0x10000600 % 2 = 0 ∧ (∃ t, storeRuns vectorAt 0 0x10000600 (shortStore vectorAt 0 laneFields) = .ok () t) :=
  ⟨lazy_vector _ _ (by decide), by decide, by decide, by decide, by decide, ⟨_, rfl⟩⟩

/-- A result was delivered. -/
def Got.isOk {α : Type} : Got α → Bool
  | .ok _ _ => true
  | _ => false

/-- Core 0 takes SVC: its frame is written and its handler fetched. -/
def trapping : State := withRegs scalarAt [(.capVbase 0 1, 0x1000)]

/-- Entry of cause `cause` on core `c`, as the second clause builds it: the frame is written and the handler fetched. -/
def entersCleanly (s : State) (c : Core) (cause : BitVec 8) : Bool :=
  let k := coreOf s c
  let top : Addr := BitVec.ofNat 40 (wordBase (ctxOf s c).dspS.toNat) - 480
  let pc := if (cause = 0x09 ∨ cause = 0x0B) ∧ k.slot = none then pcOf s c + 4 else pcOf s c
  match storeWords s (supWho s c) top.toNat (frameWords (ctxOf s c) (if c.val = 4 then k.loops else []) { cause } pc k.slot) 0 with
  | .ok _ u =>
    let y := ctxOf u c
    let h := handlerOf u c cause
    let q := setCtx u c { y with xfp := top, dspS := top, stw := entryStw y.stw, pc := h, chain := [], chainPc := 0 }
    let v := setCore q c (entryCore (coreOf q c))
    Got.isOk (fetchAt v c (supWho v c) h.toNat)
  | _ => false

theorem witness_EntryCompletes :
    switches trapping (0 : Core) = false ∧ (coreOf trapping 0).stepping = false ∧ entersCleanly trapping 0 0x09 = true ∧ entersCleanly trapping 0 0x01 = true ∧
    (let s := setCtx lifelineAt 4 { ctxOf lifelineAt 4 with dspS := 0x60001800 }
     coreRuns s (4 : Core) = true ∧ irqEligible s = none ∧ switches s (4 : Core) = false ∧ (coreOf s 4).stepping = false ∧ inLocal (0x60001800 - 480) = true ∧
     inLocal (0x60001800 - 480 + 95) = true ∧ entersCleanly s 4 0x0B = true) := by decide

theorem witness_ExceptionEntry : coreRuns trapping (0 : Core) = true ∧
    ((enter trapping 0 { cause := 0x09 } (pcOf trapping 0 + 4)).any (fun t =>
      rdF t (.capStat 0) 0 2 != 2 && !(coreOf t 0).stepping && pcOf t 0 == 0x10000240) = true) := by decide

/-- Interrupt 3 is pending on the lifeline core, which admits it. -/
def interruptedAt : State :=
  let s := withRegs lifelineAt [(.llStat, 2 ||| 0x10000), (.llIrq 3, 0x1D700)]
  setCtx (setLevel s 8) 4 { ctxOf s 4 with pc := 0x60000000, stw := 0x7000, dspS := 0x60001800 }

theorem witness_InterruptTaken : coreRuns interruptedAt (4 : Core) = true ∧ rdB interruptedAt .llStat (13 + 3) = true ∧ 3 < llLevel interruptedAt ∧
    (∀ j, j < 3 → rdB interruptedAt .llStat (13 + j) = false) ∧ bit (ctxOf interruptedAt 4).stw 14 = true ∧ belayed interruptedAt 4 = false ∧
    (ctxOf interruptedAt 4).chain = [] ∧
    (let z := setCore (discardChain interruptedAt 4) 4 { coreOf (discardChain interruptedAt 4) 4 with waiting := false }
     (enter (wrB z .llStat 16 false) 4 { cause := 19 } (pcOf z 4)).any (fun u => llState u == 2) = true) := by decide

/-- A loop whose body ends at PC. -/
def looping : State := setCore lifelineAt 4 { coreOf lifelineAt 4 with loops := [{ start := 0x5FFFFFFC, count := 2, k := 1 }] }

theorem witness_NextInstruction : (coreOf looping 4).slot = none ∧
    (∃ l rest, (coreOf looping 4).loops = l :: rest ∧ l.start + 4 * BitVec.ofNat 40 l.k.toNat = pcOf looping 4 ∧ l.count ≠ 1) :=
  ⟨by decide, _, _, rfl, by decide, by decide⟩

/-- A delay slot, a shadow, an open chain, user level. -/
theorem witness_ForbiddenInstructions :
    let slot := setCore lifelineAt 4 { coreOf lifelineAt 4 with slot := some 0x60000040 }
    let shade := setCore lifelineAt 4 { coreOf lifelineAt 4 with shadow := 3 }
    let user := fetched (setCtx scalarAt 0 { ctxOf scalarAt 0 with stw := 0x2000 }) 0
    let open' := setCtx scalarAt 0 { ctxOf scalarAt 0 with chain := [0xC00000000000] }
    (coreRuns slot (4 : Core) = true ∧ (coreOf slot 4).slot.isSome = true ∧ (fetchIns slot 4 = .ok () slot)) ∧
    (coreOf shade 4).shadow ≠ 0 ∧ bit (ctxOf user 0).stw 12 = false ∧ coreRuns user (0 : Core) = true ∧ (fetchIns user 0 = .ok () user) ∧
    (ctxOf open' 0).chain ≠ [] ∧ fetchIns open' 0 = .ok () open' :=
  ⟨⟨by decide, by decide, by decide +kernel⟩, by decide, by decide, by decide, by decide +kernel, by decide, by decide +kernel⟩

theorem witness_SavedStateReturns : ([{ start := 4, count := 2, k := 1 }] : List Loop).length ≤ 3 ∧ (0x60000004 : Addr).toNat % 4 = 0 := by decide

/-- An unlisted word is free of errors. -/
theorem blank_sound (k : Nat) : (blank k).err = 0 ∧ (blank k).fold = 0 ∧ (blank k).poison = false := by
  unfold blank
  split
  · exact ⟨rfl, rfl, rfl⟩
  · split <;> exact ⟨rfl, rfl, rfl⟩

theorem reset_sound (k : Nat) : (memAt State.reset k).err = 0 ∧ (memAt State.reset k).fold = 0 ∧ (memAt State.reset k).poison = false := by
  have e : memAt State.reset k = blank k := by
    unfold memAt
    have d : State.reset.store.l2Dirty k = none := rfl
    rw [d]
    split <;> rfl
  rw [e]
  exact blank_sound k

/-- The premises on the stored words, and both sorts of access: of the lifeline core, which goes beside the caches, and of a scalar core. -/
theorem witness_MemoryFrame : (∀ k, ((cellAt State.reset k).err = 0 ∧ (cellAt State.reset k).fold = 0 ∧ (cellAt State.reset k).poison = false) ∧
    ((memAt State.reset k).err = 0 ∧ (memAt State.reset k).fold = 0 ∧ (memAt State.reset k).poison = false)) ∧
    (∀ m, m < 128 → rdB State.reset (.dsChStat m) 1 = false) ∧ CachesSound State.reset ∧
    viaCaches scalarAt (coreWho scalarAt 0) 0x10000600 = false ∧ viaCaches scalarAt (coreWho scalarAt 0) 0x100000000 = true :=
  ⟨fun k => ⟨blank_sound k, reset_sound k⟩, by decide, ⟨fun _ h => absurd h (by simp [State.reset, Tab.empty]), fun _ h => absurd h (by simp [State.reset, Tab.empty])⟩,
    by decide, by decide⟩

theorem witness_LoadAfterStore : Got.isOk (loadPlies base { code := 1, safety := true, sup := true } 0x10000001 7 0) = true ∧
    Got.isOk (storePliesAt base { code := 1, safety := true, sup := true } 0x10000001 7 0x123456789 0) = true ∧
    (match storePliesAt base { code := 1, safety := true, sup := true } 0x10000001 7 0x123456789 0 with
     | .ok _ t => Got.isOk (loadPlies t { code := 1, safety := true, sup := true } 0x10000001 7 0)
     | _ => false) = true := by decide

theorem witness_ErrorsOnRead : ∃ s : State, (memAt s 0x10000000).poison = false ∧ (memAt s 0x10000000).fold = 0 ∧
    popCount (memAt s 0x10000000).err = 3 := ⟨setMem State.reset 0x10000000 { data := 5, err := 7 }, by decide, by decide, by decide⟩

/-! Registers, tasks, lifeline. -/

/-- Boot firmware is at work in BRING-UP; core 0's safety supervisor code in RUN; a host with function 0 in RUN. -/
def booting : State := withRegs State.reset [(.modStat, 2)]
def hostAt : State := setHost (withRegs scalarAt [(.hstLink, 2), (.hstFn 0, 0x21)]) 0 { memorySpace := true }

theorem witness_Reaches : Reaches scalarAt (.scalar 0) Rg.eccCfg.index ∧ Reaches lifelineAt .lifeline Rg.llCtl.index ∧
    Reaches hostAt (.host 0) (Rg.odCmd 0).index ∧ Reaches booting .boot Rg.modCfg.index := by
  unfold Reaches; decide

theorem witness_RegisterWrites : Rg.ofIndex Rg.eccCfg.index = some .eccCfg ∧ (authOf scalarAt (.scalar 0)).safety = true ∧
    (authOf scalarAt (.scalar 0)).sup = true ∧ (authOf hostAt (.host 0)).safety = false ∧ Rg.pmpShare.bits.rws ≠ 0 := by decide

/-- A belay window of core 0, and a READY task of higher priority while the core is idle. -/
theorem witness_BelaysAndSwitches :
    (let s := wrB scalarAt (.capStat 0) 7 true; rdB s (.capStat 0) 7 = true) ∧
    (let s := { withRegs scalarAt [(.capStat 0, 1), (.capTsk 0 1 3, 2), (.capTsk 0 1 1, 0x30000)] with caps := Tab.empty.insert 0 { ready := [1] } }
     taskState s 0 1 = 2 ∧ rdF s (.capStat 0) 0 2 = 1 ∧ (capOf s 0).ready = [] ++ 1 :: [] ∧ (coreOf s 0).stepping = false ∧
       (capOf s 0).faults = [] ∧ runningTask s 0 = none) := by decide

theorem witness_TaskSlots : (0x30000 : Reg24).getLsbD 17 = true ∧ taskState scalarAt 0 0 = 0 ∧ taskValid scalarAt 0 0 = false ∧
    tcbOk (0x10000600 + 0 * 2 ^ 24) = true ∧ lineOwner (wrF scalarAt (.evrLine 0) 0 (1 : OwnerCode)) 0 = 1 := by decide

def checkpointed : State := { wrF lifelineAt .llStat 0 (3 : BitVec 3) with checkpoint := some { ctx := ctxOf lifelineAt 4, level := 8 } }

theorem witness_LockstepRecovery : llState lifelineAt = 2 ∧ rdB lifelineAt .llStat 3 = false ∧ lifelineAt.rollbacks.length < 4 ∧
    llState checkpointed = 3 ∧ checkpointed.checkpoint.isSome = true ∧ (coreOf checkpointed 4).stepping = false ∧
    (∀ i, i < 128 → badCheckpoint checkpointed (0x60010000 + 6 * i) = false) := by decide

theorem witness_LifelineEnables :
    let s := withRegs { scalarAt with fw := { lifeline := some (0x1C01800000, 64, 32) } } [(.llCfg, 1), (.pmpShare, 0xFFFFFF)]
    llState s = 0 ∧ s.fw.lifeline.isSome = true ∧ (highestPump s).isSome = true ∧ steward s (authOf s (.scalar 0)) = true ∧ combined s ≠ 7 ∧
    (authOf s (.scalar 0)).anySafSup = true ∧ cistern15Ready (withRegs s [(.cisStat 15, 0), (.cisOwner 15, 8)]) = true ∧ inTransition s 15 = false := by decide

/-! Pumps, crossbar, stores. -/

/-- `vectorAt` with its splice issued: waiting, then running on pump 0. -/
def issued : State := issueSplice vectorAt 0 [⟨0xC0, 0, sampleFields false⟩]
def pumping : State := accept issued

theorem witness_PumpCommands :
    (issued.splices.list.any (fun p => p.core != 4 && decide (p.owner.toNat < 8) && p.phase == .waiting && eligible issued p) = true) ∧
    llHolds issued = false ∧ sharedPump issued 0 = true ∧ idlePump issued 0 = true ∧
    (spliceOn pumping 0).any (fun p => p.phase == .running 0 && !frozen pumping 0 &&
      (let g := runTo pumping p 0 (p.count pumping); !g.held && g.ended == none && decide (g.p.count g.s ≤ g.p.elem) && !pumpFailed g.s 0)) = true := by decide

/-- Two pumps, frozen, run splices of code 0b0001, the others have failed, and a splice of code 0b0000 waits. -/
def sharing : State :=
  let s := withRegs issued ([(.dbgFreeze, 3), (.pmpQuantum, 1), (.pmpStat 0, 1), (.pmpStat 1, 1)] ++ (List.range 14).map (fun i => (.pmpStat (i + 2), 3)))
  { s with splices := { s.splices with list := s.splices.list.flatMap (fun p =>
      [{ p with phase := .running 0, ran := 2, lazyArea := 1 }, { p with phase := .running 1, ran := 2, lazyArea := 1, id := 7, cid := 8, stamp := 1 },
       { p with id := 8, cid := 9, owner := 0 }]) } }

theorem witness_PreemptCheck : inRun sharing = true ∧ phase sharing = 0 ∧ pumpFailed sharing 0 = false ∧
    ((victim sharing).any (fun x => x.2 == 0 && decide (x.1.phase = .running 0) && (freeHalf sharing x.1).isSome) = true) ∧
    rdF (withRegs sharing [(.pmpQuantum, 0)]) .pmpQuantum 0 12 = (0 : BitVec 12) := by decide

theorem witness_Quiet : Quiet base ∧ Quiet lifelineAt := ⟨⟨rfl, rfl⟩, rfl, rfl⟩

theorem witness_CrossbarCommands : crossbarRuns base (.core 0) = true ∧ crossbarGated base (.core 0) = false ∧ base.store.tagWait = [] ∧ regionOf 0x10000600 = some (.cistern 0) ∧
    (memAt base 0x10000600).err = 0 ∧ checkCistern base { code := 1, safety := true, sup := true } 0 = .ok ∧ rdB base .eccInjCtl 17 = false := by decide

theorem witness_DeepStoreRegisters : Reaches scalarAt (.scalar 0) (Rg.dsChCfg 5).index ∧ rdF scalarAt (.dsChCfg 5) 0 2 ≤ (3 : BitVec 2) ∧
    rdF scalarAt (.dsChCfg 127) 0 2 ≤ (3 : BitVec 2) ∧ regionOf (injectAddr (withRegs scalarAt [(.eccInjAhi, 0x10)])) = some (.cistern 0) := by
  refine ⟨?_, by decide⟩
  unfold Reaches; decide

theorem witness_IntegrityCommands : scrubbed base (⟨128, by decide⟩ : Fin 158) = true ∧ (scrubOf base (⟨128, by decide⟩ : Fin 158)).pos < 524288 ∧
    unitWords (⟨128, by decide⟩ : Fin 158) ≠ 0 ∧ decodeWord (memAt { base with mem := base.mem.insert 0x58000000 { data := 1, err := 7 } } 0x58000000) = .ue := by decide

theorem witness_FrameCommands : Reaches scalarAt (.scalar 0) (Rg.ftOp 0).index ∧ (authOf scalarAt (.scalar 0)).code = ownerCode 0 true ∧
    rdB scalarAt (.ftCmd 0) 0 = false ∧ (frameAt scalarAt 7).owner.toNat < 8 ∧ (frameAt scalarAt 7).owner.toNat / 2 = 0 ∧
    (frameAt scalarAt 7).moving = false ∧ (frameAt scalarAt 7).retired = false ∧ (frameAt scalarAt 7).pinned = false ∧ (frameAt scalarAt 7).ecc ≠ 3 ∧
    ({ base.store with ftRun := Tab.empty.insert 0 { op := 1, frame := 7, owner := 0, rights := 0, zero := false } } : StoreSt).ftRun.find 0 ≠ none := by
  refine ⟨?_, by decide⟩
  unfold Reaches; decide

theorem witness_CisternCommands : Reaches scalarAt (.scalar 0) (Rg.cisOwner 0).index ∧ Reaches scalarAt (.scalar 0) Rg.xbCfg.index ∧
    (authOf scalarAt (.scalar 0)).safety = true ∧ inHandover scalarAt 0 = false ∧ inTransition scalarAt 0 = false ∧ rdB scalarAt .xbCfg 1 = false ∧
    cisState scalarAt 0 = 0 ∧ (cisOwnerOf scalarAt 0).toNat / 2 = (authOf scalarAt (.scalar 0)).part ∧
    cisState (withRegs scalarAt [(.cisStat 3, 3)]) 3 = 3 ∧ scalarAt.store.held = [] := by
  refine ⟨?_, ?_, by decide⟩ <;> (unfold Reaches; decide)

/-- Line 9 enabled, owned by 0b0001, and asserted. -/
def eventAt : State :=
  let s := withRegs scalarAt [(.evrLine 9, 0x2001)]
  { s with events := { s.events with now := 1, asserted := [⟨9, 1, 0⟩] } }

theorem witness_EventCommands : Reaches eventAt (.scalar 0) Rg.evrPulse.index ∧ (authOf eventAt (.scalar 0)).code = lineOwner eventAt 9 ∧
    due eventAt 9 = [⟨9, 1, 0⟩] ∧ frozen eventAt 18 = false ∧ rdB eventAt (.evrLine 9) 13 = true ∧ inGuard eventAt 9 = false ∧
    rdF eventAt (.evrLine 9) 20 4 = 0 ∧ rdB eventAt (.evrLine 9) 12 = false ∧ rdF eventAt (.evrLine 9) 14 2 = 0 := by
  refine ⟨?_, by decide⟩
  unfold Reaches; decide

/-- Channel 2 enabled, owned by 0b0001, counting up on event ticks, at the last count but one of its period. -/
def timerAt : State := { withRegs scalarAt [(.tmrOwn 2, 1), (.tmrCtl 2, 0x1000), (.tmrCnt 2, 4), (.tmrCapcfg 2, 0x1000)] with
  timers := Tab.empty.insert 2 { period := 5 } }

theorem witness_TimerCommands : rdB timerAt (.tmrCtl 2) 12 = true ∧ frozen timerAt 17 = false ∧ rdF timerAt (.tmrCtl 2) 2 2 = 0 ∧
    (∀ e, e < 6 → rdB timerAt (.tmrEve 2) e = false) ∧ rdF timerAt (.tmrCtl 3) 2 2 ≠ 2 ∧ rd timerAt (.tmrCnt 2) < (timerOf timerAt 2).period ∧
    (timerOwner timerAt 2).toNat < 8 ∧ (authOf timerAt (.scalar 0)).code = timerOwner timerAt 2 ∧ rdF timerAt (.tmrCapcfg 2) 12 2 ≠ 0 := by decide

theorem witness_TimerWrites : Reaches timerAt (.scalar 0) (Rg.tmrPer 2).index ∧ Reaches timerAt (.scalar 0) (Rg.tmrCmp 2 3).index := by
  constructor <;> (unfold Reaches; decide)

theorem witness_WatchdogCommands :
    let s := withRegs scalarAt [(.wdCfg 0, 0x1000A)]
    Reaches s (.scalar 0) (Rg.wdKick 0).index ∧ (authOf s (.scalar 0)).safety = true ∧ (authOf s (.scalar 0)).code = ownerCode 0 true ∧
    rdB s (.wdCfg 0) 16 = true ∧ (dogOf { s with dogs := Tab.empty.insert 0 { counting := true, left := 1 } } 0).counting = true := by
  refine ⟨?_, by decide⟩
  unfold Reaches; decide

/-- Input lane 1 and output lane 2 are enabled and owned by 0b0001; tag 5 of lane 1 is valid. -/
def lanesAt : State := withRegs scalarAt [(.rxCfg 1, 0x11), (.tag 1 5, 0x200), (.rxTout 1, 0x10), (.txCfg 2, 0x11)]

theorem witness_LaneCommands : Reaches lanesAt (.scalar 0) (Rg.rxTout 1).index ∧ Reaches lanesAt (.scalar 0) (Rg.tx 2).index ∧
    rdB lanesAt (.rxCfg 1) 4 = true ∧ fastEvents lanesAt = true ∧ frozen lanesAt 19 = false ∧
    (let f := sampleFrame 5 0x123
     bits f 18 2 = (2 : BitVec 2) ∧ bits f 14 4 = (5 : BitVec 4) ∧ bit (rd lanesAt (.tag 1 5)) 8 = false ∧ bit (rd lanesAt (.tag 1 5)) 9 = true) ∧
    txEn lanesAt 2 = true ∧ txOwner lanesAt 2 = 1 ∧ safeAct lanesAt 2 = false := by
  refine ⟨?_, ?_, by decide⟩ <;> (unfold Reaches; decide)

/-! The outside. -/

/-- Function 0 may read and write frame 0, where its window begins. -/
def openAt : State := setFrame hostAt 0 { owner := 0, rights := 0x03F }

theorem witness_HostCommands : hostAt.hostQueue = [] ∧ reachable hostAt 0 = true ∧ barsOn hostAt 0 = true ∧ inRun hostAt = true ∧ windowAddr hostAt 0 0 < sumpBase ∧
    inWindow hostAt 0 3 5 = true ∧ (admitted hostAt (hostWho 0) (windowAddr hostAt 0 0) 6 .write).1 = .refused ∧
    (admitted openAt (hostWho 0) (windowAddr openAt 0 0) 6 .write).1 = .ok ∧ (admitted openAt (hostWho 0) (windowAddr openAt 0 0) 6 .read).1 = .ok ∧
    (let z := (admitted openAt (hostWho 0) (windowAddr openAt 0 0) 6 .write).2
     cellAt z (windowAddr openAt 0 0) = {} ∧ z.store.l2Word (windowAddr openAt 0 0) = none ∧ rdB z (.dsChStat (channelOf (windowAddr openAt 0 0))) 1 = false ∧
       rdB z .eccInjCtl 17 = false) ∧
    (admitted (setFrame openAt 0 { owner := 0, rights := 0x03F, moving := true }) (hostWho 0) (windowAddr openAt 0 0) 6 .write).1 = .held ∧
    pcieOn hostAt = true ∧ present hostAt 0 = true ∧ portOf hostAt 0 = 0 := by decide

theorem witness_ObjectCommands :
    Reaches hostAt (.host 0) (Rg.odCmd 0).index ∧ mayMailbox (authOf hostAt (.host 0)) 0 = true ∧ rdB hostAt (.odStat 0) 0 = false ∧
    (match readObject hostAt (.mailbox 0 false) 0x1018 1 with | .ok l => l == leBytes 4 0x5C7 | .error _ => false) = true ∧
    clientOf hostAt (.mailbox 0 false) 0 = true ∧ (odBytes hostAt 0x2001 1).length = 1 ∧ (odBytes hostAt 0x2100 1).length = 4 ∧
    configClient hostAt (.mailbox 0 true) = true ∧
    (odValue hostAt 0x2011 1).any (fun y => y.length == 4) = true ∧ valueError hostAt 0x2011 2 [1, 0, 0, 0] = none ∧
    clientOf hostAt (.mailbox 1 false) 0 = false ∧ pcieOn hostAt = true ∧ pcieOn State.reset = false ∧ State.reset.modes.emulated = false ∧
    openError hostAt (.mailbox 0 false) 0x2001 1 true = none ∧ (openError hostAt (.node 5 false) 0x2001 1 true).isSome = true ∧ inBringUp booting = true ∧ openObject 0x2001 = false ∧
    (let s := wrF (wrB hostAt .hstCan 7 false) .hstCan 0 (9 : BitVec 7); usdoServed s = true ∧ busState s false ≠ 2 ∧ s.can.sessions = []) := by
  refine ⟨?_, by decide⟩
  unfold Reaches; decide

theorem witness_CanCommands : nodeId base = none ∧ hasNode base = false ∧ base.can.lssConfig = false ∧ nodeId (wrF (wrB base .hstCan 7 false) .hstCan 0 (9 : BitVec 7)) = some 9 ∧
    monitored { base with od := base.od.insert (odKey 0x1016 1) (leBytes 4 0x90064) } 9 = true := by decide

theorem witness_FirmwareCommands : Reaches scalarAt (.scalar 0) Rg.fwCmd.index ∧ mayFw (authOf scalarAt (.scalar 0)) = true ∧ fwBusy scalarAt = false ∧ downloadOpen scalarAt = false ∧
    plyInWord 0x10000600 = 0 ∧ scalarAt.fuses.customer = none ∧
    (match sourceWords { scalarAt with mem := scalarAt.mem } { op := 5, src := 0x100000600, off := 0, len := 10, owner := 1 } 10 with
     | some (.ok _, _) => true | _ => false) = true := by
  refine ⟨?_, by decide⟩
  unfold Reaches; decide

theorem witness_ModeCommands :
    (let s := withRegs State.reset [(.modStat, 0x406)]; inRun s = true ∧ phase s = 1 ∧ splicesRun s = false) ∧
    (let s := { withRegs State.reset [(.modStat, 0x806)] with modes := { target := 3 }, od := State.reset.od.insert (odKey 0x2001 1) [3] }
     phase s = 2 ∧ s.modes.target = 3 ∧ s.store.held = [] ∧ combined s = 3) ∧
    (let s := { withRegs State.reset [(.modStat, 0x806)] with od := State.reset.od.insert (odKey 0x2001 1) [1] }; combined s = 1 ∧ emulates s = false) ∧
    (let s := withRegs State.reset [(.modStat, 0xC03)]; phase s = 3 ∧ combined s = 6) ∧
    inBringUp booting = true ∧ phase booting = 0 ∧ booting.modes.recovery = false ∧
    (let s := { withRegs State.reset [(.modStat, 7)] with fw := { goodA := true } }; inRecovery s = true ∧ combined s ≠ 7) := by decide

/-- No ordering code holds a lid of 0 °C too hot. -/
theorem lid_cool : lidTooHot 0 = false := by unfold lidTooHot lidHigh; split <;> decide

/-- Reset with VIN_MAIN at 12.00 V, PE_SPLIT low and RECOVERY_N high. -/
def supplied : State :=
  report (wrF (wrB { State.reset with pwr := { State.reset.pwr with main := true, mainOut := false, recoveryN := true, hot := false } } .hstLink 0 false)
    .modVolt 0 (1200 : BitVec 12))

set_option maxRecDepth 200000 in
/-- Everything that a start needs is there. -/
theorem witness_MayStart : mayStart supplied = true := by
  have e : lidTooHot (rdF supplied .modTemp 0 12) = false := by
    have h : rdF supplied .modTemp 0 12 = (0 : BitVec 12) := by decide +kernel
    rw [h]; exact lid_cool
  unfold mayStart
  rw [e]
  decide +kernel

theorem witness_SupplyLevels : supplyOut true 1200 = false ∧ supplyOut true 1079 = true ∧ supplyOut true 1321 = true ∧ supplyOut false 330 = false ∧
    supplied.pwr.main = true ∧ supplied.pwr.mainOut = false ∧ mode supplied = 1 ∧ combined supplied ≠ 1 := by decide

theorem witness_SupplyCommands : mode State.reset = 1 ∧ combined State.reset ≠ 1 ∧ State.reset.pwr.main = false ∧ State.reset.pwr.resetN = true ∧
    State.reset.pwr.hot = false ∧ State.reset.pwr.clockGood = true ∧ State.reset.fw.cmd = none ∧
    ({ State.reset with pwr := { aux := false } } : State).pwr.main = false := by decide

/-- The probe may debug partition 0, and owner code 0b0001; cistern 0 answers it. -/
def probed : State := withRegs scalarAt [(.dbgPermit, 0x1F), (.dbgCtl, 3), (.dbgTrcfg, 1)]

theorem witness_DebugCommands : probed.dbg.busy = none ∧ mayDebugCode probed (rdF probed .dbgCtl 1 4) = true ∧ asleep probed = false ∧
    regionOf 0x10000600 = some (.cistern 0) ∧ checkCistern probed (aftarWho probed) 0 = .ok ∧ mayDebugCore probed 0 = true ∧
    rdB probed .dbgCmdStatus 0 = false ∧ halted probed 0 = false ∧ halted (wrB probed .dbgStat 0 true) 0 = true ∧ canStep probed 0 = true ∧
    (debugGet probed 0 4 1 0).isSome = true ∧ coreLocked (withRegs probed [(.capStat 0, 18)]) 0 = true ∧ haltAllowed probed 0 = true ∧
    rdF probed .dbgTrcfg 0 2 = 1 ∧ probed.dbg.fifo.length < 256 ∧ probed.dbg.lost = 0 ∧ tracePins probed = .driven ∧ tracePins scalarAt ≠ .driven ∧
    rdB probed .dbgCtl 7 = false ∧ (coreOf probed 0).slot = none ∧ probed.store.held = [] ∧ (authOf probed (.scalar 0)).safety = true := by decide

theorem witness_DebugWrites : Reaches probed (.scalar 0) Rg.dbgFreeze.index ∧ Reaches probed (.scalar 0) (Rg.dbgStim (cond true 1 0) 31).index := by
  constructor <;> (unfold Reaches; decide)

/-! ### Worked examples of the spec -/

/-- A core with three registers, from scratch. -/
def regs3 (l : List (Nat × W48)) : State := setCtx scalarAt 0 { ctxOf scalarAt 0 with g := l.foldl (fun t x => t.insert x.1 x.2) Tab.empty }

/-- What register `n` of core 0 holds after an instruction. -/
def result (i : Instr) (s : State) (n : Nat) : Option W48 := (after (exec i s)).map (fun t => getG t 0 n)

/-- The 144-bit sum of R320, step by step. -/
theorem test_addco : result (.addco 0 11 2 5 0) (regs3 [(2, 0xFFFFFFFFFFFF), (5, 1)]) 11 = some 1 := by decide
theorem test_addc : result (.addc 0 10 4 7 12) (regs3 [(4, 1), (12, 1)]) 10 = some 2 := by decide

/-- The table of R371. -/
theorem test_add_wraps : result (.addi 0 3 2 1) (regs3 [(2, 0x7FFFFFFFFFFF)]) 3 = some 0x800000000000 := by decide
theorem test_sub_wraps : result (.sub 0 3 0 2) (regs3 [(2, 1)]) 3 = some 0xFFFFFFFFFFFF := by decide
theorem test_mul_low : result (.mul 0 3 2 2) (regs3 [(2, 0x1000000)]) 3 = some 0 := by decide
theorem test_mulw_high : result (.mulw 0 4 2 2) (regs3 [(2, 0x800000000000)]) 5 = some 0x400000000000 := by decide
theorem test_mulwu_high : result (.mulwu 0 4 2 2) (regs3 [(2, 0xFFFFFFFFFFFF)]) 5 = some 0xFFFFFFFFFFFE := by decide
theorem test_div_zero : result (.div 0 3 2 0) (regs3 [(2, 7)]) 3 = some 0xFFFFFFFFFFFF := by decide
theorem test_rem_zero : result (.rem 0 3 2 0) (regs3 [(2, 7)]) 3 = some 7 := by decide
theorem test_clz_zero : result (.clz 0 3 2) (regs3 []) 3 = some 48 := by decide
theorem test_vabs_saturates : elemOp .abs 3 true {} 0x800000 0 0 = { v := 0x7FFFFF, sat := true } := by decide
theorem test_vmulw_exact : elemOp .mulw 1 false {} 0x800 0x800 0 = { v := 4194304 } := by decide

/-- The packed-decimal example of R331. -/
theorem test_dadd : result (.dadd 0 3 1 2) (regs3 [(1, 0x12345C), (2, 0x345D)]) 3 = some 0x12000C := by decide
theorem test_dsub : result (.dsub 0 3 1 2) (regs3 [(1, 0x12345C), (2, 0x345D)]) 3 = some 0x12690C := by decide
theorem test_dtob : result (.dtob 0 3 2) (regs3 [(2, 0x345D)]) 3 = some 0xFFFFFFFFFEA7 := by decide
theorem test_digit : invalidK48 0x3A5D = some 1 := by decide

/-- Cases (a) to (c) of R367, at three of its modes. -/
theorem test_fmul_tiny : elemOp .mul 6 false { rm := 2 } 1 0x3F0000 0 = { v := 1, fl := flagUF ||| flagNX } := by decide
theorem test_fmul_flushed : elemOp .mul 6 false { rm := 2, ftz := true } 1 0x3F0000 0 = { v := 0, fl := flagUF ||| flagNX } := by decide
theorem test_cvtff_tie : convertElem 7 6 false false { rm := 0 } 0x380FFFF00000 = { v := 0x8000, fl := flagNX } := by decide
theorem test_cvtff_truncated : convertElem 7 6 false false { rm := 1 } 0x380FFFF00000 = { v := 0x7FFF, fl := flagUF ||| flagNX } := by decide
theorem test_fsub_exact : elemOp .sub 6 false {} 0x8001 0x8000 0 = { v := 1 } := by decide

/-- Conversions of R370. -/
theorem test_cvt_clamped : convertElem 6 0 false false { rm := 0 } 0x457FF8 = { v := 4095, fl := flagNV } := by decide
theorem test_cvt_truncated : convertElem 6 0 false false { rm := 1 } 0x457FF8 = { v := 4095, fl := flagNX } := by decide
theorem test_cvt_negative : convertElem 6 1 false false { rm := 3 } 0xC50008 = { v := 0x800, fl := flagNV } := by decide
theorem test_cvtif : convertElem 5 6 false false { rm := 2 } 65537 = { v := 0x478001, fl := flagNX } := by decide

/-- The two instruction words of the winch splice of R294. -/
theorem test_stream_word_compare : SIns.word ⟨0xC0, 0x15, { dst := 16, sa := 1, sb := 2, sc := 31, ch := true, ot := 6, msk := 0, sat := false, mreg := 31 }⟩ =
    0xC08045FB02BF := by decide
theorem test_stream_word_fma : SIns.word ⟨0xC2, 0x00, { dst := 4, sa := 3, sb := 1, sc := 2, ch := false, ot := 6, msk := 1, sat := false, mreg := 16 }⟩ =
    0xC220C2232010 := by decide

/-- The frame of the example of R429: XFP is 480 plies below the stack pointer. -/
theorem test_new_frame : newFrame { ctxOf scalarAt 0 with dspS := 0x100003000 } = 0x100002E20 := by decide

/-- The word that reset leaves in a register of each kind, and what reset leaves in memory. -/
theorem test_reset : mode State.reset = 1 ∧ llState State.reset = 0 ∧ memAt State.reset 0x10000000 = {} ∧ rdF State.reset (.capStat 0) 0 2 = 1 := by decide

set_option maxRecDepth 200000 in
theorem supplied_from_reset : mainValid State.reset 1200 true false = tryStart supplied 0 (some true) := by
  have e : lidTooHot (rdF State.reset .modTemp 0 12) = false := lid_cool
  unfold mainValid
  rw [e]
  rfl

set_option maxRecDepth 200000 in
/-- Reset takes the device to BRING-UP when VIN_MAIN is valid (R554). -/
theorem test_start : (after (exec (.vinMainValid 1200 true false) State.reset)).map mode = some 2 := by
  show some (mode (mainValid State.reset 1200 true false)) = some 2
  rw [supplied_from_reset, tryStart, if_pos witness_MayStart]
  decide +kernel

/-- An empty queue: one slow tick passes; a command at the front runs. -/
theorem test_step_idle : (after (step State.reset)).map (fun t => t.clock) = some 1 := by decide
theorem test_step_front : (after (step { State.reset with pending := [.resetNLow, .resetNHigh] })).map (fun t => (t.pending, t.pwr.resetN)) =
    some ([.resetNHigh], false) := by decide

/-! ### One ill-formed term for each check of WellFormed -/

theorem ill_pair : (Instr.mulw 0 3 1 2).wellFormed = false := by decide
theorem ill_shift_count : (Instr.shli 0 1 2 64).wellFormed = false := by decide
theorem ill_lih : (Instr.lih 0 1 0x40000).wellFormed = false := by decide
theorem ill_ldwp : (Instr.ldwp 0 1 2 0).wellFormed = false := by decide
theorem ill_stwp : (Instr.stwp 0 1 3 0).wellFormed = false := by decide
theorem ill_stack : (Instr.getsp 0 1 3).wellFormed = false := by decide
theorem ill_loop_core : (Instr.loop 0 1 4).wellFormed = false := by decide
theorem ill_rounding : (Instr.fadd 0 1 2 3 false 5).wellFormed = false := by decide
theorem ill_predicate : (Instr.fcmp 0 1 2 3 7 false 0).wellFormed = false := by decide
theorem ill_host_pair : (Instr.cvtfh 0 1 2 true 0 true).wellFormed = false := by decide
theorem ill_decimal_core : (Instr.dadd 4 1 2 3).wellFormed = false := by decide
theorem ill_block_operands : (Instr.cmpr 0 1 1 2 3 0 false none).wellFormed = false := by decide
theorem ill_call_core : (Instr.svc 4 0).wellFormed = false := by decide
theorem ill_destination : (Instr.vadd 0 { sampleFields false with dst := 17 }).wellFormed = false := by decide
theorem ill_type : (Instr.vadd 0 { sampleFields false with ot := 12 }).wellFormed = false := by decide
theorem ill_reference : (Instr.vadd 0 { sampleFields false with sa := 24 }).wellFormed = false := by decide
theorem ill_unused : (Instr.vadd 0 { sampleFields false with sc := 2 }).wellFormed = false := by decide
theorem ill_mask : (Instr.vadd 0 { sampleFields false with msk := 3, mreg := 0 }).wellFormed = false := by decide
theorem ill_saturation : (Instr.vmin 0 { sampleFields false with sat := true }).wellFormed = false := by decide
theorem ill_accumulator : (Instr.vrsum 0 2 { sampleFields false with sb := 31, ot := 3 }).wellFormed = false := by decide
theorem ill_reduce_width : (Instr.vrmin 0 1 { sampleFields false with sb := 31 }).wellFormed = false := by decide
theorem ill_vcmp : (Instr.vcmp 0 7 (sampleFields false)).wellFormed = false := by decide
theorem ill_vcvt_saturates : (Instr.vcvt 0 6 { sampleFields false with sb := 31, sat := true }).wellFormed = false := by decide
theorem ill_move_target : (Instr.vmov 0 12 { sampleFields false with sb := 31 }).wellFormed = false := by decide
theorem ill_expand_masked : (Instr.vexpz 0 3 { sampleFields false with sb := 31, sc := 2, msk := 1, mreg := 1 }).wellFormed = false := by decide
theorem ill_scatter : (Instr.vscat 0 { sampleFields false with dst := 16 }).wellFormed = false := by decide
theorem ill_short_register : (Instr.sadd 0 { laneFields with sa := 8 }).wellFormed = false := by decide
theorem ill_short_type : (Instr.sadd 0 { laneFields with ot := 8 }).wellFormed = false := by decide
theorem ill_short_chain : (Instr.sadd 0 { laneFields with ch := true }).wellFormed = false := by decide
theorem ill_short_and : (Instr.sand 0 { laneFields with ot := 6 }).wellFormed = false := by decide
theorem ill_short_wide : (Instr.smulwl 0 { laneFields with ot := 5 }).wellFormed = false := by decide
theorem ill_short_ordered : (Instr.scmp 0 6 laneFields).wellFormed = false := by decide
theorem ill_short_convert : (Instr.scvt 0 6 { laneFields with sb := 31, ot := 6 }).wellFormed = false := by decide
theorem ill_short_move : (Instr.smov 0 2 { laneFields with sb := 31 }).wellFormed = false := by decide
theorem ill_short_load : (Instr.sld 0 { laneFields with sc := 1 }).wellFormed = false := by decide
theorem ill_descriptor : (Instr.vdget 0 1 16 0).wellFormed = false := by decide
theorem ill_extension : (Instr.extensionInstruction 0 0 0 { sampleFields false with dst := 17 }).wellFormed = false := by decide

/-- The well-formed neighbours of some of those terms. -/
theorem well_formed : (Instr.mulw 0 2 1 2).wellFormed = true ∧ (Instr.vadd 0 (sampleFields false)).wellFormed = true ∧
    (Instr.sadd 0 laneFields).wellFormed = true ∧ (Instr.vscat 0 { sampleFields false with dst := 15 }).wellFormed = true := by decide

/-! ### Words of instructions, written out from the encodings of R266, R302, R305, R316 to R338 and R390 -/

/-- The encoding of R320, step 1. -/
theorem word_addco : Instr.ofWord 0 0x02588A000001#48 = some (.addco 0 11 2 5 0) := by decide
/-- The canonical no-operation of R321. -/
theorem word_nop : Instr.ofWord 0 0x120000000000#48 = some (.ori 0 0 0 0) := by decide
/-- The two encodings of the worked example of R294. -/
theorem word_vcmp : Instr.ofWord 0 0xC08045FB02BF#48 = some (.vcmp 0 5 ⟨16, 1, 2, 31, true, 6, 0, false, 31⟩) := by decide
theorem word_vfma : Instr.ofWord 0 0xC220C2232010#48 = some (.vfma 0 ⟨4, 3, 1, 2, false, 6, 1, false, 16⟩) := by decide
/-- The all-zero instruction is illegal (R317), and so is a NOP with a non-zero B field. -/
theorem word_zero : Instr.ofWord 0 0#48 = none ∧ Instr.ofWord 0 0x120002000000#48 = none := by decide
/-- STC G1, G2, G3, −2: OPC 0x2F, D 00001, A 00010, B 00011, zero, IMM20 (R316, R335). -/
theorem word_stc : Instr.ofWord 0 0b001011110000100010000110000011111111111111111110#48 = some (.stc 0 1 2 3 0xFFFFE) := by decide
/-- BNZ G2, −1: OPC 0x31, D zero, A 00010, IMM30 (R326). -/
theorem word_bnz : Instr.ofWord 0 0b001100010000000010111111111111111111111111111111#48 = some (.bnz 0 2 0x3FFFFFFF) := by decide
/-- SETSP G3, SSP: OPC 0x38, A 00011, FN[3:2] 11, FN[1:0] 10 (R324). -/
theorem word_setsp : Instr.ofWord 0 0b001110000000000011000000000000000000000000001110#48 = some (.setsp 0 3 2) := by decide
/-- CVTFH G4, F5: OPC 0x43, FN H 1, RMS 111, P 1, code 5 (R327, R328). -/
theorem word_cvtfh : Instr.ofWord 0 0b010000110010000101000000000000000000001011110101#48 = some (.cvtfh 0 4 5 true 7 true) := by decide
/-- DTOB G1, G2: OPC 0x50, FN[1:0] 10 (R330). -/
theorem word_dtob : Instr.ofWord 0 0b010100000000100010000000000000000000000000000010#48 = some (.dtob 0 1 2) := by decide
/-- The MOVR of R334, FN 0x00C, on G1, G2 and G3. -/
theorem word_movr : Instr.ofWord 0 0b010100010000000001000100001100000000000000001100#48 = some (.movr 0 1 2 3 3 false none) := by decide
/-- SVC 1: OPC 0x60, FN[17:6] 1, FN[5:0] 000101 (R338); the lifeline core has none (R377). -/
theorem word_svc : Instr.ofWord 0 0b011000000000000000000000000000000000000001000101#48 = some (.svc 0 1) ∧
    Instr.ofWord 4 0b011000000000000000000000000000000000000001000101#48 = none := by decide
/-- LCRD G1, 2: OPC 0x37, D 00010, A 00001, IMM30[1:0] 10 (R390); a scalar core has none. -/
theorem word_lcrd : Instr.ofWord 4 0b001101110001000001000000000000000000000000000010#48 = some (.lcrd 4 1 2) ∧
    Instr.ofWord 0 0b001101110001000001000000000000000000000000000010#48 = none := by decide
/-- SSEL S1, S2, S3, M4: OPC 0xC8, OT P12, FN 0x18 (R298, R299). -/
theorem word_ssel : Instr.ofWord 0 0b110010000000100010000110010000000000001100011111#48 = some (.ssel 0 ⟨1, 2, 3, 4, false, 0, 0, false, 31⟩) := by decide
/-- MTOG G9, M1: OPC 0xCF, FN 0x06 (R302). -/
theorem word_mtog : Instr.ofWord 0 0b110011110100100001111111111100000000000011011111#48 = some (.mtog 0 9 1) := by decide
/-- VDGET G1, VD2, 3: OPC 0xD3 (R305). -/
theorem word_vdget : Instr.ofWord 0 0b110100110000100010000000000000000000000000000011#48 = some (.vdget 0 1 2 3) := by decide

/-- The hypotheses of InstructionWordsRoundTrip are met, of each clause. -/
theorem words_met : (Instr.svc 0 0xFFF).core? = some 0 ∧ (Instr.svc 0 0xFFF).wellFormed = true ∧
    Instr.ofWord 3 0xE00000000000#48 = none ∧ Instr.ofWord 3 0xEFFFFFFFFFFF#48 = none ∧
    Instr.ofWord 3 0xEF7C1F07F01F#48 = none ∧ (Instr.ofWord 3 0xEF7FFFF00FFF#48).isSome = true := by decide

/-! ### The conditions of the clauses on values, orders and ticks -/

/-- A core at user level, and one that may set SSP. -/
theorem witness_StackLevels :
    let user := fetched (setCtx scalarAt 0 { ctxOf scalarAt 0 with stw := 0x2000 }) 0
    Issues .plain (some 1) user user 0 ∧ bit (ctxOf user 0).stw 12 = false :=
  ⟨⟨by decide, by decide +kernel, by decide, by decide⟩, by decide⟩

/-- Core 0 with a deep-store write that waits for a tag, and with a read without its value. -/
def storing : State := { scalarAt with store := { scalarAt.store with tagWait := [{ master := .core 0, addr := 0x100000000, write := some (1, 5) }] } }
def loading : State := { scalarAt with store := { scalarAt.store with inflight := [{ master := .core 0, addr := 0x100000000, data := 7, poison := false }] } }

theorem witness_Fence : Issues .plain (some 1) storing storing 0 ∧ storesPending storing 0 = true ∧ Issues .plain (some 1) loading loading 0 ∧
    loadsPending loading 0 = true ∧ storesPending scalarAt 0 = false ∧ loadsPending scalarAt 0 = false :=
  ⟨⟨by decide, by decide +kernel, by decide, by decide⟩, by decide, ⟨by decide, by decide +kernel, by decide, by decide⟩, by decide, by decide, by decide⟩

/-- With the write pending no splice is issued. -/
theorem witness_IssueWaits :
    let ins : List SIns := [⟨0xC0, 0, sampleFields false⟩]
    let s := { vectorAt with store := storing.store }
    issueReason s (coreCode s 0) ins (capture s 0 ins) = 0 ∧ mustWait s 0 (capture s 0 ins) = true := by decide

/-- A code without a share of the pumps is a cause of reason 0x0A, and of no other. -/
theorem witness_IssueCause :
    let ins : List SIns := [⟨0xC0, 0, sampleFields false⟩]
    IssueCause { vectorAt with regs := scalarAt.regs } 1 ins (capture vectorAt 0 ins) 10 ∧
    issueReason { vectorAt with regs := scalarAt.regs } 1 ins (capture vectorAt 0 ins) = 10 := by
  refine ⟨?_, by decide⟩
  show (1 : OwnerCode) ≠ 8 ∧ _
  decide

/-- A word that spells no instruction, of a short-vector opcode, with a chain open. -/
theorem witness_Words : let s := setCtx scalarAt 0 { ctxOf scalarAt 0 with chain := [0xC00000000000] }
    coreRuns s (0 : Core) = true ∧ (fetchIns s 0 = .ok () s) ∧ Instr.ofWord 0 0xC80000000000#48 = none ∧ Instr.ofWord 0 0#48 = none :=
  ⟨by decide, by decide +kernel, by decide, by decide⟩

theorem witness_Values : isFloat 6 = true ∧ isInt 3 = true ∧ isInt 5 = true ∧ cvtPair 6 0 = true ∧ cvtPair 5 7 = true ∧ cvtPair 10 6 = true ∧
    accType 0 1 = some 2 ∧ accType 6 0 = some 6 ∧ accType 6 1 = some 7 ∧ (Instr.sdot 0 1 { laneFields with ot := 0 }).wellFormed = true ∧
    (List.replicate 16 (none : Option Nat)).length = 16 := by decide

/-- A splice of one VADD of P12 elements in cistern 0, running on pump 0. -/
def plying : State :=
  let x := (((ctxOf vectorAt 0).setVdr 0 (setBits (desc 0x10000600 4) 40 (0 : BitVec 4))).setVdr 1 (setBits (desc 0x10000700 4) 40 (0 : BitVec 4))).setVdr 2
    (setBits (desc 0x10000800 4) 40 (0 : BitVec 4))
  accept (issueSplice (setCtx vectorAt 0 x) 0 [⟨0xC0, 0, { sampleFields false with ot := 0 }⟩])

/-- One element of it, from the first place of each vector to the next ones. -/
theorem witness_Elements : (spliceOn plying 0).any (fun p => p.instrs == [⟨0xC0, 0, { sampleFields false with ot := 0 }⟩] && p.elem == 0 && p.count plying == 4 &&
    (checkCistern plying (spliceWho p 0) 0 == .ok) && (List.range 4).all (fun k =>
      (capturedAt p.descs 0).locate k == (((0x10000600 + k : Nat) : Int), 0, 12) && regionOf (0x10000600 + k) == some (.cistern 0) &&
      (capturedAt p.descs 0x12).locate k == (((0x10000800 + k : Nat) : Int), 0, 12))) = true ∧ rdB plying .eccInjCtl 17 = false := by decide

/-- A deep-store word that core 0 may read, with a tag free for it and no other request waiting. -/
theorem witness_DeepRead : let s := scalarAt
    regionOf 0x100000000 = some .deep ∧ (checked s (masterWho s (.core 0)) 0x100000000 .read).1 = .ok ∧ tagFree s 0 false = true ∧
    outranked s 0 (targetOf 0x100000000) 0 = false ∧ (flights loading 0).length = 1 := by decide

/-- A line, a timer channel and lanes pass to another code of its partition; a guard holds the line, with an assertion of an earlier tick. -/
def guarding : State := { eventAt with events := { eventAt.events with now := 2, asserted := [], guarded := [(9, 1)], held := [9] } }

theorem witness_OwnerChange : Reaches eventAt (.scalar 0) (ownedRg (.line 9)).index ∧ Reaches timerAt (.scalar 0) (ownedRg (.timer 2)).index ∧
    Reaches lanesAt (.scalar 0) (ownedRg (.rxLane 1)).index ∧
    ((authOf eventAt (.scalar 0)).boot = false ∧ (authOf eventAt (.scalar 0)).safety = true ∧ (authOf eventAt (.scalar 0)).sup = true ∧
      rdF eventAt (ownedRg (.line 9)) 0 4 = (1 : BitVec 4) ∧ (0 : OwnerCode).toNat / 2 = (authOf eventAt (.scalar 0)).part ∧ llState eventAt ≠ 4 ∧
      frozen guarding 18 = false ∧ (9 ∈ guarding.events.held) ∧ due eventAt 9 = [⟨9, 1, 0⟩]) := by
  refine ⟨?_, ?_, ?_, by decide⟩ <;> (unfold Reaches; decide)

/-- BRING-UP with the layout in force that is stored. -/
theorem witness_Boot : storedLayout { booting with odBase := Tab.empty } = booting.inForce ∧ inBringUp booting = true := by decide

/-- The device without VIN_AUX, and a probe without ATT. -/
theorem witness_Off : ({ State.reset with pwr := { State.reset.pwr with aux := false } } : State).pwr.aux = false ∧ mode State.reset = 1 ∧
    supplyOut true 1200 = false ∧ rdB (wrB probed .dbgCtl 0 false) .dbgCtl 0 = false ∧
    mayDebugCore (wrB probed .dbgCtl 0 false) 0 = true := by decide

/-- A register with bits that an event of the tick in force has set. -/
theorem witness_Marked : (marked (setFlag scalarAt (.rxStat 1) 16) (.rxStat 1)).isSome = true ∧ marked scalarAt (.rxStat 1) = none := by decide

end Sys2Proof.Tests
end

/-! ### What every command keeps: the queue of waiting commands and the canonical form of memory (R4, R140, R145)

One lemma per function of the model that makes a next state, in the order of the model: it keeps both when the state it starts from has.
Inside `Keeps` a model's function is written `Machine.f` where the lemma about it has its name. -/

namespace Sys2Proof.Proofs
open Sys2Proof Sys2Proof.Machine

/-- What every command keeps of `s₀` on the way to `s`: the queue of waiting commands, and the canonical form of memory (log 19). -/
def Keeps (s₀ s : State) : Prop := s.pending = s₀.pending ∧ (Memory.wf s₀.mem = true → Memory.wf s.mem = true)

/-- A result that carries a state beside a value. -/
def KeepsSnd {α : Type} (s₀ : State) (x : α × State) : Prop := Keeps s₀ x.2

/-- A state that may be missing. -/
def KeepsOpt (s₀ : State) (x : Option State) : Prop := ∀ t, x = some t → Keeps s₀ t

/-- An access of a core, whatever it ends in. -/
def KeepsGot {α : Type} (s₀ : State) : Got α → Prop
  | .ok _ t => Keeps s₀ t
  | .fault _ t => Keeps s₀ t
  | .held => True

/-- The effect of an instruction, whatever it ends in. -/
def KeepsRes (s₀ : State) : Res → Prop
  | .done t => Keeps s₀ t
  | .branch t _ => Keeps s₀ t
  | .away t => Keeps s₀ t
  | .trap _ t => Keeps s₀ t
  | .stall => True
  | .pause t => Keeps s₀ t

/-- An element of a block-repeat instruction, whatever it ends in. -/
def KeepsElem (s₀ : State) : Elem → Prop
  | .next t => Keeps s₀ t
  | .found t => Keeps s₀ t
  | .trap _ t => Keeps s₀ t
  | .held => True

/-- A register write: where it is accepted, the state that follows. -/
def KeepsWritten (s₀ : State) (x : Written) : Prop := ∀ t, x = .ok t → Keeps s₀ t

/-- A group of a splice in progress. -/
def KeepsRun (s₀ : State) (r : Run) : Prop := Keeps s₀ r.s

/-- A result that carries a group of a splice beside a value. -/
def KeepsSndRun {α : Type} (s₀ : State) (x : α × Run) : Prop := KeepsRun s₀ x.2

/-- A splice in progress. -/
def KeepsProgress (s₀ : State) (g : Progress) : Prop := Keeps s₀ g.s

/-- A command: it completes, in a state that keeps both. -/
def KeepsOut (s₀ : State) (x : Host.Outcome State Fault Refusal) : Prop := ∃ t, x = .next t ∧ Keeps s₀ t

theorem Keeps.rfl {s : State} : Keeps s s := ⟨Eq.refl _, id⟩

theorem Keeps.trans {s t u : State} (h : Keeps s t) (h' : Keeps t u) : Keeps s u := ⟨h'.1.trans h.1, h'.2 ∘ h.2⟩

section
variable {α β : Type} {s₀ s t : State} {c : Prop} {dec : Decidable c}

/-- An update of fields other than the queue and memory. -/
theorem Keeps.frame {clock free : Nat} {sent : List Msg} {regs : Tab Reg24} {rwsDone : List Nat} {pwr : Power} {modes : ModeSeq}
    {frames : Tab FEntry} {store : StoreSt} {handovers : Tab Handover} {ctxs : Tab Ctx} {cores : Tab CoreSt} {caps : Tab CapSt}
    {checkpoint : Option Checkpoint} {rollbacks : List Nat} {splices : SpliceSt} {events : EventSt} {timers : Tab TimerSt}
    {lanes : Tab LaneSt} {rxSince : Tab (Nat × Nat)} {dogs : Tab DogSt} {hosts : Tab HostFn} {hostQueue : List (Nat × HostTlp)}
    {can : CanSt} {od odBase inForce : Tab (List Byte)} {flash : Flash} {fuses : Fuses} {fw : FwSt} {dbg : DbgSt}
    (hs : Keeps s₀ s) :
    Keeps s₀ { s with
      clock, free, sent, regs, rwsDone, pwr, modes, frames, store, handovers, ctxs, cores, caps, checkpoint, rollbacks, splices, events,
      timers, lanes, rxSince, dogs, hosts, hostQueue, can, od, odBase, inForce, flash, fuses, fw, dbg } :=
  ⟨hs.1, hs.2⟩

theorem Keeps.ite {a b : State} (ha : Keeps s₀ a) (hb : Keeps s₀ b) : Keeps s₀ (if c then a else b) := by
  split
  · exact ha
  · exact hb

theorem KeepsSnd.ite {a b : α × State} (ha : KeepsSnd s₀ a) (hb : KeepsSnd s₀ b) : KeepsSnd s₀ (if c then a else b) := by
  split
  · exact ha
  · exact hb

theorem KeepsOpt.ite {a b : Option State} (ha : KeepsOpt s₀ a) (hb : KeepsOpt s₀ b) : KeepsOpt s₀ (if c then a else b) := by
  split
  · exact ha
  · exact hb

theorem KeepsGot.ite {a b : Got α} (ha : KeepsGot s₀ a) (hb : KeepsGot s₀ b) : KeepsGot s₀ (if c then a else b) := by
  split
  · exact ha
  · exact hb

theorem KeepsRes.ite {a b : Res} (ha : KeepsRes s₀ a) (hb : KeepsRes s₀ b) : KeepsRes s₀ (if c then a else b) := by
  split
  · exact ha
  · exact hb

theorem KeepsElem.ite {a b : Elem} (ha : KeepsElem s₀ a) (hb : KeepsElem s₀ b) : KeepsElem s₀ (if c then a else b) := by
  split
  · exact ha
  · exact hb

theorem KeepsWritten.ite {a b : Written} (ha : KeepsWritten s₀ a) (hb : KeepsWritten s₀ b) : KeepsWritten s₀ (if c then a else b) := by
  split
  · exact ha
  · exact hb

theorem KeepsRun.ite {a b : Run} (ha : KeepsRun s₀ a) (hb : KeepsRun s₀ b) : KeepsRun s₀ (if c then a else b) := by
  split
  · exact ha
  · exact hb

theorem KeepsSndRun.ite {a b : α × Run} (ha : KeepsSndRun s₀ a) (hb : KeepsSndRun s₀ b) : KeepsSndRun s₀ (if c then a else b) := by
  split
  · exact ha
  · exact hb

theorem KeepsProgress.ite {a b : Progress} (ha : KeepsProgress s₀ a) (hb : KeepsProgress s₀ b) :
    KeepsProgress s₀ (if c then a else b) := by
  split
  · exact ha
  · exact hb

theorem KeepsOut.ite {a b : Host.Outcome State Fault Refusal} (ha : KeepsOut s₀ a) (hb : KeepsOut s₀ b) :
    KeepsOut s₀ (if c then a else b) := by
  split
  · exact ha
  · exact hb

theorem KeepsSnd.pair {a : α} (ht : Keeps s₀ t) : KeepsSnd s₀ (a, t) := ht

theorem KeepsSnd.of_pair {x : α × State} {a : α} (hx : KeepsSnd s₀ x) (h : x = (a, t)) : Keeps s₀ t := by subst h; exact hx

theorem KeepsRun.mk {cache : Tab Word} {writable : Tab Bool} {outs : Tab Over} {acc : List (Option Nat)} {tainted : List Nat} {taken : Nat}
    {fl : FFlags} {st : BitVec 24} {stop : Option Stop} (ht : Keeps s₀ t) :
    KeepsRun s₀ { s := t, cache, writable, outs, acc, tainted, taken, fl, st, stop } := ht

theorem KeepsProgress.mk {p : Splice} {ended : Option Ended} {held : Bool} (ht : Keeps s₀ t) :
    KeepsProgress s₀ { s := t, p, ended, held } := ht

theorem KeepsSndRun.pair {a : α} {r : Run} (hr : KeepsRun s₀ r) : KeepsSndRun s₀ (a, r) := hr

theorem KeepsSndRun.of_pair {x : α × Run} {a : α} {r : Run} (hx : KeepsSndRun s₀ x) (h : x = (a, r)) : KeepsRun s₀ r := by
  subst h
  exact hx

theorem KeepsOpt.of_some {x : Option State} (hx : KeepsOpt s₀ x) (h : x = some t) : Keeps s₀ t := hx t h

theorem KeepsOpt.some (ht : Keeps s₀ t) : KeepsOpt s₀ (some t) := by rintro _ ⟨⟩; exact ht

theorem Keeps.getD {x : Option State} (hx : KeepsOpt s₀ x) (ht : Keeps s₀ t) : Keeps s₀ (x.getD t) := by
  cases x with
  | none => exact ht
  | some u => exact hx u (Eq.refl _)

theorem KeepsOpt.bind {x : Option α} {f : α → Option State} (hf : ∀ a, KeepsOpt s₀ (f a)) : KeepsOpt s₀ (x.bind f) := by
  cases x with
  | none => exact fun u h => absurd h (Option.some_ne_none u).symm
  | some a => exact hf a

theorem KeepsOpt.none : KeepsOpt s₀ none := fun t h => absurd h (Option.some_ne_none t).symm

theorem KeepsGot.of_ok {x : Got α} {a : α} (hx : KeepsGot s₀ x) (h : x = .ok a t) : Keeps s₀ t := by subst h; exact hx

theorem KeepsGot.of_fault {x : Got α} {e : Exc} (hx : KeepsGot s₀ x) (h : x = .fault e t) : Keeps s₀ t := by subst h; exact hx

theorem KeepsRes.of_trap {x : Res} {e : Exc} (hx : KeepsRes s₀ x) (h : x = .trap e t) : Keeps s₀ t := by subst h; exact hx

theorem KeepsElem.of_next {x : Elem} (hx : KeepsElem s₀ x) (h : x = .next t) : Keeps s₀ t := by subst h; exact hx

theorem KeepsElem.of_found {x : Elem} (hx : KeepsElem s₀ x) (h : x = .found t) : Keeps s₀ t := by subst h; exact hx

theorem KeepsElem.of_trap {x : Elem} {e : Exc} (hx : KeepsElem s₀ x) (h : x = .trap e t) : Keeps s₀ t := by subst h; exact hx

theorem KeepsWritten.of_ok {x : Written} (hx : KeepsWritten s₀ x) (h : x = .ok t) : Keeps s₀ t := hx t h

theorem KeepsWritten.ok (ht : Keeps s₀ t) : KeepsWritten s₀ (.ok t) := by rintro _ ⟨⟩; exact ht

theorem KeepsWritten.error {e : Reject} : KeepsWritten s₀ (.error e) := fun _ h => absurd h (by simp)

theorem KeepsOut.next (ht : Keeps s₀ t) : KeepsOut s₀ (.next t) := ⟨t, Eq.refl _, ht⟩

/-- What each step of a fold keeps, the fold keeps. -/
theorem Keeps.foldl {f : State → β → State} {l : List β} (hs : Keeps s₀ s) (hf : ∀ t a, Keeps s₀ t → Keeps s₀ (f t a)) :
    Keeps s₀ (l.foldl f s) := Laws.foldl_keeps f l hf s hs

theorem KeepsSnd.foldl {f : α × State → β → α × State} {l : List β} {x : α × State} (hx : KeepsSnd s₀ x)
    (hf : ∀ x a, KeepsSnd s₀ x → KeepsSnd s₀ (f x a)) : KeepsSnd s₀ (l.foldl f x) := Laws.foldl_keeps f l hf x hx

theorem KeepsSndRun.foldl {f : α × Run → β → α × Run} {l : List β} {x : α × Run} (hx : KeepsSndRun s₀ x)
    (hf : ∀ x a, KeepsSndRun s₀ x → KeepsSndRun s₀ (f x a)) : KeepsSndRun s₀ (l.foldl f x) := Laws.foldl_keeps f l hf x hx

theorem KeepsRun.foldl {f : Run → β → Run} {l : List β} {r : Run} (hr : KeepsRun s₀ r)
    (hf : ∀ r a, KeepsRun s₀ r → KeepsRun s₀ (f r a)) : KeepsRun s₀ (l.foldl f r) := Laws.foldl_keeps f l hf r hr

end

section
variable {s₀ s : State}

/-! #### The registers and counters of the base -/

theorem Keeps.wr {r : Rg} {v : Reg24} (hs : Keeps s₀ s) : Keeps s₀ (wr s r v) := ⟨hs.1, hs.2⟩
theorem Keeps.wrF {len : Nat} {r : Rg} {lo : Nat} {x : BitVec len} (hs : Keeps s₀ s) : Keeps s₀ (wrF s r lo x) := hs.wr
theorem Keeps.wrB {r : Rg} {i : Nat} {b : Bool} (hs : Keeps s₀ s) : Keeps s₀ (wrB s r i b) := hs.wr
theorem Keeps.bumpF {r : Rg} {lo len k : Nat} (hs : Keeps s₀ s) : Keeps s₀ (bumpF s r lo len k) := hs.wr
theorem Keeps.markSet {r : Rg} {b : Reg24} (hs : Keeps s₀ s) : Keeps s₀ (markSet s r b) := .ite hs.frame hs
theorem Keeps.setFlag {r : Rg} {i : Nat} (hs : Keeps s₀ s) : Keeps s₀ (setFlag s r i) := hs.markSet.wrB
theorem Keeps.tally {r : Rg} {lo len k : Nat} (hs : Keeps s₀ s) : Keeps s₀ (tally s r lo len k) := hs.markSet.bumpF
theorem Keeps.send {m : Msg} (hs : Keeps s₀ s) : Keeps s₀ (send s m) := ⟨hs.1, hs.2⟩
theorem Keeps.sendCan {m : Msg} (hs : Keeps s₀ s) : Keeps s₀ (sendCan s m) := .ite hs.send hs
theorem Keeps.drawBits {w : Nat} (hs : Keeps s₀ s) : KeepsSnd s₀ (drawBits w s) := hs.frame
theorem Keeps.drawBool (hs : Keeps s₀ s) : KeepsSnd s₀ (drawBool s) := hs.frame
theorem Keeps.drawNat (hs : Keeps s₀ s) : KeepsSnd s₀ (drawNat s) := hs.frame
theorem Keeps.setCtxAt {k : Nat} {x : Ctx} (hs : Keeps s₀ s) : Keeps s₀ (setCtxAt s k x) := ⟨hs.1, hs.2⟩
theorem Keeps.setCtx {c : Nat} {x : Ctx} (hs : Keeps s₀ s) : Keeps s₀ (setCtx s c x) := hs.setCtxAt
theorem Keeps.setCore {c : Nat} {x : CoreSt} (hs : Keeps s₀ s) : Keeps s₀ (setCore s c x) := ⟨hs.1, hs.2⟩
theorem Keeps.setCap {c : Nat} {x : CapSt} (hs : Keeps s₀ s) : Keeps s₀ (setCap s c x) := ⟨hs.1, hs.2⟩
theorem Keeps.setG {c n : Nat} {v : W48} (hs : Keeps s₀ s) : Keeps s₀ (setG s c n v) := hs.setCtx
theorem Keeps.setFr {c n : Nat} {v : W48} (hs : Keeps s₀ s) : Keeps s₀ (setFr s c n v) := hs.setCtx
theorem Keeps.setStw {c : Nat} {v : W48} (hs : Keeps s₀ s) : Keeps s₀ (setStw s c v) := hs.setCtx
theorem Keeps.setPc {c : Nat} {a : Addr} (hs : Keeps s₀ s) : Keeps s₀ (setPc s c a) := hs.setCtx

/-! #### Health and the error log -/


theorem Keeps.report (hs : Keeps s₀ s) : Keeps s₀ (report s) := by
  have hf := hs.foldl (l := (List.range 12).filter (fun b => bit (health s) b && !bit s.can.reported b))
    (f := fun t b => Machine.sendCan t (.emcy (emcyCode b) (errorRegister (health s)))) fun _ _ ht => ht.sendCan
  unfold Machine.report
  exact (Keeps.ite hf.sendCan hf).frame

theorem Keeps.countFailure (hs : Keeps s₀ s) : Keeps s₀ (countFailure s) := hs.frame.report

theorem sumpStore_pending {key : Nat} {w : StoredWord} : (sumpStore s key w).pending = s.pending := by
  unfold sumpStore
  split <;> rfl

theorem Keeps.log {e : LogEntry} (hs : Keeps s₀ s) : Keeps s₀ (log s e) := by
  refine ⟨?_, fun h => Laws.log_wf s e (hs.2 h)⟩
  have hp : ∀ k l v w, (sumpStore (sumpStore s k v) l w).pending = s₀.pending :=
    fun _ _ _ _ => (sumpStore_pending.trans sumpStore_pending).trans hs.1
  unfold Machine.log
  dsimp only
  split
  · exact hs.1
  · split <;> exact hp ..

theorem Keeps.assertLine {m : Nat} {c : OwnerCode} (hs : Keeps s₀ s) : Keeps s₀ (assertLine s m c) := ⟨hs.1, hs.2⟩
theorem Keeps.assertIf {en : Bool} {m : Nat} {c : OwnerCode} (hs : Keeps s₀ s) : Keeps s₀ (assertIf s en m c) := .ite hs.assertLine hs

/-! #### Stored words -/


theorem Keeps.setFrame {n : Nat} {e : FEntry} (hs : Keeps s₀ s) : Keeps s₀ (setFrame s n e) := by
  refine ⟨?_, fun h => Laws.setFrame_wf s n e (hs.2 h)⟩
  unfold Machine.setFrame
  dsimp only
  split <;> exact hs.1

theorem Keeps.discardFrame {n : Nat} (hs : Keeps s₀ s) : Keeps s₀ (discardFrame s n) := hs.drawBits.drawBits.drawBits.frame
theorem Keeps.recordRetirement {n : Nat} (hs : Keeps s₀ s) : Keeps s₀ (recordRetirement s n) := .ite hs (.ite hs.wrB.report hs.frame)

theorem Keeps.retireTrigger {n : Nat} {e : LogEntry} (hs : Keeps s₀ s) : Keeps s₀ (retireTrigger s n e) :=
  .ite hs (.ite (.ite hs hs.frame.log) (.ite hs.setFrame.recordRetirement.log hs.setFrame.log))

theorem Keeps.frameCe {n : Nat} {e : LogEntry} (hs : Keeps s₀ s) : Keeps s₀ (frameCe s n e) := .ite hs.setFrame.retireTrigger hs.setFrame

theorem Keeps.frameUe {n : Nat} {e : LogEntry} (hs : Keeps s₀ s) : Keeps s₀ (frameUe s n e) :=
  .ite (Keeps.ite hs hs.setFrame).retireTrigger (.ite hs hs.setFrame)

theorem Keeps.channelAce {n : Nat} (hs : Keeps s₀ s) : Keeps s₀ (channelAce s n) := .ite hs.frame.wrB.log.report hs.frame

theorem Keeps.setMem {key : Nat} {w : StoredWord} (hs : Keeps s₀ s) : Keeps s₀ (setMem s key w) :=
  ⟨hs.1, fun h => Laws.setMem_wf s key w (hs.2 h)⟩

theorem Keeps.putAt {h : Home} {key : Nat} {w : StoredWord} (hs : Keeps s₀ s) : Keeps s₀ (putAt s h key w) := by
  unfold Machine.putAt
  split
  · exact hs.setMem
  · exact hs.frame
  · exact hs.frame

theorem Keeps.readCe {h : Home} {key : Nat} {master : Byte} {w : StoredWord} {located : BitVec 88} (hs : Keeps s₀ s) :
    Keeps s₀ (readCe s h key master w located) := .ite hs.putAt.bumpF.log.frameCe hs.putAt.bumpF.log

theorem Keeps.readUe {h : Home} {key : Nat} {master : Byte} {w : StoredWord} (hs : Keeps s₀ s) : Keeps s₀ (readUe s h key master w) :=
  .ite hs.putAt.bumpF.log.frameUe hs.putAt.bumpF.log

theorem Keeps.readAce {h : Home} {key : Nat} {master : Byte} {w : StoredWord} (hs : Keeps s₀ s) : Keeps s₀ (readAce s h key master w) :=
  .ite hs.bumpF.log.channelAce hs.bumpF.log

theorem Keeps.markedWord (hs : Keeps s₀ s) : KeepsSnd s₀ (markedWord s) := hs.frame

theorem Keeps.decodeRead {h : Home} {key : Nat} {master : Byte} {w : StoredWord} (hs : Keeps s₀ s) :
    KeepsSnd s₀ (decodeRead s h key master w) := by
  unfold Machine.decodeRead
  split
  · exact hs
  · exact hs.readCe
  · exact hs.readAce.markedWord
  · exact hs
  · exact hs.readUe.markedWord

theorem Keeps.readTarget {key : Nat} {master : Byte} (hs : Keeps s₀ s) : KeepsSnd s₀ (readTarget s key master) := by
  unfold Machine.readTarget
  refine .ite hs.markedWord ?_
  split
  · exact hs.decodeRead
  · exact hs.decodeRead

theorem Keeps.readWord {key : Nat} {master : Byte} (hs : Keeps s₀ s) : KeepsSnd s₀ (readWord s key master) := by
  unfold Machine.readWord
  split
  · exact hs.decodeRead
  · exact hs.readTarget

theorem Keeps.clearReservations {key : Nat} (hs : Keeps s₀ s) : Keeps s₀ (clearReservations s key) := ⟨hs.1, hs.2⟩
theorem Keeps.storeWhole {key : Nat} {w : StoredWord} (hs : Keeps s₀ s) : Keeps s₀ (storeWhole s key w) := .ite hs.setMem.wrB hs.setMem
theorem Keeps.storeTarget {key : Nat} {w : StoredWord} (hs : Keeps s₀ s) : Keeps s₀ (storeTarget s key w) := .ite hs.bumpF hs.storeWhole

theorem Keeps.cachesFollow {key : Nat} {mask data : Word72} {master : Byte} (hs : Keeps s₀ s) :
    Keeps s₀ (cachesFollow s key mask data master) := by
  unfold Machine.cachesFollow
  dsimp only
  split
  · exact hs.frame
  · exact .ite hs.frame.frame (.ite hs.frame.decodeRead hs.frame.decodeRead.frame)

theorem Keeps.writeMasked {key : Nat} {mask data : Word72} {master : Byte} (hs : Keeps s₀ s) :
    Keeps s₀ (writeMasked s key mask data master) :=
  .ite hs (.ite (Keeps.ite hs.clearReservations.cachesFollow hs.clearReservations).bumpF (.ite (Keeps.ite
    hs.clearReservations.cachesFollow hs.clearReservations).storeWhole (.ite (Keeps.ite hs.clearReservations.cachesFollow
    hs.clearReservations).readTarget (Keeps.ite hs.clearReservations.cachesFollow hs.clearReservations).readTarget.setMem)))

theorem Keeps.writeWord {key : Nat} {mask : BitVec 6} {data : Word72} {master : Byte} (hs : Keeps s₀ s) :
    Keeps s₀ (writeWord s key mask data master) := hs.writeMasked

theorem Keeps.writePoison {key : Nat} (hs : Keeps s₀ s) : Keeps s₀ (writePoison s key) :=
  (Keeps.ite hs.clearReservations.frame hs.clearReservations).storeTarget

theorem Keeps.poisonUsed {key : Nat} {cached : Bool} {master : Byte} (hs : Keeps s₀ s) : Keeps s₀ (poisonUsed s key cached master) :=
  hs.log

theorem Keeps.readEntry {n : Nat} {master : Byte} (hs : Keeps s₀ s) : Keeps s₀ (readEntry s n master) :=
  .ite hs.readTarget.discardFrame.log hs.readTarget.frame

theorem Keeps.readCopy {n : Nat} {second : Bool} {master : Byte} {w : StoredWord} (hs : Keeps s₀ s) :
    KeepsSnd s₀ (readCopy s n second master w) := hs.decodeRead

theorem Keeps.rewriteCopy {n : Nat} {second : Bool} (hs : Keeps s₀ s) : Keeps s₀ (rewriteCopy s n second) := ⟨hs.1, hs.2⟩

theorem Keeps.readLocked {n : Nat} {master : Byte} {p : StoredWord × StoredWord} {both : Bool} (hs : Keeps s₀ s) :
    Keeps s₀ (readLocked s n master p both) := by
  unfold Machine.readLocked
  split
  next e =>
    refine .ite ?_ (hs.readCopy.of_pair e)
    split
    next e1 => exact (hs.readCopy.of_pair e).readCopy.of_pair e1
    next e1 => exact ((hs.readCopy.of_pair e).readCopy.of_pair e1).rewriteCopy
  next e =>
    split
    next e1 => exact ((hs.readCopy.of_pair e).readCopy.of_pair e1).rewriteCopy
    next e1 => exact ((hs.readCopy.of_pair e).readCopy.of_pair e1).readEntry

theorem Keeps.lookupFrame {n : Nat} {master : Byte} (hs : Keeps s₀ s) : Keeps s₀ (lookupFrame s n master) := by
  unfold Machine.lookupFrame
  refine .ite hs ?_
  split
  · exact hs.readLocked
  · split
    · split
      next e2 => exact (hs.readCopy.of_pair e2).frame
      next e2 => exact (hs.readCopy.of_pair e2).readEntry
    · exact hs.bumpF.readEntry

theorem Keeps.lookup {w : Who} {a : Nat} (hs : Keeps s₀ s) : Keeps s₀ (lookup s w a) := .ite hs.lookupFrame hs
theorem Keeps.checked {w : Who} {a : Nat} {k : Kind} (hs : Keeps s₀ s) : KeepsSnd s₀ (checked s w a k) := hs.lookup

theorem Keeps.checkedPlies {w : Who} {a n : Nat} {k : Kind} (hs : Keeps s₀ s) : KeepsSnd s₀ (checkedPlies s w a n k) :=
  .ite (.pair hs) hs.checked

theorem Keeps.fetchWord {a : Nat} {master : Byte} (hs : Keeps s₀ s) : KeepsSnd s₀ (fetchWord s a master) := by
  unfold Machine.fetchWord
  refine Laws.region_choice (P := KeepsSnd s₀) ?_ ?_ ?_
  · exact .pair hs
  · exact .pair hs.readWord
  · exact hs.readWord

theorem Keeps.fillWord {key : Nat} {master : Byte} (hs : Keeps s₀ s) : KeepsSnd s₀ (fillWord s key master) :=
  .ite (.pair hs) hs.readTarget

theorem Keeps.readMany {f : State → Nat → Word × State} {l : List Nat} (hf : ∀ t k, Keeps s₀ t → KeepsSnd s₀ (f t k))
    (hs : Keeps s₀ s) : KeepsSnd s₀ (readMany f l s) := by
  induction l generalizing s with
  | nil => exact hs
  | cons k l ih => exact ih (hf s k hs)

theorem Keeps.writeBack {l : L2Line} (hs : Keeps s₀ s) : Keeps s₀ (writeBack s l) := hs.foldl fun _ _ ht => ht.decodeRead.storeTarget

theorem Keeps.evict {a w : Nat} (hs : Keeps s₀ s) : Keeps s₀ (evict s a w) := by
  unfold Machine.evict
  split
  · exact hs
  · exact (Keeps.ite hs.writeBack hs).frame

theorem Keeps.fillL2 {a : Nat} {master : Byte} (hs : Keeps s₀ s) : Keeps s₀ (fillL2 s a master) := by
  unfold Machine.fillL2
  refine .ite hs ?_
  dsimp only
  refine Keeps.frame ?_
  split
  · exact Keeps.readMany (fun _ _ ht => ht.fillWord) hs
  · exact (Keeps.readMany (fun _ _ ht => ht.fillWord) hs).drawNat.evict

theorem Keeps.readL2 {key : Nat} {master : Byte} (hs : Keeps s₀ s) : KeepsSnd s₀ (readL2 s key master) := hs.decodeRead

theorem Keeps.l1Miss {c : Nat} {fetch : Bool} {a : Nat} {master : Byte} (hs : Keeps s₀ s) : KeepsSnd s₀ (l1Miss s c fetch a master) :=
  (Keeps.readMany (fun _ _ ht => ht.readL2) hs.fillL2).frame

theorem Keeps.crcMismatch {c : Nat} {fetch : Bool} {l : L1Line} {master : Byte} (hs : Keeps s₀ s) :
    Keeps s₀ (crcMismatch s c fetch l master) := .ite hs.bumpF.log.frame hs.bumpF.log.frame.bumpF.log.frame

theorem Keeps.l1Read {c : Nat} {fetch : Bool} {a : Nat} {master : Byte} (hs : Keeps s₀ s) : KeepsSnd s₀ (l1Read s c fetch a master) := by
  unfold Machine.l1Read
  split
  · exact hs.l1Miss
  · exact .ite (.pair hs.frame) hs.crcMismatch.l1Miss

theorem Keeps.cachedRead {c a : Nat} {master : Byte} (hs : Keeps s₀ s) : KeepsSnd s₀ (cachedRead s c a master) := hs.l1Read

theorem Keeps.cachedWrite {c a : Nat} {mask data : Word72} {master : Byte} (hs : Keeps s₀ s) :
    Keeps s₀ (cachedWrite s c a mask data master) :=
  .ite hs (.ite (KeepsSnd.ite (KeepsSnd.pair hs.clearReservations.fillL2) (KeepsSnd.pair hs.clearReservations.fillL2.readL2))
    (KeepsSnd.ite (KeepsSnd.pair hs.clearReservations.fillL2) (KeepsSnd.pair hs.clearReservations.fillL2.readL2)).frame)

theorem Keeps.accessWord {w : Who} {a : Nat} (hs : Keeps s₀ s) : KeepsSnd s₀ (accessWord s w a) := .ite hs.cachedRead hs.fetchWord

theorem Keeps.putWord {w : Who} {a : Nat} {mask : BitVec 6} {data : Word72} (hs : Keeps s₀ s) : Keeps s₀ (putWord s w a mask data) :=
  .ite hs.cachedWrite hs.writeWord

theorem Keeps.writeBackLines {p : Nat → Bool} (hs : Keeps s₀ s) : Keeps s₀ (writeBackLines s p) :=
  hs.foldl fun _ _ ht => Keeps.ite ht.writeBack ht

theorem Keeps.flushLines {p : Nat → Bool} (hs : Keeps s₀ s) : Keeps s₀ (flushLines s p) := hs.writeBackLines.frame

/-! #### Register fields -/

theorem Keeps.judge {reasons : List (Bool × Reject)} (hs : Keeps s₀ s) : KeepsWritten s₀ (judge reasons s) := by
  unfold Machine.judge
  split
  · exact .error
  · exact .ok hs

theorem Keeps.post {status : Rg} {i : Nat} {r : Reject} (hs : Keeps s₀ s) : Keeps s₀ (post s status i r) := hs.markSet.wr
theorem Keeps.store {r : Rg} {v : Reg24} (hs : Keeps s₀ s) : Keeps s₀ (store s r v) := .ite hs.wr hs.wr.frame
theorem Keeps.changeOwner {x : Owned} {o : OwnerCode} (hs : Keeps s₀ s) : Keeps s₀ (changeOwner s x o) := ⟨hs.1, hs.2⟩

/-! #### The deep store -/

theorem Keeps.granted {m t : Nat} (hs : Keeps s₀ s) : Keeps s₀ (granted s m t) := .ite hs hs.frame
theorem Keeps.takeTag {f : Flight} (hs : Keeps s₀ s) : Keeps s₀ (takeTag s f) := ⟨hs.1, hs.2⟩

theorem Keeps.serve {q : Request} (hs : Keeps s₀ s) : Keeps s₀ (serve s q) := by
  unfold Machine.serve
  dsimp only
  split
  · exact .ite hs.granted.writeWord.takeTag hs.granted.writeWord
  · exact .ite hs.granted.fetchWord.takeTag hs.granted.fetchWord.send

theorem Keeps.ringError {d : Nat} (hs : Keeps s₀ s) : Keeps s₀ (ringError s d) := hs.setFlag.wrB
theorem Keeps.ringRefused {d a : Nat} (hs : Keeps s₀ s) : Keeps s₀ (ringRefused s d a) := (Keeps.ite hs.wrF hs).ringError

theorem Keeps.refuse {q : Request} (hs : Keeps s₀ s) : Keeps s₀ (refuse s q) := by
  unfold Machine.refuse
  dsimp only
  split
  · exact hs.countFailure.send.frame.ringRefused
  · exact hs.countFailure.send.frame

theorem Keeps.waitAtPort {q : Request} (hs : Keeps s₀ s) : Keeps s₀ (waitAtPort s q) := ⟨hs.1, hs.2⟩
theorem Keeps.hold {q : Request} (hs : Keeps s₀ s) : Keeps s₀ (hold s q) := ⟨hs.1, hs.2⟩

theorem Keeps.arrive {q : Request} (hs : Keeps s₀ s) : Keeps s₀ (arrive s q) := by
  unfold Machine.arrive
  dsimp only
  refine .ite hs.hold (.ite hs.refuse ?_)
  split
  next e => exact (hs.checked.of_pair e).refuse
  next e => exact .ite (hs.checked.of_pair e).waitAtPort (hs.checked.of_pair e).hold
  next e => exact .ite (hs.checked.of_pair e).waitAtPort (hs.checked.of_pair e).serve

theorem Keeps.request {q : Request} (hs : Keeps s₀ s) : Keeps s₀ (request s q) := .ite hs.waitAtPort hs.arrive

theorem Keeps.serveHeld {here : Nat → Bool} (hs : Keeps s₀ s) : Keeps s₀ (serveHeld s here) :=
  Keeps.foldl hs.frame fun _ _ ht => ht.arrive

theorem Keeps.releaseTag {n : Nat} (hs : Keeps s₀ s) : Keeps s₀ (releaseTag s n) := by
  unfold Machine.releaseTag
  split
  · exact hs.frame.arrive
  · exact hs

theorem Keeps.grantAccess {w : Who} {a : Nat} (hs : Keeps s₀ s) : Keeps s₀ (grantAccess s w a) := .ite hs.granted hs

theorem Keeps.admitted {w : Who} {a n : Nat} {k : Kind} (hs : Keeps s₀ s) : KeepsSnd s₀ (admitted s w a n k) := by
  unfold Machine.admitted
  split
  next e => exact .ite (.pair (hs.checkedPlies.of_pair e)) (.pair (hs.checkedPlies.of_pair e).grantAccess)
  · exact hs.checkedPlies

theorem Keeps.returnRead {n k : Nat} {lat : BitVec 12} (hs : Keeps s₀ s) : Keeps s₀ (returnRead s n k lat) := by
  unfold Machine.returnRead
  split
  · exact hs
  · exact .ite hs.frame (Keeps.ite (Keeps.ite (Keeps.ite hs.frame.wrF hs.frame).wrF (Keeps.ite hs.frame.wrF hs.frame)) (Keeps.ite
    hs.frame.wrF hs.frame)).send

theorem Keeps.activateReservation {n : Nat} (hs : Keeps s₀ s) : Keeps s₀ (activateReservation s n) := .ite hs.wrB hs

theorem Keeps.writeDsChCfg {a : Auth} {n : Nat} {v : Reg24} (hs : Keeps s₀ s) : KeepsWritten s₀ (writeDsChCfg s a n v) :=
  (Keeps.ite hs.store.wrB hs.store).judge

theorem Keeps.writeFtOp {a : Auth} {k : Nat} {v : Reg24} (hs : Keeps s₀ s) : KeepsWritten s₀ (writeFtOp s a k v) :=
  (Keeps.ite hs.lookupFrame.frame.wrB.setFrame hs.lookupFrame.frame.wrB).judge

theorem Keeps.writeFtSet {a : Auth} {k : Nat} {r : Rg} {v : Reg24} (hs : Keeps s₀ s) : KeepsWritten s₀ (writeFtSet s a k r v) :=
  hs.store.judge

theorem Keeps.ftDone {k : Nat} (hs : Keeps s₀ s) : Keeps s₀ (ftDone s k) := hs.frame.wrB.wrB
theorem Keeps.frameLog {n : Nat} {type : Byte} (hs : Keeps s₀ s) : Keeps s₀ (frameLog s n type) := hs.log

theorem Keeps.zeroWords {p : Nat → Bool} (hs : Keeps s₀ s) : Keeps s₀ (zeroWords s p) :=
  ⟨hs.1, fun h => Laws.zeroWords_wf s p (hs.2 h)⟩

theorem Keeps.zeroFrame {n : Nat} (hs : Keeps s₀ s) : Keeps s₀ (zeroFrame s n) := Keeps.foldl hs.zeroWords fun _ _ ht => .ite ht.bumpF ht
theorem Keeps.clearReservedIn {p : Nat → Bool} (hs : Keeps s₀ s) : Keeps s₀ (clearReservedIn s p) := ⟨hs.1, hs.2⟩
theorem Keeps.cacheEntry {n : Nat} (hs : Keeps s₀ s) : Keeps s₀ (cacheEntry s n) := .ite hs hs.frame

theorem Keeps.completeMove {k : Nat} (hs : Keeps s₀ s) : Keeps s₀ (completeMove s k) := by
  unfold Machine.completeMove
  split
  · exact hs
  · exact .ite hs (Keeps.ite (Keeps.ite hs.flushLines.zeroFrame
    hs.flushLines).setFrame.cacheEntry.clearReservedIn.recordRetirement.frameLog (Keeps.ite hs.flushLines.zeroFrame
    hs.flushLines).setFrame.cacheEntry.clearReservedIn).ftDone.serveHeld

theorem Keeps.completeFrameCommand {k : Nat} (hs : Keeps s₀ s) : Keeps s₀ (completeFrameCommand s k) := by
  unfold Machine.completeFrameCommand
  split
  · exact hs
  · dsimp only
    split
    · exact hs.setFrame.ftDone
    · exact hs.setFrame.ftDone
    · exact .ite hs.setFrame.recordRetirement.frameLog.ftDone hs.setFrame.frameLog.ftDone
    · exact hs.wr.wr.wr.ftDone
    · exact hs

theorem Keeps.writeEccInjCtl {a : Auth} {v : Reg24} (hs : Keeps s₀ s) : KeepsWritten s₀ (writeEccInjCtl s a v) := hs.store.wrB.judge

theorem Keeps.writeStoreBlock {a : Auth} {r : Rg} {v : Reg24} (hs : Keeps s₀ s) : KeepsWritten s₀ (writeStoreBlock s a r v) := by
  unfold Machine.writeStoreBlock
  split
  · exact hs.writeDsChCfg
  · exact hs.writeFtSet
  · exact hs.writeFtSet
  · exact hs.writeFtOp
  · exact hs.writeFtSet
  · exact hs.writeFtSet
  · exact hs.writeEccInjCtl
  · exact hs.store.judge
  · exact hs.store.judge
  · exact hs.store.judge
  · exact hs.store.judge
  · exact .ok hs.store

theorem Keeps.setScrub {u : Nat} {x : ScrubSt} (hs : Keeps s₀ s) : Keeps s₀ (setScrub s u x) := ⟨hs.1, hs.2⟩
theorem Keeps.pauseLap {u : Nat} (hs : Keeps s₀ s) : Keeps s₀ (pauseLap s u) := hs.setScrub
theorem Keeps.resumeLap {u : Nat} (hs : Keeps s₀ s) : Keeps s₀ (resumeLap s u) := hs.setScrub

theorem Keeps.frameLap {u i lap : Nat} (hs : Keeps s₀ s) : Keeps s₀ (frameLap s u i lap) :=
  .ite (.ite hs.setFrame hs) (.ite hs.setFrame hs)

theorem Keeps.lapEnd {u : Nat} (hs : Keeps s₀ s) : Keeps s₀ (lapEnd s u) := hs.wr.wr.setScrub.report

theorem Keeps.repair {scalar : Bool} {k : Nat} {master : Byte} (hs : Keeps s₀ s) : Keeps s₀ (repair s scalar k master) :=
  (KeepsSnd.foldl (KeepsSnd.pair hs) fun _ _ ht => .pair ht.readWord).setMem.bumpF.log

theorem Keeps.controlRead {scalar : Bool} {k : Nat} {master : Byte} (hs : Keeps s₀ s) : KeepsSnd s₀ (controlRead s scalar k master) := by
  unfold Machine.controlRead
  dsimp only
  split
  · exact hs.repair.readTarget
  · exact hs.repair.readTarget
  · exact hs.readTarget

theorem Keeps.reachWords {scalar : Bool} {master : Byte} {reached : Nat → State → Bool × State} {l : List Nat}
    (hf : ∀ k t, Keeps s₀ t → KeepsSnd s₀ (reached k t)) (hs : Keeps s₀ s) :
    KeepsSnd s₀ (reachWords scalar master reached l s) := by
  induction l generalizing s with
  | nil => exact .pair hs
  | cons k l ih =>
    unfold Machine.reachWords
    split
    next e => exact ih ((hf k s hs).of_pair e)
    next e => exact KeepsSnd.ite (.pair ((hf k s hs).of_pair e).controlRead) (ih ((hf k s hs).of_pair e).controlRead)

theorem Keeps.scrubL2 {i : Nat} (hs : Keeps s₀ s) : Keeps s₀ (scrubL2 s i) := by
  unfold Machine.scrubL2
  split
  · exact hs
  · split
    · exact hs
    · exact hs.decodeRead

theorem Keeps.scrubEntry {l : FtLine} (hs : Keeps s₀ s) : Keeps s₀ (scrubEntry s l) := by
  unfold Machine.scrubEntry
  dsimp only
  split
  · exact hs.readCopy.readEntry
  · exact hs.readCopy

theorem Keeps.scrubTable {i : Nat} (hs : Keeps s₀ s) : Keeps s₀ (scrubTable s i) := by
  unfold Machine.scrubTable
  dsimp only
  split
  · exact hs.readLocked
  · split
    · exact hs
    · exact hs.scrubEntry

theorem Keeps.scrubWord {u i : Nat} (hs : Keeps s₀ s) : Keeps s₀ (scrubWord s u i) := by
  unfold Machine.scrubWord
  refine .ite hs.scrubL2 (.ite hs.scrubTable (.ite hs.controlRead ?_))
  split
  · exact hs
  · exact hs.readTarget

theorem Keeps.scrubAdvance {u : Nat} (hs : Keeps s₀ s) : Keeps s₀ (scrubAdvance s u) :=
  .ite hs.setScrub.frameLap.lapEnd hs.setScrub.frameLap

theorem Keeps.lapIsOverdue {u : Nat} (hs : Keeps s₀ s) : Keeps s₀ (lapIsOverdue s u) := .ite hs hs.wrB.log.report

/-! #### Cisterns -/

theorem Keeps.setHandover {n : Nat} {h : Handover} (hs : Keeps s₀ s) : Keeps s₀ (setHandover s n h) := ⟨hs.1, hs.2⟩

theorem Keeps.startHandover {n : Nat} {o : OwnerCode} {scrub : Bool} (hs : Keeps s₀ s) : Keeps s₀ (startHandover s n o scrub) :=
  hs.setHandover.wrB

theorem Keeps.startScrubbed {n : Nat} {o : OwnerCode} (hs : Keeps s₀ s) : Keeps s₀ (startScrubbed s n o) := hs.wrB.startHandover
theorem Keeps.lifelineHandover {o : OwnerCode} (hs : Keeps s₀ s) : Keeps s₀ (lifelineHandover s o) := .ite hs.setHandover hs.startScrubbed

theorem Keeps.startPower {n : Nat} {target : BitVec 2} (hs : Keeps s₀ s) : Keeps s₀ (startPower s n target) :=
  (Keeps.ite hs.pauseLap hs).wrF.wrF

theorem Keeps.queuePower {n : Nat} {req : BitVec 2} (hs : Keeps s₀ s) : Keeps s₀ (queuePower s n req) := hs.wrF.wrB

theorem Keeps.requestPower {n : Nat} {req : BitVec 2} (hs : Keeps s₀ s) : Keeps s₀ (requestPower s n req) :=
  .ite hs.wrF.queuePower (.ite hs.wrF hs.wrF.startPower)

theorem Keeps.cisternNext {n : Nat} (hs : Keeps s₀ s) : Keeps s₀ (cisternNext s n) := by
  unfold Machine.cisternNext
  dsimp only
  split
  · exact hs.startScrubbed
  · exact .ite (.ite hs.wrB hs.wrB.startPower) hs

theorem Keeps.completeHandover {n : Nat} (hs : Keeps s₀ s) : Keeps s₀ (completeHandover s n) :=
  .ite (Keeps.ite hs.zeroWords hs).setHandover.wrF.clearReservedIn.wrB.wrB.serveHeld.cisternNext hs

theorem Keeps.completePower {n : Nat} (hs : Keeps s₀ s) : Keeps s₀ (completePower s n) :=
  .ite (Keeps.ite (Keeps.ite hs.wrF.zeroWords hs.wrF).resumeLap.serveHeld (Keeps.ite hs.wrF.zeroWords hs.wrF)).cisternNext hs

theorem Keeps.writeCisOwner {a : Auth} {n : Nat} {v : Reg24} (hs : Keeps s₀ s) : KeepsWritten s₀ (writeCisOwner s a n v) :=
  hs.wrB.startHandover.judge

theorem Keeps.writeCisPwr {a : Auth} {n : Nat} {v : Reg24} (hs : Keeps s₀ s) : KeepsWritten s₀ (writeCisPwr s a n v) :=
  hs.requestPower.judge

theorem Keeps.writeXbCfg {a : Auth} {v : Reg24} (hs : Keeps s₀ s) : KeepsWritten s₀ (writeXbCfg s a v) :=
  (Keeps.ite hs hs.store.wrB).judge

theorem Keeps.forgetWindow (hs : Keeps s₀ s) : Keeps s₀ (forgetWindow s) := Keeps.foldl hs.frame fun _ _ ht => ht.setCore
theorem Keeps.completeRemap (hs : Keeps s₀ s) : Keeps s₀ (completeRemap s) := .ite hs.forgetWindow.wrB.serveHeld hs

theorem Keeps.writeXbPri {a : Auth} {m j : Nat} {v : Reg24} (hs : Keeps s₀ s) : KeepsWritten s₀ (writeXbPri s a m j v) :=
  .ite hs.store.judge hs.store.judge

theorem Keeps.writeXbSlice {m j : Nat} {v : Reg24} (hs : Keeps s₀ s) : KeepsWritten s₀ (writeXbSlice s m j v) := hs.store.judge

theorem Keeps.writeCisBlock {a : Auth} {r : Rg} {v : Reg24} (hs : Keeps s₀ s) : KeepsWritten s₀ (writeCisBlock s a r v) := by
  unfold Machine.writeCisBlock
  split
  · exact hs.writeCisOwner
  · exact hs.writeCisPwr
  · exact hs.writeXbCfg
  · exact hs.writeXbPri
  · exact hs.writeXbSlice
  · exact .ok hs.store

/-! #### Streams -/

theorem Keeps.readPlies {p n : Nat} {master : Byte} (hs : Keeps s₀ s) : KeepsSnd s₀ (readPlies s p n master) :=
  KeepsSnd.foldl (KeepsSnd.pair hs) fun _ _ ht => .pair ht.controlRead

theorem Keeps.microUsed {keys : List Nat} {master : Byte} (hs : Keeps s₀ s) : Keeps s₀ (microUsed s keys master) := by
  unfold Machine.microUsed
  split
  · exact hs.poisonUsed
  · exact hs

theorem Keeps.readEntries {ins : List SIns} {master : Byte} (hs : Keeps s₀ s) : KeepsSnd s₀ (readEntries s ins master) :=
  KeepsSnd.foldl (KeepsSnd.pair hs) fun _ _ ht => .pair ht.readPlies

theorem Keeps.setTrail {cid : Nat} {t : Trail} (hs : Keeps s₀ s) : Keeps s₀ (setTrail s cid t) := ⟨hs.1, hs.2⟩
theorem Keeps.issueSplice {c : Nat} {ins : List SIns} (hs : Keeps s₀ s) : Keeps s₀ (issueSplice s c ins) := hs.setTrail.frame.setCtx

/-! #### Microcode of the sequencers -/

theorem Keeps.microRead {m : Nat} {master : Byte} (hs : Keeps s₀ s) : KeepsSnd s₀ ((microRead s m master).2) := hs.readPlies

/-- The path of a group routine, with the state after its reads. -/
def KeepsPath (s₀ : State) (x : List (BitVec 192) × Bool × State) : Prop := Keeps s₀ x.2.2

theorem KeepsPath.ite {c : Prop} {dec : Decidable c} {a b : List (BitVec 192) × Bool × State} (ha : KeepsPath s₀ a)
    (hb : KeepsPath s₀ b) : KeepsPath s₀ (if c then a else b) := by
  split
  · exact ha
  · exact hb

/-- One microword of a path. It stands for the equation of `microPath`, whose own proof is too deep for the kernel. -/
theorem Keeps.microPathStep {c : Conds} {master : Byte} {n a : Nat} {stack : List Nat}
    {ih : Nat.below (motive := fun _ => State → Nat → List Nat → List (BitVec 192) × Bool × State) (n + 1)}
    (hih : ∀ t b l, Keeps s₀ t → KeepsPath s₀ (ih.1 t b l)) (hs : Keeps s₀ s) :
    KeepsPath s₀ (microPath._f c master (n + 1) ih s a stack) := by
  have hr := hs.microRead (m := a) (master := master)
  unfold microPath._f
  refine KeepsPath.ite hr.microUsed ?_
  extract_lets na ok confine go paged
  have hgo : ∀ k l, KeepsPath s₀ (go k l) := fun k l => hih _ _ _ hr
  have hpaged : ∀ f, KeepsPath s₀ (paged f) := by
    intro f
    unfold paged
    split
    next e => exact (hr.readPlies.of_pair e).microUsed
    next e => exact hih _ _ _ (hr.readPlies.of_pair e)
  split
  · exact hpaged _
  · exact hpaged _
  · exact hgo _ _
  · exact hgo _ _
  · exact hgo _ _
  · exact hr

theorem Keeps.microPath {c : Conds} {master : Byte} {fuel a : Nat} {stack : List Nat} (hs : Keeps s₀ s) :
    KeepsSnd s₀ (microPath c master fuel s a stack).2 := by
  delta Machine.microPath
  induction fuel generalizing s a stack with
  | zero => exact hs
  | succ n ih =>
    rw [Nat.brecOn.eq (n + 1) (microPath._f c master)]
    exact Keeps.microPathStep (fun _ _ _ ht => ih ht) hs

/-! #### Splices -/

theorem KeepsRun.runFail {r : Run} {cause : BitVec 3} {d : Nat} {causes : BitVec 24} (hr : KeepsRun s₀ r) :
    KeepsRun s₀ (r.fail cause d causes) := by
  unfold Machine.Run.fail
  dsimp only
  split
  · exact KeepsRun.mk hr
  · exact hr
  · exact KeepsRun.mk hr

theorem KeepsRun.runAfter {r : Run} {before : Option Stop} (hr : KeepsRun s₀ r) : KeepsRun s₀ (r.after before) := by
  unfold Machine.Run.after
  split
  · exact KeepsRun.mk hr
  · exact hr
  · exact (KeepsRun.mk hr).runFail

theorem Keeps.checkPump {w : Who} {a : Nat} {k : Kind} (hs : Keeps s₀ s) : KeepsSnd s₀ (checkPump s w a k) := .ite hs.admitted (.pair hs)

theorem KeepsRun.runWord {e : Env} {r : Run} {wb : Nat} {active : Bool} {d : Nat} (hr : KeepsRun s₀ r) :
    KeepsSndRun s₀ (Run.word e r wb active d) := by
  unfold Machine.Run.word
  split
  · exact .pair hr
  · split
    next e2 => exact .pair (KeepsRun.mk (hr.checkPump.of_pair e2).readWord)
    · exact .pair (KeepsRun.mk hr)
    next e2 => exact .ite (.pair (KeepsRun.mk (hr.checkPump.of_pair e2).countFailure).runFail) (.pair hr)

theorem KeepsRun.runReadBits {e : Env} {r : Run} {loc : ℤ × Nat × Nat} {active : Bool} {d : Nat} (hr : KeepsRun s₀ r) :
    KeepsSndRun s₀ (Run.readBits e r loc active d) := by
  unfold Machine.Run.readBits
  refine .ite (.pair (KeepsRun.ite hr.runFail hr)) ?_
  refine KeepsSndRun.foldl (KeepsSndRun.pair hr) ?_
  intro _ _ ht
  dsimp only
  refine .ite (.pair ht) ?_
  split
  next e1 => exact .pair (ht.runWord.of_pair e1)
  next e1 => exact .pair (ht.runWord.of_pair e1)

theorem KeepsRun.runMayPut {e : Env} {r : Run} {q : Put} (hr : KeepsRun s₀ r) : KeepsRun s₀ (Run.mayPut e r q) := by
  unfold Machine.Run.mayPut
  refine .ite (.ite hr.runFail hr) ?_
  refine KeepsRun.foldl hr ?_
  intro _ _ ht
  split
  · exact ht
  · exact .ite ht.runFail ht
  · split
    next e2 => exact KeepsRun.mk (ht.checkPump.of_pair e2)
    · exact KeepsRun.mk ht
    next e2 => exact .ite (KeepsRun.mk (ht.checkPump.of_pair e2).countFailure).runFail (KeepsRun.mk (ht.checkPump.of_pair e2))

theorem KeepsRun.runPlace {r : Run} {q : Put} (hr : KeepsRun s₀ r) : KeepsRun s₀ (r.place q) :=
  .ite hr (KeepsRun.foldl hr fun _ _ ht => .ite (KeepsRun.mk ht) ht)

theorem KeepsRun.runOperand {e : Env} {r : Run} {x : SIns} {role : Role} {i : Nat} {results : List Lane} {active : Bool} (hr : KeepsRun s₀
    r) : KeepsSndRun s₀ (Run.operand e r x role i results active) := by
  unfold Machine.Run.operand
  split
  · exact hr.runReadBits
  · split
    · exact .pair hr
    · exact .pair hr

theorem KeepsRun.runNote {e : Env} {i q : Nat} {r : Run} {fl : FFlags} {sat poison : Bool} {can : FFlags} {clamp : Bool} (hr : KeepsRun s₀
    r) : KeepsRun s₀ (Run.note e i q r fl sat poison can clamp) := .ite (KeepsRun.mk hr) (KeepsRun.mk hr)

theorem KeepsRun.runActive {e : Env} {r0 : Run} {q : Nat} {x : SIns} {i : Nat} {results : List Lane} {mp : Bool} (hr0 : KeepsRun s₀ r0) :
    KeepsSndRun s₀ ((Run.active e r0 q x i results mp).2) := by
  unfold Machine.Run.active
  split
  · exact .pair hr0.runOperand.runOperand.runOperand.runNote
  · exact .pair (KeepsRun.mk hr0.runOperand.runOperand).runNote
  · dsimp only
    split
    · exact .pair hr0.runOperand
    · split
      · exact .pair (KeepsRun.mk hr0.runOperand.runOperand).runNote
      · exact .pair hr0.runOperand
  · dsimp only
    split
    · exact .pair hr0.runOperand
    · split
      · exact .pair (KeepsRun.mk hr0.runOperand.runOperand).runNote
      · split
        · exact .pair hr0.runOperand
        · exact .pair hr0.runOperand
  · dsimp only
    split
    · exact .pair hr0.runOperand
    · split
      · exact .pair hr0.runOperand.runFail
      · exact .pair hr0.runOperand.runOperand.runNote
  · dsimp only
    split
    · exact .pair hr0.runOperand
    · split
      · exact .pair hr0.runOperand.runFail
      · exact .pair hr0.runOperand.runOperand.runNote
  · dsimp only
    split
    · exact .pair hr0.runOperand.runOperand
    · split
      · exact .pair hr0.runOperand.runOperand.runFail
      · exact .pair hr0.runOperand.runOperand.runNote
  · exact .pair hr0

theorem KeepsRun.runStreams {e : Env} {r : Run} {x : SIns} {k : Nat} {results : List Lane} {mine act : Bool} (hr : KeepsRun s₀ r) :
    KeepsSndRun s₀ (Run.streams e r x k results mine act) :=
  .pair (KeepsSndRun.ite (KeepsSndRun.ite (KeepsSndRun.pair hr.runOperand) (KeepsSndRun.ite (KeepsSndRun.pair (KeepsRun.ite
    hr.runOperand.runFail hr.runOperand)) hr.runOperand.runOperand)) hr.runOperand.runOperand).runOperand

theorem KeepsRun.runExtension {e : Env} {r0 : Run} {q : Nat} {x : SIns} {i : Nat} {results : List Lane} {group : List (List Lane)}
    {act mp : Bool} (hr0 : KeepsRun s₀ r0) : KeepsSndRun s₀ (Run.extension e r0 q x i results group act mp).2 := by
  unfold Run.extension
  extract_lets path used own j mask mine resultsAt actAt still peek lanesOf y r2 sent l
  have h2 : KeepsRun s₀ r2 := KeepsRun.ite hr0.runStreams.runFail hr0.runStreams
  split
  · split
    · exact (KeepsRun.mk h2).runNote.runNote
    · exact h2.runNote
  · exact h2.runNote

theorem KeepsRun.runInstruction {e : Env} {r0 : Run} {q : Nat} {x : SIns} {i : Nat} {results : List Lane} {group : List (List Lane)} (hr0
    : KeepsRun s₀ r0) : KeepsSndRun s₀ ((Run.instruction e r0 q x i results group).2) := by
  unfold Machine.Run.instruction
  dsimp only
  split
  · exact .pair hr0.runOperand
  · split
    · exact hr0.runOperand.runExtension
    · split
      · exact hr0.runOperand.runActive
      · split
        · exact .pair hr0.runOperand
        · exact .pair hr0.runOperand
        · split
          · exact .pair hr0.runOperand
          · exact .pair hr0.runOperand.runOperand

theorem KeepsRun.runChain {e : Env} {i : Nat} {group : List (List Lane)} {l : List SIns} {q : Nat} {results : List Lane}
    {lost : List Bool} {puts : List Put} {r : Run} (hr : KeepsRun s₀ r) :
    KeepsSndRun s₀ (Run.chain e i group l q results lost puts r) := by
  induction l generalizing q results lost puts r with
  | nil => exact .pair hr
  | cons x l ih =>
    unfold Run.chain
    refine .ite (.pair hr) (.ite (ih hr) (ih ?_))
    exact (KeepsRun.mk hr).runInstruction.runAfter

theorem KeepsRun.runElement {e : Env} {group : List (List Lane)} {r0 : Run} {i : Nat} (hr0 : KeepsRun s₀ r0) :
    KeepsRun s₀ (Run.element e group r0 i) := by
  unfold Machine.Run.element
  dsimp only
  split
  · exact KeepsRun.mk (KeepsRun.mk hr0).runChain
  · exact .ite (KeepsRun.mk (KeepsRun.ite (KeepsRun.foldl (KeepsRun.mk hr0).runChain fun _ _ ht => ht.runMayPut) (KeepsRun.foldl
    (KeepsRun.foldl (KeepsRun.mk hr0).runChain fun _ _ ht => ht.runMayPut) fun _ _ ht => ht.runPlace))) (.ite (KeepsRun.foldl (KeepsRun.mk
    hr0).runChain fun _ _ ht => ht.runMayPut) (KeepsRun.foldl (KeepsRun.foldl (KeepsRun.mk hr0).runChain fun _ _ ht => ht.runMayPut) fun _
    _ ht => ht.runPlace))

theorem Keeps.commit {e : Env} {outs : Tab Over} (hs : Keeps s₀ s) : Keeps s₀ (commit s e outs) :=
  hs.foldl fun _ _ ht => Keeps.ite ht (Keeps.ite ht.writePoison ht.writeMasked)

theorem Keeps.vendorWords {id lo : Nat} {ins : List SIns} {master : Byte} (hs : Keeps s₀ s) :
    KeepsSnd s₀ (vendorWords s id lo ins master) := Keeps.reachWords (fun _ _ ht => KeepsSnd.pair ht) hs

theorem Keeps.groupPaths {e : Env} (hs : Keeps s₀ s) : KeepsSnd s₀ (groupPaths s e).2 := by
  unfold Machine.groupPaths
  refine Laws.foldl_keeps (P := fun x : List (List (BitVec 192)) × Bool × State => KeepsSnd s₀ x.2) _ _ (fun x y hx => ?_) _ hs
  split
  · exact .pair hx.microPath
  · exact hx

theorem KeepsRun.groupElements {e : Env} {group : List (List Lane)} {pick : BitVec 64} {l : List Nat} {r : Run} {st : BitVec 24}
    {z : Option Ended} (hr : KeepsRun s₀ r) : KeepsRun s₀ (groupElements e group pick l r st z).1 := by
  induction l generalizing r st z with
  | nil => exact hr
  | cons i l ih =>
    have hy := hr.runElement (e := e) (group := group) (i := i)
    cases z with
    | some z =>
      unfold Machine.groupElements
      split
      · exact ih hr
      · exact ih (.mk hy)
    | none =>
      unfold Machine.groupElements
      dsimp only
      split
      · exact hy
      · exact ih hy
      · exact ih hy

theorem KeepsProgress.runGroup {g : Progress} {pump : Nat} (hg : KeepsProgress s₀ g) : KeepsProgress s₀ (runGroup g pump) := by
  unfold Machine.runGroup
  dsimp only
  refine .ite ?_ ?_
  · refine KeepsProgress.mk ?_
    split
    · exact hg.readEntries.microUsed
    · split
      next e1 => exact (hg.readEntries.vendorWords.of_pair e1).poisonUsed
      next e1 => exact (hg.readEntries.vendorWords.of_pair e1).groupPaths
  · refine .ite (KeepsProgress.mk hg) ?_
    refine KeepsProgress.mk ?_
    refine Keeps.commit ?_
    refine KeepsRun.groupElements ?_
    refine KeepsRun.mk ?_
    split
    · exact hg.readEntries.microUsed
    · split
      next e1 => exact (hg.readEntries.vendorWords.of_pair e1).poisonUsed
      next e1 => exact (hg.readEntries.vendorWords.of_pair e1).groupPaths

theorem KeepsProgress.reduce {g : Progress} {pump : Nat} (hg : KeepsProgress s₀ g) : KeepsProgress s₀ (reduce g pump) := by
  unfold Machine.reduce
  dsimp only
  split
  · exact hg
  · split
    · exact KeepsProgress.mk hg
    · refine KeepsProgress.mk ?_
      refine KeepsRun.ite ?_ ?_
      · split
        · exact KeepsSndRun.pair (KeepsRun.mk hg).runReadBits
        · exact KeepsSndRun.pair (KeepsRun.mk hg)
      · refine KeepsRun.foldl ?_ fun _ _ ht => ht.runMayPut
        split
        · exact KeepsSndRun.pair (KeepsRun.mk hg).runReadBits
        · exact KeepsSndRun.pair (KeepsRun.mk hg)
    · refine KeepsProgress.mk ?_
      refine Keeps.commit ?_
      refine KeepsRun.runNote ?_
      refine KeepsRun.foldl ?_ fun _ _ ht => ht.runPlace
      refine KeepsRun.ite ?_ ?_
      · split
        · exact KeepsSndRun.pair (KeepsRun.mk hg).runReadBits
        · exact KeepsSndRun.pair (KeepsRun.mk hg)
      · refine KeepsRun.foldl ?_ fun _ _ ht => ht.runMayPut
        split
        · exact KeepsSndRun.pair (KeepsRun.mk hg).runReadBits
        · exact KeepsSndRun.pair (KeepsRun.mk hg)

theorem KeepsProgress.runGroups {pump limit n : Nat} {g : Progress} (hg : KeepsProgress s₀ g) :
    KeepsProgress s₀ (runGroups pump limit n g) := by
  induction n generalizing g with
  | zero => exact hg
  | succ n ih => exact .ite hg (ih hg.runGroup)

theorem Keeps.runTo {p : Splice} {pump limit : Nat} (hs : Keeps s₀ s) : KeepsProgress s₀ (runTo s p pump limit) :=
  .ite (KeepsProgress.mk hs).runGroups (KeepsProgress.mk hs).runGroups.reduce

theorem Keeps.boundary {p : Splice} {least : Nat} {whole : Bool} (hs : Keeps s₀ s) : KeepsSnd s₀ (boundary s p least whole) := hs.drawNat

/-! #### Pumps -/

theorem Keeps.storeOnce {r : Rg} {v : Reg24} (hs : Keeps s₀ s) : KeepsWritten s₀ (storeOnce s r v) := hs.store.judge

theorem Keeps.showPump {i : Nat} {st : BitVec 2} {p : Option Splice} (hs : Keeps s₀ s) : Keeps s₀ (showPump s i st p) := by
  unfold Machine.showPump
  refine .ite hs ?_
  dsimp only
  split
  · exact hs.wr
  · exact hs.wr

theorem Keeps.showRun {i : Nat} {x : BitVec 24 × Nat × BitVec 12} (hs : Keeps s₀ s) : Keeps s₀ (showRun s i x) := hs.wr.wr.wr
theorem Keeps.showSplice {i : Nat} {p : Splice} (hs : Keeps s₀ s) : Keeps s₀ (showSplice s i p) := hs.showRun
theorem Keeps.showLast {i : Nat} (hs : Keeps s₀ s) : Keeps s₀ (showLast s i) := hs.showRun

theorem Keeps.showEnded {i : Nat} {p : Splice} {status : BitVec 24} (hs : Keeps s₀ s) : Keeps s₀ (showEnded s i p status) :=
  hs.frame.showRun

theorem Keeps.putSplice {p : Splice} (hs : Keeps s₀ s) : Keeps s₀ (putSplice s p) := ⟨hs.1, hs.2⟩
theorem Keeps.dropSplice {p : Splice} (hs : Keeps s₀ s) : Keeps s₀ (dropSplice s p) := ⟨hs.1, hs.2⟩

theorem Keeps.writeVfr {p : Splice} {v : Word72} (hs : Keeps s₀ s) : Keeps s₀ (writeVfr s p v) := by
  unfold Machine.writeVfr
  split
  · exact hs.setCtxAt
  · exact hs.setTrail

theorem Keeps.endSplice {p : Splice} {pump : Option Nat} {cause : BitVec 3} {d : Nat} {causes : BitVec 24} (hs : Keeps s₀ s) :
    Keeps s₀ (endSplice s p pump cause d causes) := by
  unfold Machine.endSplice
  dsimp only
  split
  · exact (Keeps.ite hs.setTrail.writeVfr hs.setTrail).dropSplice.showEnded.showPump
  · exact (Keeps.ite hs.setTrail.writeVfr hs.setTrail).dropSplice

theorem Keeps.settle {g : Progress} {pump : Nat} {goOn : State → Splice → State} (hs : Keeps s₀ s) (hg : KeepsProgress s₀ g) (hgoOn : ∀ t
    a1, Keeps s₀ t → Keeps s₀ (goOn t a1)) : Keeps s₀ (settle s g pump goOn) := by
  unfold Machine.settle
  refine .ite hs ?_
  split
  · exact hg.endSplice
  · exact .ite hg.endSplice (hgoOn _ _ hg)

theorem Keeps.startOn {p : Splice} {i : Nat} (hs : Keeps s₀ s) : Keeps s₀ (startOn s p i) := hs.frame.putSplice.showSplice.showPump

theorem Keeps.checkRecord {w : Who} {a : Nat} {k : Kind} (hs : Keeps s₀ s) : KeepsSnd s₀ (checkRecord s w a k) := by
  unfold Machine.checkRecord
  refine KeepsSnd.foldl (KeepsSnd.pair hs) ?_
  intro _ _ ht
  split
  · exact ht.checkPump
  · exact ht

theorem Keeps.clearValid {p : Splice} {pump : Nat} (hs : Keeps s₀ s) : Keeps s₀ (clearValid s p pump) := by
  unfold Machine.clearValid
  split
  · exact hs.writeMasked
  · exact hs

theorem Keeps.resumeOn {p : Splice} {h i : Nat} (hs : Keeps s₀ s) : Keeps s₀ (resumeOn s p h i) := by
  unfold Machine.resumeOn
  dsimp only
  split
  · exact hs
  next e => exact (hs.checkRecord.of_pair e).countFailure.endSplice
  next e =>
    exact .ite (KeepsSnd.foldl (KeepsSnd.pair (hs.checkRecord.of_pair e)) fun _ _ ht => .pair ht.readWord).endSplice (KeepsSnd.foldl
      (KeepsSnd.pair (hs.checkRecord.of_pair e)) fun _ _ ht => .pair ht.readWord).clearValid.startOn

theorem Keeps.writeRecord {p : Splice} {i : Nat} (hs : Keeps s₀ s) : Keeps s₀ (writeRecord s p i) := by
  unfold Machine.writeRecord
  split
  · exact hs.endSplice
  · dsimp only
    split
    · exact hs
    next e1 => exact (hs.checkRecord.of_pair e1).countFailure.endSplice
    next e1 => exact (Keeps.foldl (hs.checkRecord.of_pair e1) fun _ _ ht => ht.writeMasked).putSplice.showLast.showPump

theorem Keeps.accept (hs : Keeps s₀ s) : Keeps s₀ (accept s) := by
  unfold Machine.accept
  dsimp only
  split
  · exact hs.startOn
  · split
    · split
      · exact hs.resumeOn
      · exact hs.startOn
    · exact hs

theorem Keeps.completeOn {i : Nat} (hs : Keeps s₀ s) : Keeps s₀ (completeOn s i) := by
  unfold Machine.completeOn
  split
  · exact hs
  · exact .ite hs (hs.settle hs.runTo fun _ _ ht => ht)

theorem Keeps.stopOn {p : Splice} {i least : Nat} {cause : BitVec 3} (hs : Keeps s₀ s) : Keeps s₀ (stopOn s p i least cause) := by
  unfold Machine.stopOn
  dsimp only
  refine .ite hs.endSplice ?_
  split
  · exact (KeepsProgress.mk hs.boundary).runGroups.endSplice
  · exact (KeepsProgress.mk hs.boundary).runGroups.endSplice

theorem Keeps.preemptOn {i : Nat} {keep : Bool} (hs : Keeps s₀ s) : Keeps s₀ (preemptOn s i keep) := by
  unfold Machine.preemptOn
  split
  · exact hs
  · exact .ite hs (.ite hs.frame.putSplice.showPump (.ite hs (.ite hs.endSplice (hs.settle hs.boundary.runTo fun _ _ ht =>
    ht.endSplice))))

theorem Keeps.completePreemption {i : Nat} (hs : Keeps s₀ s) : Keeps s₀ (completePreemption s i) := by
  unfold Machine.completePreemption
  split
  · exact hs
  · exact .ite hs (hs.settle hs.boundary.runTo fun _ _ ht => ht.writeRecord)

theorem Keeps.advanceOn {i : Nat} (hs : Keeps s₀ s) : Keeps s₀ (advanceOn s i) := by
  unfold Machine.advanceOn
  split
  · exact hs
  · refine .ite hs ?_
    dsimp only
    refine .ite hs ?_
    split
    · exact (KeepsProgress.mk hs.boundary).runGroups.endSplice
    · exact (KeepsProgress.mk hs.boundary).runGroups.putSplice.showSplice

theorem Keeps.preemptCheck (hs : Keeps s₀ s) : Keeps s₀ (preemptCheck s) := by
  unfold Machine.preemptCheck
  dsimp only
  refine .ite (Keeps.foldl hs.frame fun _ _ ht => ht.advanceOn) ?_
  split
  · exact (Keeps.foldl hs.frame fun _ _ ht => ht.advanceOn).preemptOn
  · exact Keeps.foldl hs.frame fun _ _ ht => ht.advanceOn

theorem Keeps.takeLifelinePump {j : Nat} (hs : Keeps s₀ s) : Keeps s₀ (takeLifelinePump s j) :=
  (hs.foldl fun _ _ ht => ht.wrB).wrF.preemptOn

theorem Keeps.failPump {i : Nat} (hs : Keeps s₀ s) : Keeps s₀ (failPump s i) := by
  unfold Machine.failPump
  dsimp only
  refine .ite ?_ hs.wr.report
  split
  · exact hs.wr.report.takeLifelinePump
  · exact hs.wr.report.wrB

theorem Keeps.pumpFault {i : Nat} (hs : Keeps s₀ s) : Keeps s₀ (pumpFault s i) := by
  unfold Machine.pumpFault
  split
  · exact hs
  · exact .ite hs hs.stopOn.failPump

theorem Keeps.abortSplices {pick : Splice → Bool} (hs : Keeps s₀ s) : Keeps s₀ (abortSplices s pick) := by
  unfold Machine.abortSplices
  refine Keeps.foldl hs ?_
  intro _ _ ht
  split
  · exact ht.endSplice
  · exact ht.clearValid.endSplice
  · exact ht.stopOn
  · exact ht.stopOn

theorem Keeps.writeSplKill {a : Auth} {v : Reg24} (hs : Keeps s₀ s) : KeepsWritten s₀ (writeSplKill s a v) := hs.frame.wrB.judge

theorem Keeps.endLifelineSplices (hs : Keeps s₀ s) : Keeps s₀ (endLifelineSplices s) :=
  .ite hs.abortSplices (.ite (Keeps.foldl hs.abortSplices fun _ _ ht => .ite ht.wrB ht) hs)

theorem Keeps.completeKill (hs : Keeps s₀ s) : Keeps s₀ (completeKill s) := by
  unfold Machine.completeKill
  dsimp only
  split
  · exact hs.endLifelineSplices
  · exact hs.endLifelineSplices.abortSplices.frame.wrB.wrB

theorem Keeps.writePumpBlock {a : Auth} {r : Rg} {v : Reg24} (hs : Keeps s₀ s) : KeepsWritten s₀ (writePumpBlock s a r v) := by
  unfold Machine.writePumpBlock
  split
  · exact hs.storeOnce
  · exact hs.storeOnce
  · exact hs.store.judge
  · exact hs.writeSplKill
  · exact .ok hs.store

/-! #### Lanes -/

theorem Keeps.writeField {a : Auth} {o : OwnerCode} {busy : Bool} {bad : List (Bool × Reject)} {t : State} (hs : Keeps s₀ s) (ht : Keeps
    s₀ t) : KeepsWritten s₀ (writeField s a o busy bad t) := (Keeps.ite ht hs).judge

theorem Keeps.setLane {n : Nat} {x : LaneSt} (hs : Keeps s₀ s) : Keeps s₀ (setLane s n x) := ⟨hs.1, hs.2⟩
theorem Keeps.showCause {n last : Nat} (hs : Keeps s₀ s) : Keeps s₀ (showCause s n last) := hs.wrF
theorem Keeps.sendSafe {n : Nat} (hs : Keeps s₀ s) : Keeps s₀ (sendSafe s n) := hs.setLane

theorem Keeps.setSafeCause {n c : Nat} (hs : Keeps s₀ s) : Keeps s₀ (setSafeCause s n c) :=
  .ite (.ite hs.wrB.showCause.sendSafe hs.wrB.showCause) hs.wrB.showCause.wrB.setLane

theorem Keeps.endSafeCause {n c : Nat} (hs : Keeps s₀ s) : Keeps s₀ (endSafeCause s n c) := .ite hs.wrB.showCause hs

theorem Keeps.lanesSafe {pick : Nat → Bool} {c : Nat} (hs : Keeps s₀ s) : Keeps s₀ (lanesSafe s pick c) :=
  hs.foldl fun _ _ ht => ht.setSafeCause

theorem Keeps.lanesEnd {pick : Nat → Bool} {c : Nat} (hs : Keeps s₀ s) : Keeps s₀ (lanesEnd s pick c) :=
  hs.foldl fun _ _ ht => ht.endSafeCause

theorem Keeps.leaveFast (hs : Keeps s₀ s) : Keeps s₀ (leaveFast s) := hs.lanesSafe
theorem Keeps.returnFast (hs : Keeps s₀ s) : Keeps s₀ (returnFast s) := Keeps.foldl hs.lanesEnd fun _ _ ht => ht.sendSafe

theorem Keeps.placeFrame {n : Nat} {v : BitVec 16} (hs : Keeps s₀ s) : Keeps s₀ (placeFrame s n v) :=
  .ite hs.wrF.setLane (.ite hs.wrF (.ite (Keeps.ite (Keeps.ite hs.wrF.wrB.wrF hs.wrF).tally (Keeps.ite hs.wrF.wrB.wrF hs.wrF)).setLane
    (.ite hs.wrF.wrB.wrF hs.wrF)))

theorem Keeps.releaseLanes (hs : Keeps s₀ s) : Keeps s₀ (releaseLanes s) := by
  unfold Machine.releaseLanes
  refine Keeps.foldl hs ?_
  intro _ _ ht
  split
  · exact ht.setLane.placeFrame
  · exact ht

theorem Keeps.ringNext {d : Nat} (hs : Keeps s₀ s) : Keeps s₀ (ringNext s d) := hs.wrF

theorem Keeps.verdict {x : Verdict × State} {held refused ok : State → State} (hx : KeepsSnd s₀ x)
    (hheld : ∀ t, Keeps s₀ t → Keeps s₀ (held t)) (hrefused : ∀ t, Keeps s₀ t → Keeps s₀ (refused t))
    (hok : ∀ t, Keeps s₀ t → Keeps s₀ (ok t)) :
    Keeps s₀ (match (generalizing := false) x with
      | (.held, t) => held t
      | (.refused, t) => refused t
      | (.ok, t) => ok t) := by
  obtain ⟨v, t⟩ := x
  cases v with
  | ok => exact hok t hx
  | refused => exact hrefused t hx
  | held => exact hheld t hx

theorem Keeps.transmitRing {n : Nat} (hs : Keeps s₀ s) : Keeps s₀ (transmitRing s n) := by
  unfold Machine.transmitRing
  extract_lets d a
  refine .ite hs (.ite hs.tally ?_)
  refine .verdict (.ite (.pair hs) hs.admitted) (fun _ ht => ht.setLane) (fun _ ht => ht.countFailure.ringError) fun t ht => ?_
  have hw : KeepsSnd s₀ (Machine.fetchWord t a 22) := ht.fetchWord
  generalize Machine.fetchWord t a 22 = y at hw ⊢
  obtain ⟨w, u⟩ := y
  exact .ite (Keeps.poisonUsed hw).ringError.setSafeCause (Keeps.ringNext hw).placeFrame

theorem Keeps.transmitEvent {n : Nat} (hs : Keeps s₀ s) : Keeps s₀ (transmitEvent s n) := .ite hs.tally hs.transmitRing

theorem Keeps.loadSerialiser {n : Nat} (hs : Keeps s₀ s) : Keeps s₀ (loadSerialiser s n) :=
  .ite (Keeps.ite hs.setLane.transmitRing hs).setLane.send.wrB (.ite (Keeps.ite hs.setLane.transmitRing hs).setLane.send.wrB (Keeps.ite
    hs.setLane.transmitRing hs).wrB)

theorem Keeps.repeatSafe {n : Nat} (hs : Keeps s₀ s) : Keeps s₀ (repeatSafe s n) := .ite hs.sendSafe hs
theorem Keeps.receiveRing {n : Nat} {v : BitVec 24} (hs : Keeps s₀ s) : Keeps s₀ (receiveRing s n v) := .ite hs hs.ringNext.request
theorem Keeps.restartTimeout {n : Nat} (hs : Keeps s₀ s) : Keeps s₀ (restartTimeout s n) := ⟨hs.1, hs.2⟩

theorem Keeps.acceptFrame {n : Nat} {f : BitVec 20} (hs : Keeps s₀ s) : Keeps s₀ (acceptFrame s n f) :=
  .ite (Keeps.ite hs.restartTimeout.wr hs.restartTimeout).assertIf.receiveRing (Keeps.ite hs.restartTimeout.wr hs.restartTimeout).assertIf

theorem Keeps.receiveFrame {n : Nat} {f : BitVec 20} (hs : Keeps s₀ s) : Keeps s₀ (receiveFrame s n f) :=
  .ite hs (.ite hs.acceptFrame (Keeps.ite (Keeps.ite hs hs.tally) (Keeps.ite hs hs.tally).tally).assertIf)

theorem Keeps.receiveTimeout {n : Nat} (hs : Keeps s₀ s) : Keeps s₀ (receiveTimeout s n) := .ite hs hs.restartTimeout.setFlag.assertIf
theorem Keeps.moveRx {n : Nat} {o : OwnerCode} (hs : Keeps s₀ s) : Keeps s₀ (moveRx s n o) := Keeps.foldl hs.wrF.wrB fun _ _ ht => ht.wr

theorem Keeps.writeRxCfg {a : Auth} {n : Nat} {v : Reg24} (hs : Keeps s₀ s) : KeepsWritten s₀ (writeRxCfg s a n v) :=
  .ite (hs.writeField hs.store) hs.changeOwner.judge

theorem Keeps.silence {n : Nat} (hs : Keeps s₀ s) : Keeps s₀ (silence s n) := hs.setLane
theorem Keeps.moveTx {n : Nat} {o : OwnerCode} (hs : Keeps s₀ s) : Keeps s₀ (moveTx s n o) := hs.wrF.wrB.silence

theorem Keeps.writeTxCfg {a : Auth} {n : Nat} {v : Reg24} (hs : Keeps s₀ s) : KeepsWritten s₀ (writeTxCfg s a n v) :=
  .ite (hs.writeField (Keeps.ite hs.store.silence (Keeps.ite hs.store.sendSafe hs.store))) hs.changeOwner.judge

theorem Keeps.writeRingLen {a : Auth} {d : Nat} {v : Reg24} (hs : Keeps s₀ s) : KeepsWritten s₀ (writeRingLen s a d v) :=
  hs.writeField (Keeps.ite hs.store.endSafeCause hs.store)

theorem Keeps.writeGroup {_a : Auth} {g : Nat} {v : Reg24} (hs : Keeps s₀ s) : KeepsWritten s₀ (writeGroup s _a g v) := hs.store.judge

theorem Keeps.writeLaneBlock {a : Auth} {r : Rg} {v : Reg24} (hs : Keeps s₀ s) : KeepsWritten s₀ (writeLaneBlock s a r v) := by
  unfold Machine.writeLaneBlock
  split
  · exact hs.writeRxCfg
  · exact hs.writeField hs.store.restartTimeout
  · exact hs.writeField hs.store
  · exact hs.writeTxCfg
  · exact hs.writeField hs.store
  · exact hs.writeField hs.placeFrame
  · exact hs.writeGroup
  · exact hs.writeField hs.store
  · exact hs.writeField hs.store
  · exact hs.writeRingLen
  · exact hs.writeField hs.store
  · exact .ok hs.store

/-! #### Timers -/

theorem Keeps.setTimer {n : Nat} {x : TimerSt} (hs : Keeps s₀ s) : Keeps s₀ (setTimer s n x) := ⟨hs.1, hs.2⟩
theorem Keeps.activate {n : Nat} (hs : Keeps s₀ s) : Keeps s₀ (activate s n) := hs.setTimer
theorem Keeps.timerEvent {n e : Nat} (hs : Keeps s₀ s) : Keeps s₀ (timerEvent s n e) := hs.assertIf

theorem Keeps.countOne {n : Nat} (hs : Keeps s₀ s) : KeepsSnd s₀ (countOne s n) :=
  Keeps.ite (Keeps.foldl hs.wr.wrB fun _ _ ht => ht.timerEvent).timerEvent.activate (Keeps.foldl hs.wr.wrB fun _ _ ht => ht.timerEvent)

theorem Keeps.pulse {n : Nat} (hs : Keeps s₀ s) : KeepsSnd s₀ (pulse s n) := .ite (.pair hs.setTimer) (.pair hs.setTimer)

theorem Keeps.countChain {fuel n : Nat} (hs : Keeps s₀ s) : Keeps s₀ (countChain fuel s n) := by
  induction fuel generalizing s n with
  | zero => exact hs
  | succ k ih =>
    unfold Machine.countChain
    split
    next e => exact hs.countOne.of_pair e
    next e =>
      refine .ite ?_ (hs.countOne.of_pair e)
      split
      next e' => exact ih ((hs.countOne.of_pair e).pulse.of_pair e')
      next e' => exact (hs.countOne.of_pair e).pulse.of_pair e'

theorem Keeps.countingTick {n : Nat} (hs : Keeps s₀ s) : Keeps s₀ (countingTick s n) := .ite hs hs.countChain

theorem Keeps.captureEdge {n : Nat} (hs : Keeps s₀ s) : Keeps s₀ (captureEdge s n) := by
  unfold Machine.captureEdge
  refine .ite hs ?_
  dsimp only
  refine Keeps.timerEvent ?_
  refine Keeps.setFlag ?_
  refine Keeps.wr ?_
  refine .ite ?_ hs
  split
  next e => exact (hs.pulse.of_pair e).countChain
  next e => exact hs.pulse.of_pair e

theorem Keeps.timerTrigger {n : Nat} (hs : Keeps s₀ s) : Keeps s₀ (timerTrigger s n) := by
  unfold Machine.timerTrigger
  split
  · exact hs.wrB
  · exact hs.wrB
  · exact hs.activate.wr.wrB.wrB
  · exact hs

theorem Keeps.writeTimerCtl {a : Auth} {n : Nat} {v : Reg24} (hs : Keeps s₀ s) : KeepsWritten s₀ (writeTimerCtl s a n v) :=
  hs.writeField (Keeps.ite hs.store hs.store.wrB)

theorem Keeps.moveTimer {n : Nat} {o : OwnerCode} (hs : Keeps s₀ s) : Keeps s₀ (moveTimer s n o) := hs.wrF.wrB.wrF

theorem Keeps.writeTimerOwn {a : Auth} {n : Nat} {v : Reg24} (hs : Keeps s₀ s) : KeepsWritten s₀ (writeTimerOwn s a n v) :=
  .ite (hs.writeField hs) hs.changeOwner.judge

theorem Keeps.writePeriod {a : Auth} {n : Nat} {v : Reg24} (hs : Keeps s₀ s) : KeepsWritten s₀ (writePeriod s a n v) :=
  hs.writeField (Keeps.ite (Keeps.ite hs.store.setTimer.setFlag hs.store.setTimer) hs.store)

theorem Keeps.writeCompare {a : Auth} {n k : Nat} {v : Reg24} (hs : Keeps s₀ s) : KeepsWritten s₀ (writeCompare s a n k v) :=
  hs.writeField (Keeps.ite hs.store.setTimer hs.store)

theorem Keeps.setDog {x : Nat} {d : DogSt} (hs : Keeps s₀ s) : Keeps s₀ (setDog s x d) := ⟨hs.1, hs.2⟩
theorem Keeps.restartDog {x : Nat} (hs : Keeps s₀ s) : Keeps s₀ (restartDog s x) := hs.setDog
theorem Keeps.expireDog {x : Nat} (hs : Keeps s₀ s) : Keeps s₀ (expireDog s x) := hs.setFlag.assertIf.lanesSafe.setDog.report
theorem Keeps.watchdogExpire {x : Nat} (hs : Keeps s₀ s) : Keeps s₀ (watchdogExpire s x) := .ite hs.expireDog hs
theorem Keeps.pauseDogs (hs : Keeps s₀ s) : Keeps s₀ (pauseDogs s) := hs.foldl fun _ _ ht => Keeps.ite ht.setDog ht
theorem Keeps.runDogs (hs : Keeps s₀ s) : Keeps s₀ (runDogs s) := hs.foldl fun _ _ ht => Keeps.ite (Keeps.ite ht.restartDog ht.setDog) ht
theorem Keeps.pauseDogOf {c : Nat} (hs : Keeps s₀ s) : Keeps s₀ (pauseDogOf s c) := .ite hs.setDog hs
theorem Keeps.resumeDogOf {c : Nat} (hs : Keeps s₀ s) : Keeps s₀ (resumeDogOf s c) := .ite hs hs.setDog

theorem Keeps.writeDogCfg {a : Auth} {x : Nat} {v : Reg24} (hs : Keeps s₀ s) : KeepsWritten s₀ (writeDogCfg s a x v) :=
  (Keeps.ite hs.store.restartDog hs.store).judge

theorem Keeps.writeDogKick {a : Auth} {x : Nat} {v : Reg24} (hs : Keeps s₀ s) : KeepsWritten s₀ (writeDogKick s a x v) :=
  (Keeps.ite hs (Keeps.ite hs.restartDog.lanesEnd hs.expireDog)).judge

theorem Keeps.writeTimerBlock {a : Auth} {r : Rg} {v : Reg24} (hs : Keeps s₀ s) : KeepsWritten s₀ (writeTimerBlock s a r v) := by
  unfold Machine.writeTimerBlock
  split
  · exact hs.writeTimerCtl
  · exact hs.writeTimerOwn
  · exact hs.writePeriod
  · exact hs.writeField hs.store
  · exact hs.writeCompare
  · exact hs.writeField hs.store
  · exact hs.writeField hs.store
  · exact hs.writeField hs.store
  · exact hs.writeField hs.store
  · exact hs.writeDogCfg
  · exact hs.store.judge
  · exact hs.writeDogKick
  · exact hs.store.report.judge
  · exact .ok hs.store

/-! #### Modes and supplies -/

theorem Keeps.setOd {index sub : Nat} {v : List Byte} (hs : Keeps s₀ s) : Keeps s₀ (setOd s index sub v) := ⟨hs.1, hs.2⟩
theorem Keeps.setMode {m : BitVec 8} (hs : Keeps s₀ s) : Keeps s₀ (setMode s m) := hs.wrF.wrF
theorem Keeps.setPhase {p : BitVec 2} (hs : Keeps s₀ s) : Keeps s₀ (setPhase s p) := hs.wrF
theorem Keeps.setHold {h : BitVec 3} (hs : Keeps s₀ s) : Keeps s₀ (setHold s h) := hs.wrF
theorem Keeps.lanesLeave (hs : Keeps s₀ s) : Keeps s₀ (lanesLeave s) := hs.lanesSafe
theorem Keeps.lanesReturn (hs : Keeps s₀ s) : Keeps s₀ (lanesReturn s) := .ite hs.returnFast hs
theorem Keeps.retainCisterns (hs : Keeps s₀ s) : Keeps s₀ (retainCisterns s) := hs.foldl fun _ _ ht => Keeps.ite ht.pauseLap.wrF ht
theorem Keeps.wakeCisterns (hs : Keeps s₀ s) : Keeps s₀ (wakeCisterns s) := hs.foldl fun _ _ ht => Keeps.ite ht.wrF.resumeLap.serveHeld ht

theorem Keeps.enterDomains {d : Nat} (hs : Keeps s₀ s) : Keeps s₀ (enterDomains s d) :=
  .ite (.ite hs.lanesLeave hs.lanesLeave.retainCisterns) hs.wakeCisterns.lanesReturn

theorem Keeps.cutFlash (hs : Keeps s₀ s) : Keeps s₀ (cutFlash s) := by
  unfold Machine.cutFlash
  split
  · exact hs
  · exact .ite (.ite hs.frame.frame hs.frame.frame) (.ite hs.drawNat.drawNat.frame hs)

theorem Keeps.mainOff (hs : Keeps s₀ s) : Keeps s₀ (mainOff s) :=
  ⟨hs.cutFlash.1, fun _ => Laws.reset_wf⟩

theorem Keeps.flushSafe (hs : Keeps s₀ s) : Keeps s₀ (flushSafe s) := hs.foldl fun _ _ ht => ht.loadSerialiser

theorem Keeps.layoutRegs (hs : Keeps s₀ s) : Keeps s₀ (layoutRegs s) :=
  Keeps.foldl (Keeps.foldl (Keeps.foldl (hs.foldl fun _ _ ht => ht.wrF) fun _ _ ht => ht.wrF) fun _ _ ht => ht.wrF.wrF.wrF) fun _ _ ht =>
    ht.wrF

theorem Keeps.applyStored (hs : Keeps s₀ s) : Keeps s₀ (applyStored s) := by
  unfold Machine.applyStored
  dsimp only
  split
  · refine Keeps.frame ?_
    split
    · exact hs.wrF.wrB
    · exact hs.wrF.wrB
  · refine Keeps.frame ?_
    split
    · exact hs.wrF.wrB
    · exact hs.wrF.wrB

theorem Keeps.beginStart {recovery : Bool} {cause : BitVec 3} {pin : Bool} (hs : Keeps s₀ s) :
    Keeps s₀ (beginStart s recovery cause pin) :=
  (Keeps.ite hs.lanesLeave.flushSafe hs).mainOff.frame.layoutRegs.wrB.applyStored.setMode.setPhase.setHold.wrF.wrB.report

theorem Keeps.tryStart {cause : BitVec 3} {pin : Option Bool} (hs : Keeps s₀ s) : Keeps s₀ (tryStart s cause pin) := by
  unfold Machine.tryStart
  refine .ite ?_ hs
  dsimp only
  split
  · exact hs.beginStart
  · exact hs.drawBool.beginStart

theorem Keeps.startRecovery (hs : Keeps s₀ s) : Keeps s₀ (startRecovery s) := hs.drawBool.beginStart
theorem Keeps.enterStandby (hs : Keeps s₀ s) : Keeps s₀ (enterStandby s) := hs.mainOff.frame.setMode.setPhase.setHold.report
theorem Keeps.showDepth (hs : Keeps s₀ s) : Keeps s₀ (showDepth s) := hs.wrF

theorem Keeps.reconsider (hs : Keeps s₀ s) : Keeps s₀ (reconsider s) :=
  .ite hs.tryStart (.ite hs.showDepth (.ite hs (.ite (.ite hs.startRecovery hs) (.ite hs (.ite hs.startRecovery (.ite (.ite
    hs.setPhase.setHold hs.frame.setPhase.setHold) (.ite hs.setPhase (.ite hs.frame.setPhase.lanesLeave (.ite hs
    hs.frame.setPhase.showDepth)))))))))

theorem Keeps.noReturn (hs : Keeps s₀ s) : Keeps s₀ (noReturn s) := .ite hs.setPhase.pauseDogs hs.setPhase.pauseDogs.lanesLeave
theorem Keeps.drainComplete (hs : Keeps s₀ s) : Keeps s₀ (drainComplete s) := .ite hs.noReturn hs
theorem Keeps.drainLimit (hs : Keeps s₀ s) : Keeps s₀ (drainLimit s) := .ite (hs.foldl fun _ _ ht => ht.preemptOn).drainComplete hs

theorem Keeps.depthReached (hs : Keeps s₀ s) : Keeps s₀ (depthReached s) :=
  .ite hs.frame.setMode.setPhase.enterDomains.report.reconsider hs

theorem Keeps.standbySwitchOff (hs : Keeps s₀ s) : Keeps s₀ (standbySwitchOff s) :=
  .ite (.ite hs.frame.setMode.setPhase.setHold.report.reconsider hs.enterStandby.reconsider) hs

theorem Keeps.endEmulation (hs : Keeps s₀ s) : Keeps s₀ (endEmulation s) := .ite (.ite hs.frame.enterStandby hs.frame.retainCisterns) hs

theorem Keeps.wakeComplete (hs : Keeps s₀ s) : Keeps s₀ (wakeComplete s) :=
  .ite hs.frame.setMode.setPhase.setHold.enterDomains.runDogs.serveHeld.report.reconsider hs

theorem Keeps.noteTold {p : Nat} (hs : Keeps s₀ s) : Keeps s₀ (noteTold s p) := ⟨hs.1, hs.2⟩
theorem Keeps.wakeLine {m : Nat} (hs : Keeps s₀ s) : Keeps s₀ (wakeLine s m) := .ite (hs.foldl fun _ _ ht => ht.setOd).reconsider hs

theorem Keeps.writeModBlock {a : Auth} {r : Rg} {v : Reg24} (hs : Keeps s₀ s) : KeepsWritten s₀ (writeModBlock s a r v) := by
  unfold Machine.writeModBlock
  split
  · exact hs.store.judge
  · exact hs.store.judge
  · exact .ok hs.store

/-! #### The lifeline -/

theorem Keeps.showBelay {c : Nat} (hs : Keeps s₀ s) : Keeps s₀ (showBelay s c) := (Keeps.ite hs.wrB hs.wrB).setStw
theorem Keeps.reviewBelay (hs : Keeps s₀ s) : Keeps s₀ (reviewBelay s) := hs.foldl fun _ _ ht => Keeps.ite ht ht.showBelay
theorem Keeps.openBelay {c : Nat} {frame : Addr} (hs : Keeps s₀ s) : Keeps s₀ (openBelay s c frame) := hs.setCore.showBelay
theorem Keeps.endMark {c : Nat} (hs : Keeps s₀ s) : Keeps s₀ (endMark s c) := hs.setCore.showBelay
theorem Keeps.setIe {c : Nat} {ie : Bool} (hs : Keeps s₀ s) : Keeps s₀ (setIe s c ie) := hs.setStw.setCore.showBelay
theorem Keeps.endBelay {c : Nat} (hs : Keeps s₀ s) : Keeps s₀ (endBelay s c) := hs.setCore.showBelay
theorem Keeps.belayLimit {c : Nat} (hs : Keeps s₀ s) : Keeps s₀ (belayLimit s c) := .ite (Keeps.ite hs.bumpF hs.bumpF).setStw.endBelay hs
theorem Keeps.setLl {st : BitVec 3} (hs : Keeps s₀ s) : Keeps s₀ (setLl s st) := hs.wrF
theorem Keeps.setLevel {k : Nat} (hs : Keeps s₀ s) : Keeps s₀ (setLevel s k) := hs.wrF.setStw
theorem Keeps.lockLifeline (hs : Keeps s₀ s) : Keeps s₀ (lockLifeline s) := hs.lanesEnd.lanesSafe.setLl.report
theorem Keeps.takeCheckpoint (hs : Keeps s₀ s) : Keeps s₀ (takeCheckpoint s) := hs.frame.zeroWords.wr.wrB

theorem Keeps.lockstepMismatch (hs : Keeps s₀ s) : Keeps s₀ (lockstepMismatch s) := by
  unfold Machine.lockstepMismatch
  split
  · exact hs.lockLifeline
  · exact hs.lockLifeline
  · exact .ite hs.lockLifeline hs.frame.setLl.lanesSafe
  · exact hs

theorem Keeps.rollbackComplete {ok : Bool} (hs : Keeps s₀ s) : Keeps s₀ (rollbackComplete s ok) := by
  unfold Machine.rollbackComplete
  refine .ite hs ?_
  dsimp only
  split
  · exact (KeepsSnd.foldl (KeepsSnd.pair hs.endLifelineSplices) fun _ _ ht => .pair ht.readWord).lockLifeline
  · exact .ite (KeepsSnd.foldl (KeepsSnd.pair hs.endLifelineSplices) fun _ _ ht => .pair ht.readWord).lockLifeline (KeepsSnd.foldl
    (KeepsSnd.pair hs.endLifelineSplices) fun _ _ ht => .pair
    ht.readWord).drawBits.setCtx.setCore.setLevel.showBelay.setLl.wrB.bumpF.lanesEnd

theorem Keeps.enableLifeline {v : Reg24} (hs : Keeps s₀ s) : Keeps s₀ (enableLifeline s v) := by
  unfold Machine.enableLifeline
  dsimp only
  refine Keeps.reconsider ?_
  refine Keeps.foldl ?_ fun _ _ ht => .ite ht.wrB ht
  refine Keeps.requestPower ?_
  refine Keeps.lifelineHandover ?_
  split
  · exact hs.store.wr.setLl.takeLifelinePump
  · exact hs.store.wr.setLl

theorem Keeps.loadImageWord {src i : Nat} (hs : Keeps s₀ s) : Keeps s₀ (loadImageWord s src i) := hs.readWord.setMem

theorem Keeps.enableComplete {ok : Bool} (hs : Keeps s₀ s) : Keeps s₀ (enableComplete s ok) := by
  unfold Machine.enableComplete
  refine .ite hs (.ite hs.lockLifeline ?_)
  split
  · exact hs
  · exact .ite hs (Keeps.foldl (Keeps.foldl hs.zeroWords fun _ _ ht => ht.loadImageWord).setCore.setCtx.frame.wrF fun _ _ ht =>
    ht.wrB).setLl.setLevel.showBelay.lanesEnd.takeCheckpoint

theorem Keeps.disableLifeline {v : Reg24} (hs : Keeps s₀ s) : Keeps s₀ (disableLifeline s v) :=
  hs.store.setCore.lanesSafe.setLl.lifelineHandover.report

theorem Keeps.disableComplete (hs : Keeps s₀ s) : Keeps s₀ (disableComplete s) :=
  .ite hs (Keeps.foldl (Keeps.ite hs.endLifelineSplices.completeHandover.completeHandover
    hs.endLifelineSplices.completeHandover).zeroWords.clearReservedIn fun _ _ ht => .ite ht.wrB ht).setCore.setLl.report.reconsider

theorem Keeps.irqFires {k : Nat} (hs : Keeps s₀ s) : Keeps s₀ (irqFires s k) := .ite hs.bumpF hs.wrB

theorem Keeps.writeLlCtl {a : Auth} {v : Reg24} (hs : Keeps s₀ s) : KeepsWritten s₀ (writeLlCtl s a v) :=
  (Keeps.ite hs.store (Keeps.ite hs.enableLifeline hs.disableLifeline)).judge

theorem Keeps.writeLlCfg {a : Auth} {v : Reg24} (hs : Keeps s₀ s) : KeepsWritten s₀ (writeLlCfg s a v) := hs.store.reviewBelay.judge

theorem Keeps.writeLlBlock {a : Auth} {r : Rg} {v : Reg24} (hs : Keeps s₀ s) : KeepsWritten s₀ (writeLlBlock s a r v) := by
  unfold Machine.writeLlBlock
  split
  · exact hs.writeLlCtl
  · exact hs.writeLlCfg
  · exact hs.store.judge
  · exact hs.store.judge
  · exact .ok hs.store

/-! #### Accesses of the cores -/


theorem Keeps.checkPieces {w : Who} {k : Kind} {detail : BitVec 32} {l : List (Nat × Nat × Nat)} (hs : Keeps s₀ s) :
    KeepsGot s₀ (checkPieces s w k detail l) := by
  induction l generalizing s with
  | nil => exact hs
  | cons x l ih =>
    unfold Machine.checkPieces
    split
    · trivial
    next e => exact (hs.admitted.of_pair e).countFailure
    next e => exact ih (hs.admitted.of_pair e)

theorem Keeps.gatherPieces {w : Who} {detail : BitVec 32} {l : List (Nat × Nat × Nat)} (hs : Keeps s₀ s) :
    KeepsGot s₀ (gatherPieces s w detail l) := by
  induction l generalizing s with
  | nil => exact hs
  | cons x l ih =>
    unfold Machine.gatherPieces
    split
    next x s1 e =>
      have h1 : Keeps s₀ s1 := hs.accessWord.of_pair e
      refine .ite h1.poisonUsed ?_
      split
      next e' => exact (ih h1).of_ok e'
      next => exact ih h1

theorem Keeps.putPlies {w : Who} {a p k v : Nat} (hs : Keeps s₀ s) : Keeps s₀ (putPlies s w a p k v) := hs.putWord

theorem Keeps.scatterPieces {w : Who} {v : Nat} {l : List (Nat × Nat × Nat)} (hs : Keeps s₀ s) :
    Keeps s₀ (scatterPieces s w v l) := by
  induction l generalizing s v with
  | nil => exact hs
  | cons x l ih => exact ih hs.putPlies

theorem Keeps.storePieces {w : Who} {v : Nat} {detail : BitVec 32} {l : List (Nat × Nat × Nat)} (hs : Keeps s₀ s) :
    KeepsGot s₀ (storePieces s w v detail l) := by
  induction l generalizing s v with
  | nil => exact hs
  | cons x l ih =>
    unfold Machine.storePieces
    split
    · trivial
    next e => exact (hs.admitted.of_pair e).countFailure
    next e => exact ih (hs.admitted.of_pair e).putPlies

theorem Keeps.loadPlies {w : Who} {a n : Nat} {detail : BitVec 32} (hs : Keeps s₀ s) : KeepsGot s₀ (loadPlies s w a n detail) := by
  unfold Machine.loadPlies
  dsimp only
  refine .ite hs.countFailure ?_
  split
  next e => exact (hs.checkPieces.of_ok e).gatherPieces
  next e => exact hs.checkPieces.of_fault e
  · trivial

theorem Keeps.storePliesAt {w : Who} {a n v : Nat} {detail : BitVec 32} (hs : Keeps s₀ s) : KeepsGot s₀ (storePliesAt s w a n v detail) :=
  .ite hs.countFailure hs.storePieces

theorem Keeps.loadWords {w : Who} {a n : Nat} {detail : BitVec 32} (hs : Keeps s₀ s) : KeepsGot s₀ (loadWords s w a n detail) := by
  unfold Machine.loadWords
  refine .ite trivial ?_
  split
  next e => exact hs.loadPlies.of_ok e
  next e => exact hs.loadPlies.of_fault e
  · trivial

theorem Keeps.storeWords {w : Who} {a : Nat} {l : List Word72} {detail : BitVec 32} (hs : Keeps s₀ s) :
    KeepsGot s₀ (storeWords s w a l detail) := by
  unfold Machine.storeWords
  dsimp only
  refine .ite trivial (.ite hs.countFailure ?_)
  split
  next e => exact (hs.checkPieces.of_ok e).scatterPieces
  · exact hs.checkPieces

theorem Keeps.lockCore {c : Nat} {cause : BitVec 8} (hs : Keeps s₀ s) : Keeps s₀ (lockCore s c cause) := hs.wrF.wrF.abortSplices.report
theorem Keeps.lock {c : Nat} {cause : BitVec 8} (hs : Keeps s₀ s) : Keeps s₀ (lock s c cause) := .ite hs.lockLifeline hs.lockCore

theorem Keeps.fetchCheck {c : Nat} {w : Who} {a n : Nat} (hs : Keeps s₀ s) : KeepsSnd s₀ (fetchCheck s c w a n) :=
  .ite (.pair hs) (.ite (.pair hs) hs.admitted)

theorem Keeps.takeLine {c : Nat} {w : Who} {a : Nat} (hs : Keeps s₀ s) : KeepsSnd s₀ (takeLine s c w a) :=
  .ite hs.l1Read (.pair (Keeps.readMany (fun _ _ ht => ht.fetchWord) hs))

theorem Keeps.holdLines {c : Nat} {w : Who} {l : HeldLine} (hs : Keeps s₀ s) : Keeps s₀ (holdLines s c w l) := by
  unfold Machine.holdLines
  dsimp only
  refine Keeps.setCore ?_
  split
  · exact hs
  · split
    next e1 => exact (hs.fetchCheck.of_pair e1).takeLine
    · exact hs

theorem Keeps.takeBlock {c : Nat} {w : Who} {a : Nat} (hs : Keeps s₀ s) : KeepsSnd s₀ (takeBlock s c w a) :=
  (Keeps.readMany (fun _ _ ht => ht.fetchWord) hs).setCore

theorem Keeps.fetchPiece {c : Nat} {w : Who} {a n : Nat} (hs : Keeps s₀ s) : KeepsGot s₀ (fetchPiece s c w a n) := by
  unfold Machine.fetchPiece
  extract_lets take mark
  have htake (f : State → Bool × State) (hf : ∀ t, Keeps s₀ t → KeepsSnd s₀ (f t)) : KeepsGot s₀ (take f) := by
    unfold take
    split
    next e => exact (hs.fetchCheck.of_pair e).countFailure
    · trivial
    next e => exact hf _ (hs.fetchCheck.of_pair e)
  have hblock : KeepsGot s₀ (take fun t => match Machine.takeBlock t c w a with | (m, u) => (mark m, u)) :=
    htake _ fun _ ht => .pair ht.takeBlock
  refine .ite (htake _ fun _ ht => .pair ht.fetchWord) (.ite ?_ ?_)
  · split
    · exact .ite hs hblock
    · exact hblock
  · split
    · exact hs.holdLines
    · exact htake _ fun _ ht => .pair ht.takeLine.holdLines

theorem Keeps.fetchPieces {c : Nat} {w : Who} {l : List (Nat × Nat × Nat)} (hs : Keeps s₀ s) : KeepsGot s₀ (fetchPieces s c w l) := by
  induction l generalizing s with
  | nil => exact hs
  | cons x l ih =>
    unfold Machine.fetchPieces
    split
    · trivial
    next e => exact hs.fetchPiece.of_fault e
    next e => exact .ite (hs.fetchPiece.of_ok e).poisonUsed (ih (hs.fetchPiece.of_ok e))

theorem Keeps.fetchAt {c : Nat} {w : Who} {a : Nat} (hs : Keeps s₀ s) : KeepsGot s₀ (fetchAt s c w a) := hs.fetchPieces
theorem Keeps.discardFetched {c : Nat} (hs : Keeps s₀ s) : Keeps s₀ (discardFetched s c) := hs.setCore

theorem Keeps.enter {c : Nat} {e : Exc} {pc : Addr} (hs : Keeps s₀ s) : KeepsOpt s₀ (enter s c e pc) := by
  unfold Machine.enter
  dsimp only
  refine .ite (.some hs.lock) ?_
  split
  · exact .none
  next e1 => exact .some (hs.storeWords.of_fault e1).lock
  next e1 =>
    split
    next e2 => exact .some ((hs.storeWords.of_ok e1).setCtx.setCore.fetchAt.of_fault e2).lock
    next e2 => exact .some ((hs.storeWords.of_ok e1).setCtx.setCore.fetchAt.of_ok e2)
    · exact .none

theorem Keeps.takeIrq {k : Nat} {pc : Addr} (hs : Keeps s₀ s) : KeepsOpt s₀ (takeIrq s k pc) := by
  unfold Machine.takeIrq
  dsimp only
  split
  · exact .none
  next e =>
    exact .ite (.some (hs.wrB.enter.of_some e)) (.some (.ite (Keeps.ite (hs.wrB.enter.of_some e).setLevel.openBelay (hs.wrB.enter.of_some
      e).setLevel).takeCheckpoint (.ite (hs.wrB.enter.of_some e).setLevel.openBelay (hs.wrB.enter.of_some e).setLevel)))

theorem Keeps.raise {c : Nat} {e : Exc} (hs : Keeps s₀ s) : KeepsOpt s₀ (raise s c e) := by
  unfold Machine.raise
  split
  · exact hs.takeIrq
  · exact hs.enter

theorem Keeps.lazyFill {c : Nat} (hs : Keeps s₀ s) : KeepsGot s₀ (lazyFill s c) := by
  unfold Machine.lazyFill
  dsimp only
  refine .ite hs ?_
  split
  next e => exact (hs.storeWords.of_ok e).setStw
  · exact hs.storeWords

theorem Keeps.lazyReload {c : Nat} (hs : Keeps s₀ s) : KeepsGot s₀ (lazyReload s c) := by
  unfold Machine.lazyReload
  dsimp only
  refine .ite hs ?_
  split
  next e => exact (hs.loadWords.of_ok e).setCtx
  next e => exact hs.loadWords.of_fault e
  · trivial

theorem Keeps.returnFrom {c : Nat} (hs : Keeps s₀ s) : KeepsGot s₀ (returnFrom s c) := by
  unfold Machine.returnFrom
  dsimp only
  refine .ite hs ?_
  split
  · trivial
  next e => exact hs.loadWords.of_fault e
  next e =>
    refine .ite (hs.loadWords.of_ok e) ?_
    split
    · trivial
    next e1 => exact (hs.loadWords.of_ok e).lazyReload.of_fault e1
    next e1 =>
      exact Keeps.ite (Keeps.ite ((hs.loadWords.of_ok e).lazyReload.of_ok e1).setCtx.discardFetched.setCore.setLevel ((hs.loadWords.of_ok
        e).lazyReload.of_ok e1).setCtx.discardFetched.setCore).endBelay (Keeps.ite ((hs.loadWords.of_ok e).lazyReload.of_ok
        e1).setCtx.discardFetched.setCore.setLevel ((hs.loadWords.of_ok e).lazyReload.of_ok e1).setCtx.discardFetched.setCore)

/-! #### Capstan -/

theorem Keeps.setTask {c t : Nat} {st : BitVec 3} (hs : Keeps s₀ s) : Keeps s₀ (setTask s c t st) := hs.wrF

theorem Keeps.setBank {c t : Nat} {b : Option Nat} (hs : Keeps s₀ s) : Keeps s₀ (setBank s c t b) := by
  unfold Machine.setBank
  split
  · exact hs.wrB.wrF
  · exact hs.wrF

theorem Keeps.makeReady {c t : Nat} (hs : Keeps s₀ s) : Keeps s₀ (makeReady s c t) := hs.setTask.setCap

theorem Keeps.wakeTask {c t : Nat} (hs : Keeps s₀ s) : Keeps s₀ (wakeTask s c t) := by
  unfold Machine.wakeTask
  dsimp only
  refine .ite hs.bumpF ?_
  split
  · exact hs.makeReady.setCap
  · exact hs.bumpF
  · exact hs.bumpF
  · exact hs

theorem Keeps.emptyBank {c t : Nat} (hs : Keeps s₀ s) : Keeps s₀ (emptyBank s c t) := .ite hs.setBank.setCtxAt.setCap hs
theorem Keeps.invalidate {c t : Nat} (hs : Keeps s₀ s) : Keeps s₀ (invalidate s c t) := hs.emptyBank.setTask.setCap

theorem Keeps.taskFault {c t : Nat} {cause : BitVec 8} {e : Exc} (hs : Keeps s₀ s) : Keeps s₀ (taskFault s c t cause e) := by
  obtain ⟨put, hput⟩ : ∃ f, f = Machine.storePliesAt := ⟨_, Eq.refl _⟩
  have hkeeps {t : State} (ht : Keeps s₀ t) (w a n v d) : KeepsGot s₀ (put t w a n v d) := hput ▸ ht.storePliesAt
  generalize hf : Machine.taskFault = f
  delta Machine.taskFault at hf
  rw [← hput] at hf
  subst hf
  beta_reduce
  extract_lets s1 x f s2
  have h2 : Keeps s₀ s2 := hs.setTask.setCap
  generalize h : Machine.loadPlies s2 _ _ _ _ = g
  have hg : KeepsGot s₀ g := h ▸ h2.loadPlies
  cases g with
  | ok v s3 =>
    dsimp only
    split
    next e => exact (hkeeps hg ..).of_ok e
    next => exact h2
  | fault => exact h2
  | held => exact h2

theorem Keeps.setImage {c t : Nat} {b : Bool} (hs : Keeps s₀ s) : KeepsGot s₀ (setImage s c t b) := by
  generalize hf : Machine.setImage = f
  delta Machine.setImage at hf
  subst hf
  beta_reduce
  generalize h : Machine.loadPlies s _ _ _ _ = g
  have hg : KeepsGot s₀ g := h ▸ hs.loadPlies
  cases g with
  | ok v s1 => exact Keeps.storePliesAt hg
  | fault e s1 => exact hg
  | held => trivial

theorem Keeps.spill {c t : Nat} (hs : Keeps s₀ s) : KeepsGot s₀ (spill s c t) := by
  obtain ⟨store, hstore⟩ : ∃ f, f = Machine.storeWords := ⟨_, Eq.refl _⟩
  obtain ⟨image, himage⟩ : ∃ f, f = Machine.setImage := ⟨_, Eq.refl _⟩
  have hw {t : State} (ht : Keeps s₀ t) (w a l d) : KeepsGot s₀ (store t w a l d) := hstore ▸ ht.storeWords
  have hi {u : State} (hu : Keeps s₀ u) (c t b) : KeepsGot s₀ (image u c t b) := himage ▸ hu.setImage
  generalize hf : Machine.spill = f
  delta Machine.spill at hf
  rw [← hstore, ← himage] at hf
  subst hf
  dsimp only
  split
  · trivial
  next e => exact (hw hs ..).of_fault e
  next e =>
    have h1 := (hw hs ..).of_ok e
    split
    · trivial
    next e => exact (hi h1 ..).of_fault e
    next e => exact ((hi h1 ..).of_ok e).emptyBank.setCap.bumpF

theorem Keeps.takeRecord {x : Ctx} (hs : Keeps s₀ s) : KeepsSnd s₀ (takeRecord s x) := by
  unfold Machine.takeRecord
  dsimp only
  split
  · exact hs.setTrail
  · exact hs

theorem Keeps.nextCid (hs : Keeps s₀ s) : Keeps s₀ (nextCid s) := ⟨hs.1, hs.2⟩

theorem Keeps.fill {c t b : Nat} (hs : Keeps s₀ s) : KeepsGot s₀ (fill s c t b) := by
  obtain ⟨load, hload⟩ : ∃ f, f = Machine.loadPlies := ⟨_, Eq.refl _⟩
  obtain ⟨words, hwords⟩ : ∃ f, f = Machine.loadWords := ⟨_, Eq.refl _⟩
  obtain ⟨image, himage⟩ : ∃ f, f = Machine.setImage := ⟨_, Eq.refl _⟩
  have hl {t : State} (ht : Keeps s₀ t) (w a n d) : KeepsGot s₀ (load t w a n d) := hload ▸ ht.loadPlies
  have hw {t : State} (ht : Keeps s₀ t) (w a n d) : KeepsGot s₀ (words t w a n d) := hwords ▸ ht.loadWords
  have hi {u : State} (hu : Keeps s₀ u) (c t b) : KeepsGot s₀ (image u c t b) := himage ▸ hu.setImage
  generalize hf : Machine.fill = f
  delta Machine.fill at hf
  rw [← hload, ← hwords, ← himage] at hf
  subst hf
  dsimp only
  split
  · trivial
  next e => exact (hl hs ..).of_fault e
  next e =>
    have h1 := (hl hs ..).of_ok e
    refine .ite ?_ ?_
    · split
      · trivial
      next e => exact (hw h1 ..).of_fault e
      next e => exact ((hw h1 ..).of_ok e).setCtxAt.setBank.nextCid
    · split
      · trivial
      next e => exact (hw h1 ..).of_fault e
      next e =>
        have h2 := (hw h1 ..).of_ok e
        split
        · trivial
        next e => exact (hi h2 ..).of_fault e
        next e =>
          have h3 := (hi h2 ..).of_ok e
          exact (Keeps.ite h3 h3.nextCid).takeRecord.setCtxAt.setBank.setCap

theorem Keeps.giveWay {c : Nat} (hs : Keeps s₀ s) : Keeps s₀ (giveWay s c) := by
  unfold Machine.giveWay
  dsimp only
  split
  · exact (Keeps.ite hs.setCtx hs).setCore.makeReady
  · exact (Keeps.ite hs.setCtx hs).setCore

theorem Keeps.runBank {c b : Nat} (hs : Keeps s₀ s) : Keeps s₀ (runBank s c b) := hs.wrF.wrF.setCap

theorem Keeps.runTask {c t : Nat} (hs : Keeps s₀ s) : Keeps s₀ (runTask s c t) :=
  .ite hs.giveWay.setTask.runBank.setCap.endBelay.openBelay hs.giveWay.setTask.runBank.setCap.endBelay

theorem Keeps.enterFaultBank {c : Nat} {f : CapFault} (hs : Keeps s₀ s) : KeepsOpt s₀ (enterFaultBank s c f) := by
  unfold Machine.enterFaultBank
  dsimp only
  split
  · exact .none
  next e =>
    exact .ite (.some (hs.giveWay.runBank.endBelay.setCap.setCtx.setPc.enter.of_some e)) (.some
      (hs.giveWay.runBank.endBelay.setCap.setCtx.setPc.enter.of_some e).setCtx)

theorem Keeps.fillAndRun {c t b : Nat} (hs : Keeps s₀ s) : Keeps s₀ (fillAndRun s c t b) := by
  obtain ⟨load, hload⟩ : ∃ f, f = Machine.fill := ⟨_, Eq.refl _⟩
  obtain ⟨due, hdue⟩ : ∃ f, f = Machine.dueFault := ⟨_, Eq.refl _⟩
  have hl (c t b) : KeepsGot s₀ (load s c t b) := hload ▸ hs.fill
  generalize hf : Machine.fillAndRun = f
  delta Machine.fillAndRun at hf
  rw [← hload, ← hdue] at hf
  subst hf
  dsimp only
  split
  · exact hs
  next e => exact ((hl ..).of_ok e).runTask
  next e =>
    split
    next e' => exact (KeepsOpt.bind fun _ => ((hl ..).of_fault e).setBank.taskFault.enterFaultBank).of_some e'
    · exact ((hl ..).of_fault e).setBank.taskFault

theorem Keeps.bringIn {c t : Nat} (hs : Keeps s₀ s) : Keeps s₀ (bringIn s c t) := by
  obtain ⟨store, hstore⟩ : ∃ f, f = Machine.spill := ⟨_, Eq.refl _⟩
  obtain ⟨due, hdue⟩ : ∃ f, f = Machine.dueFault := ⟨_, Eq.refl _⟩
  have hw (c t) : KeepsGot s₀ (store s c t) := hstore ▸ hs.spill
  generalize hf : Machine.bringIn = f
  delta Machine.bringIn at hf
  rw [← hstore, ← hdue] at hf
  subst hf
  dsimp only
  split
  · exact hs.drawNat.fillAndRun
  · split
    · exact hs
    · split
      · exact hs
      next e => exact ((hw ..).of_ok e).fillAndRun
      next e =>
        split
        next e' => exact (KeepsOpt.bind fun _ => ((hw ..).of_fault e).taskFault.setCap.enterFaultBank).of_some e'
        · exact ((hw ..).of_fault e).taskFault.setCap

theorem Keeps.capstanSwitch {c : Nat} (hs : Keeps s₀ s) : Keeps s₀ (capstanSwitch s c) := by
  unfold Machine.capstanSwitch
  refine .ite hs ?_
  split
  · exact Keeps.getD hs.enterFaultBank hs
  · split
    · exact hs
    · exact .ite hs (.ite hs.runTask hs.bringIn)

theorem Keeps.yieldBank {c : Nat} (hs : Keeps s₀ s) : Keeps s₀ (yieldBank s c) := by
  unfold Machine.yieldBank
  dsimp only
  split
  · split
    · exact hs.endBelay.wrF.store.invalidate
    · exact hs.endBelay.wrF.setTask
  · exact hs.endBelay.wrF

theorem Keeps.writeTask {a : Auth} {c t j : Nat} {v : Reg24} (hs : Keeps s₀ s) : KeepsWritten s₀ (writeTask s a c t j v) :=
  .ite (Keeps.ite hs.store.setBank.setTask.setCap (Keeps.ite hs.setCap (Keeps.ite hs.store hs.store.invalidate))).judge hs.store.judge

theorem Keeps.writeCapBlock {a : Auth} {r : Rg} {v : Reg24} (hs : Keeps s₀ s) : KeepsWritten s₀ (writeCapBlock s a r v) := by
  unfold Machine.writeCapBlock
  split
  · exact hs.store.judge
  · exact hs.store.judge
  · exact hs.store.judge
  · exact hs.store.reviewBelay.judge
  · exact (Keeps.ite hs.store.wrF.reviewBelay hs.store).judge
  · exact .ite hs.writeTask (.ok hs.store)
  · exact .ok hs.store

/-! #### The host port -/

theorem Keeps.setHost {f : Nat} {x : HostFn} (hs : Keeps s₀ s) : Keeps s₀ (setHost s f x) := ⟨hs.1, hs.2⟩

theorem Keeps.showLink {p : Nat} {up : Bool} {gen : BitVec 3} {width : BitVec 4} (hs : Keeps s₀ s) :
    Keeps s₀ (showLink s p up gen width) := hs.wrB.wrF.wrF.report

theorem Keeps.setPerst {p : Nat} {b : Bool} (hs : Keeps s₀ s) : Keeps s₀ (setPerst s p b) := ⟨hs.1, hs.2⟩

theorem Keeps.trainLink {p : Nat} {perstN : Bool} {gen : BitVec 3} {width : BitVec 4} (hs : Keeps s₀ s) :
    Keeps s₀ (trainLink s p perstN gen width) := .ite hs.setPerst.showLink hs.setPerst

theorem Keeps.resetFunction {f : Nat} (hs : Keeps s₀ s) : Keeps s₀ (resetFunction s f) :=
  Keeps.foldl hs.frame.setHost.wrB fun _ _ ht => ht.wr

theorem Keeps.dropLink {p : Nat} {perstN : Bool} (hs : Keeps s₀ s) : Keeps s₀ (dropLink s p perstN) :=
  .ite hs.setPerst (Keeps.foldl hs.setPerst fun _ _ ht => ht.resetFunction).showLink

theorem Keeps.msixMessage {f v : Nat} (hs : Keeps s₀ s) : Keeps s₀ (msixMessage s f v) := hs.send
theorem Keeps.sendPending {f v : Nat} (hs : Keeps s₀ s) : Keeps s₀ (sendPending s f v) := .ite hs.setHost.msixMessage hs
theorem Keeps.msixFire {f v : Nat} (hs : Keeps s₀ s) : Keeps s₀ (msixFire s f v) := .ite hs.bumpF (.ite hs.setHost hs.msixMessage)

theorem Keeps.answer {f : Nat} {status : BitVec 3} {ep : Bool} {bytes : List Byte} (hs : Keeps s₀ s) :
    Keeps s₀ (answer s f status ep bytes) := hs.send

theorem Keeps.failRequest {f : Nat} {status : BitVec 3} {ep : Bool} (hs : Keeps s₀ s) : Keeps s₀ (failRequest s f status ep) :=
  hs.setHost.answer

theorem Keeps.writeMsixTable {f v : Nat} {e : MsixEntry} (hs : Keeps s₀ s) : Keeps s₀ (writeMsixTable s f v e) :=
  .ite hs (.ite hs.failRequest hs.setHost.sendPending)

theorem Keeps.unmaskVector {f v : Nat} (hs : Keeps s₀ s) : Keeps s₀ (unmaskVector s f v) := hs.writeMsixTable
theorem Keeps.readMsix {f off n : Nat} (hs : Keeps s₀ s) : Keeps s₀ (readMsix s f off n) := .ite hs (.ite hs.failRequest hs.answer)

theorem Keeps.writeConfig {f : Nat} {item : ConfigItem} {v : BitVec 32} (hs : Keeps s₀ s) : Keeps s₀ (writeConfig s f item v) := by
  unfold Machine.writeConfig
  dsimp only
  split
  · exact hs.setHost
  · exact hs.setHost
  · exact Keeps.foldl hs.wrB fun _ _ ht => ht.sendPending
  · exact Keeps.foldl hs.setHost fun _ _ ht => ht.sendPending
  · exact hs.setHost
  · exact hs.setHost
  · exact hs.setHost
  · exact hs

theorem Keeps.configure {f : Nat} {item : ConfigItem} {write : Bool} {v : BitVec 32} (hs : Keeps s₀ s) :
    Keeps s₀ (configure s f item write v) := .ite hs (.ite hs.writeConfig hs.answer)

theorem Keeps.checkedWindow {f a : Nat} {k : Kind} (hs : Keeps s₀ s) : KeepsSnd s₀ (checkedWindow s f a k) := .ite (.pair hs) hs.admitted

theorem Keeps.writeWindow {f : Nat} {bytes : List Byte} {bad : Bool} {l : List (Nat × Nat × Nat)} (hs : Keeps s₀ s) :
    KeepsSnd s₀ (writeWindow s f bytes bad l) := by
  induction l generalizing s bytes bad with
  | nil => exact KeepsSnd.pair (.ite hs.failRequest hs)
  | cons x l ih =>
    unfold Machine.writeWindow
    dsimp only
    split
    · exact .pair hs
    next e => exact ih (hs.checkedWindow.of_pair e).writeMasked
    next e => exact ih (hs.checkedWindow.of_pair e).countFailure

theorem Keeps.barWrite {f off : Nat} {bytes : List Byte} {ep bad : Bool} (hs : Keeps s₀ s) :
    KeepsSnd s₀ (barWrite s f off bytes ep bad) :=
  .ite (.pair hs) (.ite (.pair hs.failRequest) (.ite (.pair hs.failRequest) (.ite (.pair hs.failRequest) (.ite (.pair hs.failRequest)
    hs.writeWindow))))

theorem Keeps.checkReads {f : Nat} {l : List (Nat × Nat × Nat)} (hs : Keeps s₀ s) : KeepsSnd s₀ (checkReads s f l) := by
  induction l generalizing s with
  | nil => exact .pair hs
  | cons x l ih =>
    unfold Machine.checkReads
    split
    next e => exact ih (hs.checkedWindow.of_pair e)
    next e => exact .pair (hs.checkedWindow.of_pair e)

theorem Keeps.readWindow {f : Nat} {l : List (Nat × Nat × Nat)} (hs : Keeps s₀ s) : KeepsSnd s₀ (readWindow s f l) := by
  induction l generalizing s with
  | nil => exact .pair hs
  | cons x l ih =>
    unfold Machine.readWindow
    exact KeepsSnd.pair (ih (.ite hs.fetchWord.poisonUsed hs.fetchWord))

theorem Keeps.barRead {f off n : Nat} (hs : Keeps s₀ s) : Keeps s₀ (barRead s f off n) :=
  .ite hs (.ite hs.failRequest (.ite hs.failRequest (.ite hs.failRequest (.ite hs.checkReads.readWindow.answer
    hs.checkReads.countFailure.failRequest))))

theorem Keeps.writeSyncEvt {a : Auth} {v : Reg24} (hs : Keeps s₀ s) : KeepsWritten s₀ (writeSyncEvt s a v) := hs.store.judge
theorem Keeps.writeMsiv {a : Auth} {f v : Nat} {x : Reg24} (hs : Keeps s₀ s) : KeepsWritten s₀ (writeMsiv s a f v x) := hs.store.judge

/-! #### The event tick -/

theorem Keeps.groupActApply {x : GroupAct} (hs : Keeps s₀ s) : Keeps s₀ (x.apply s) := hs.foldl fun _ _ ht => Keeps.ite ht.wrB ht
theorem Keeps.moveLine {n : Nat} {o : OwnerCode} (hs : Keeps s₀ s) : Keeps s₀ (moveLine s n o) := hs.frame.wr

theorem Keeps.moveOwned {x : Owned} {o : OwnerCode} (hs : Keeps s₀ s) : Keeps s₀ (moveOwned s x o) := by
  unfold Machine.moveOwned
  split
  · exact hs.moveLine
  · exact hs.moveTimer
  · exact hs.moveRx
  · exact hs.moveTx

theorem Keeps.moveOwners (hs : Keeps s₀ s) : Keeps s₀ (moveOwners s) := Keeps.foldl hs.frame fun _ _ ht => ht.moveOwned

theorem Keeps.nextEventTick (hs : Keeps s₀ s) : Keeps s₀ (nextEventTick s) :=
  .ite hs.moveOwners (Keeps.foldl hs.moveOwners fun _ _ ht => ht.groupActApply).frame

theorem Keeps.slowTick (hs : Keeps s₀ s) : Keeps s₀ (slowTick s) := hs.nextEventTick.frame

/-! #### Events -/

theorem Keeps.deliverTo {m : Nat} {o code : OwnerCode} {act : State → State} (hs : Keeps s₀ s) (hact : ∀ t, Keeps s₀ t → Keeps s₀ (act t))
    : Keeps s₀ (deliverTo s m o code act) := .ite (hact _ hs) hs.tally

theorem Keeps.forAll {n : Nat} {f : State → Nat → State} (hs : Keeps s₀ s) (hf : ∀ t a1, Keeps s₀ t → Keeps s₀ (f t a1)) :
    Keeps s₀ (forAll n s f) := hs.foldl fun _ _ ht => hf _ _ ht

theorem Keeps.deliver {m : Nat} {o : OwnerCode} (hs : Keeps s₀ s) : Keeps s₀ (deliver s m o) :=
  (((((hs.forAll fun _ _ ht => Keeps.ite (ht.deliverTo fun _ ht1 => ht1.wakeTask) ht).forAll fun _ _ ht => Keeps.ite (ht.deliverTo fun _
    ht1 => ht1.irqFires) ht).forAll fun _ _ ht => Keeps.ite (ht.deliverTo fun _ ht1 => ht1.timerTrigger) ht).forAll fun _ _ ht =>
    Keeps.ite (ht.deliverTo fun _ ht1 => ht1.transmitEvent) ht).forAll fun _ _ ht => Keeps.ite ht.msixFire ht).wakeLine

theorem Keeps.fires {m : Nat} {o : OwnerCode} (hs : Keeps s₀ s) : Keeps s₀ (fires s m o) :=
  (Keeps.ite hs.frame.assertLine hs.frame).deliver

theorem Keeps.fireLine {m : Nat} {o : OwnerCode} (hs : Keeps s₀ s) : Keeps s₀ (fireLine s m o) :=
  .ite hs.tally (.ite (.ite hs.tally hs.frame) hs.fires)

theorem Keeps.meet {m : Nat} (hs : Keeps s₀ s) : KeepsSnd s₀ (meet s m) := Keeps.ite hs.frame hs.frame.tally
theorem Keeps.tickFor {m : Nat} (hs : Keeps s₀ s) : Keeps s₀ (tickFor s m) := .ite hs.nextEventTick hs

theorem Keeps.eventFire {m : Nat} (hs : Keeps s₀ s) : Keeps s₀ (eventFire s m) := by
  unfold Machine.eventFire
  refine .ite hs ?_
  dsimp only
  split
  next e => exact (hs.tickFor.meet.of_pair e).fireLine
  next e => exact hs.tickFor.meet.of_pair e

theorem Keeps.unguard {m : Nat} (hs : Keeps s₀ s) : Keeps s₀ (unguard s m) := ⟨hs.1, hs.2⟩

theorem Keeps.guardRelease {m : Nat} (hs : Keeps s₀ s) : Keeps s₀ (guardRelease s m) := by
  unfold Machine.guardRelease
  split
  · exact hs
  · exact .ite hs.unguard (Keeps.ite hs.nextEventTick hs).frame.meet.fireLine

theorem Keeps.writeLine {a : Auth} {n : Nat} {v : Reg24} (hs : Keeps s₀ s) : KeepsWritten s₀ (writeLine s a n v) :=
  .ite (Keeps.ite hs.store.unguard hs.store).judge hs.changeOwner.judge

theorem Keeps.writePulse {a : Auth} {v : Reg24} (hs : Keeps s₀ s) : KeepsWritten s₀ (writePulse s a v) := hs.assertLine.judge

theorem Keeps.writeEventBlock {a : Auth} {r : Rg} {v : Reg24} (hs : Keeps s₀ s) : KeepsWritten s₀ (writeEventBlock s a r v) := by
  unfold Machine.writeEventBlock
  split
  · exact hs.writeLine
  · exact hs.writePulse
  · exact .ok hs.store

/-! #### Firmware commands -/

theorem Keeps.setGood {b good : Bool} (hs : Keeps s₀ s) : Keeps s₀ (setGood s b good) := ⟨hs.1, hs.2⟩
theorem Keeps.setSlot {b : Bool} {x : Slot} (hs : Keeps s₀ s) : Keeps s₀ (setSlot s b x) := hs.frame.setGood
theorem Keeps.beginFw {c : FwCmd} (hs : Keeps s₀ s) : Keeps s₀ (beginFw s c) := hs.frame.wrB

theorem Keeps.writeFwBlock {a : Auth} {r : Rg} {v : Reg24} (hs : Keeps s₀ s) : KeepsWritten s₀ (writeFwBlock s a r v) := by
  unfold Machine.writeFwBlock
  refine .ite (.ok hs) ?_
  split
  · exact hs.beginFw.judge
  · exact hs.store.judge

theorem Keeps.fwDone {result : BitVec 7} (hs : Keeps s₀ s) : Keeps s₀ (fwDone s result) := hs.frame.wrB.wrB.wrB

theorem Keeps.fwFail {result : BitVec 7} {code : BitVec 12} (hs : Keeps s₀ s) : Keeps s₀ (fwFail s result code) :=
  hs.frame.wrB.wrB.wrB.post

theorem Keeps.flashFail (hs : Keeps s₀ s) : Keeps s₀ (flashFail s) := hs.drawBits.fwFail
theorem Keeps.clearDone {ok : Bool} (hs : Keeps s₀ s) : Keeps s₀ (clearDone s ok) := .ite hs.setSlot.fwDone hs.frame.setSlot.flashFail

theorem Keeps.failedWrite {b : Bool} {x : Slot} {c : FwCmd} (hs : Keeps s₀ s) : Keeps s₀ (failedWrite s b x c) :=
  hs.frame.setSlot.flashFail

/-- The words a firmware command reads, with the state after its reads. -/
def KeepsFetched {α : Type} (s₀ : State) (x : Option (α × State)) : Prop := ∀ a t, x = some (a, t) → Keeps s₀ t

theorem KeepsFetched.some {α : Type} {a : α} {t : State} (ht : Keeps s₀ t) : KeepsFetched s₀ (some (a, t)) := by
  rintro _ _ ⟨⟩
  exact ht

theorem KeepsFetched.none {α : Type} : KeepsFetched (α := α) s₀ none := fun _ _ h => absurd h (by simp)

theorem KeepsFetched.ite {α : Type} {c : Prop} {dec : Decidable c} {a b : Option (α × State)} (ha : KeepsFetched s₀ a)
    (hb : KeepsFetched s₀ b) : KeepsFetched s₀ (if c then a else b) := by
  split
  · exact ha
  · exact hb

theorem Keeps.sourceWords {c : FwCmd} {n : Nat} (hs : Keeps s₀ s) : KeepsFetched s₀ (sourceWords s c n) := by
  obtain ⟨read, hread⟩ : ∃ f, f = Machine.readWord := ⟨_, Eq.refl _⟩
  have hkeeps {t : State} (ht : Keeps s₀ t) (a m) : KeepsSnd s₀ (read t a m) := hread ▸ ht.readWord
  unfold Machine.sourceWords
  rw [← hread]
  extract_lets w
  refine Laws.foldl_keeps (P := KeepsFetched s₀) _ _ (fun x i hx => ?_) _ (.some hs)
  split
  · exact hx
  · exact hx
  next l t =>
    have ht : Keeps s₀ t := hx _ _ (Eq.refl _)
    extract_lets a r v
    have hr : KeepsSnd s₀ r := ht.checked
    have hv : KeepsSnd s₀ v := .ite (.pair ht) (.ite (.pair ht) (.ite hr (.pair ht)))
    clear_value v
    split
    · exact .none
    · exact .some hv.countFailure
    next t1 =>
      have h1 : KeepsSnd s₀ (read t1 a 21) := hkeeps hv ..
      split
      next e => exact .ite (.some (h1.of_pair e)) (.some (h1.of_pair e))

theorem Keeps.programDone {c : FwCmd} {ok : Bool} (hs : Keeps s₀ s) : Keeps s₀ (programDone s c ok) := by
  unfold Machine.programDone
  dsimp only
  split
  · exact hs
  next e => exact (hs.sourceWords _ _ e).fwFail
  next e =>
    have ht := hs.sourceWords _ _ e
    refine .ite ?_ (.ite ht.setSlot.fwDone ht.failedWrite)
    split
    · exact ht.fwFail
    · exact .ite ht.setSlot.fwDone ht.failedWrite

theorem Keeps.writePointer (hs : Keeps s₀ s) : Keeps s₀ (writePointer s) := hs.frame.wrB

theorem Keeps.activateDone {ok : Bool} (hs : Keeps s₀ s) : Keeps s₀ (activateDone s ok) := by
  unfold Machine.activateDone
  split
  · exact hs.fwFail
  · exact .ite hs.setGood.writePointer.fwDone hs.setGood.flashFail

theorem Keeps.commitDone (hs : Keeps s₀ s) : Keeps s₀ (commitDone s) := hs.frame.fwDone

theorem Keeps.keyprogDone {c : FwCmd} (hs : Keeps s₀ s) : Keeps s₀ (keyprogDone s c) := by
  unfold Machine.keyprogDone
  split
  · exact hs
  next e => exact (hs.sourceWords _ _ e).fwFail
  next e => exact .ite (hs.sourceWords _ _ e).frame.fwDone (hs.sourceWords _ _ e).fwFail

theorem Keeps.completeFw {ok : Bool} (hs : Keeps s₀ s) : Keeps s₀ (completeFw s ok) := by
  unfold Machine.completeFw
  split
  · exact hs
  · split
    · exact hs.clearDone
    · exact hs.programDone
    · exact hs.activateDone
    · exact hs.commitDone
    · exact hs.keyprogDone

/-! #### The object dictionary -/

theorem Keeps.lastReject {code : BitVec 12} (hs : Keeps s₀ s) : Keeps s₀ (lastReject s code) := ⟨hs.1, hs.2⟩
theorem Keeps.refuseDownload {code : BitVec 12} (hs : Keeps s₀ s) : Keeps s₀ (refuseDownload s code) := ⟨hs.1, hs.2⟩

theorem Keeps.download {bytes : List Byte} (hs : Keeps s₀ s) : KeepsSnd s₀ (download s bytes) := by
  unfold Machine.download
  dsimp only
  refine .ite (.pair hs.lastReject) (.ite (.pair hs.refuseDownload) ?_)
  split
  · exact hs.refuseDownload
  · exact hs.setSlot.frame

theorem Keeps.programControl {sub n : Nat} (hs : Keeps s₀ s) : KeepsSnd s₀ (programControl s sub n) := by
  unfold Machine.programControl
  dsimp only
  refine .ite (.pair hs) ?_
  split
  · exact hs.lastReject
  · exact hs.beginFw

theorem Keeps.writeObject {k : Client} {index sub : Nat} {v : List Byte} (hs : Keeps s₀ s) :
    KeepsSnd s₀ (writeObject s k index sub v) := by
  unfold Machine.writeObject
  split
  · exact hs
  · refine .ite hs.download (.ite (.pair hs) (.ite hs.programControl ?_))
    split
    · exact hs
    · exact (Keeps.ite hs.noteTold hs).setOd.reconsider

theorem Keeps.answerUsdo {n : BitVec 7} {bus : Bool} {e : Option OdErr} {bytes : List Byte} (hs : Keeps s₀ s) :
    Keeps s₀ (answerUsdo s n bus e bytes) := hs.sendCan

theorem Keeps.drawn {index sub : Nat} (hs : Keeps s₀ s) : Keeps s₀ (drawn s index sub) := .ite hs.frame hs

theorem Keeps.transfer {n : BitVec 7} {bus : Bool} {index sub : Nat} {v : Option (List Byte)} (hs : Keeps s₀ s) :
    Keeps s₀ (transfer s n bus index sub v) := by
  unfold Machine.transfer
  split
  · exact hs.writeObject.answerUsdo
  · split
    · exact hs.answerUsdo
    · exact hs.drawn.answerUsdo

theorem Keeps.notOpened {e : OdErr} (hs : Keeps s₀ s) : Keeps s₀ (notOpened s e) := by
  unfold Machine.notOpened
  split
  · exact hs.lastReject
  · exact hs

theorem Keeps.usdoRequest {n : BitVec 7} {bus : Bool} {index sub : Nat} {v : Option (List Byte)} {segmented : Bool} (hs : Keeps s₀ s) :
    Keeps s₀ (usdoRequest s n bus index sub v segmented) := by
  unfold Machine.usdoRequest
  dsimp only
  refine .ite hs (.ite hs.answerUsdo ?_)
  refine .ite ?_ hs.frame.transfer
  split
  · exact hs.frame.notOpened.answerUsdo
  · exact hs.frame.frame

theorem Keeps.sessionTimeout {n : BitVec 7} (hs : Keeps s₀ s) : Keeps s₀ (sessionTimeout s n) := by
  unfold Machine.sessionTimeout
  split
  · exact hs
  · exact hs.frame.answerUsdo

theorem Keeps.bytesAt {l : List Byte} {off n : Nat} (hs : Keeps s₀ s) : KeepsSnd s₀ (bytesAt s l off n) := hs.frame
theorem Keeps.setOdData {f : Nat} {l : List Byte} (hs : Keeps s₀ s) : Keeps s₀ (setOdData s f l) := hs.foldl fun _ _ ht => ht.wrF
theorem Keeps.odResult {f : Nat} {e : Option OdErr} {size : Nat} (hs : Keeps s₀ s) : Keeps s₀ (odResult s f e size) := hs.wr.wr.wr

theorem Keeps.clientWrite {k : Client} {index sub : Nat} {v : List Byte} (hs : Keeps s₀ s) : Keeps s₀ (clientWrite s k index sub v) := by
  unfold Machine.clientWrite
  split
  · exact hs.usdoRequest
  · exact .ite hs hs.writeObject.odResult

theorem Keeps.mailboxGet {f : Nat} {k : Client} {index sub off len : Nat} (hs : Keeps s₀ s) :
    Keeps s₀ (mailboxGet s f k index sub off len) := by
  unfold Machine.mailboxGet
  extract_lets give
  have hgive (t l) (ht : Keeps s₀ t) : Keeps s₀ (give t l) := by
    unfold give
    split
    next e => exact (ht.bytesAt.of_pair e).setOdData.odResult
  refine .ite ?_ (hgive _ _ hs)
  split
  · exact hs.setHost.odResult
  · exact hgive _ _ hs.setHost.drawn

theorem Keeps.mailboxPut {f : Nat} {k : Client} {index sub off len : Nat} {final : Bool} (hs : Keeps s₀ s) :
    Keeps s₀ (mailboxPut s f k index sub off len final) := .ite hs.bytesAt.setHost.writeObject.odResult hs.bytesAt.setHost.odResult

theorem Keeps.writeOdCmd {a : Auth} {f : Nat} {v : Reg24} (hs : Keeps s₀ s) : KeepsWritten s₀ (writeOdCmd s a f v) :=
  (Keeps.ite hs.mailboxPut hs.mailboxGet).judge

theorem Keeps.writeHostBlock {a : Auth} {r : Rg} {v : Reg24} (hs : Keeps s₀ s) : KeepsWritten s₀ (writeHostBlock s a r v) := by
  unfold Machine.writeHostBlock
  split
  · exact hs.writeSyncEvt
  · exact hs.store.judge
  · exact hs.store.judge
  · exact hs.store.judge
  · exact hs.store.judge
  · exact hs.store.judge
  · exact hs.store.judge
  · exact hs.writeOdCmd
  · exact hs.writeMsiv
  · exact .ok hs.store

/-! #### CAN -/

theorem Keeps.nmtCommand {c : NmtCommand} (hs : Keeps s₀ s) : Keeps s₀ (nmtCommand s c) := .ite hs hs.frame

theorem Keeps.resetCommunication (hs : Keeps s₀ s) : Keeps s₀ (resetCommunication s) := by
  unfold Machine.resetCommunication
  dsimp only
  refine Keeps.frame ?_
  split
  · exact .ite hs.wrF.wrB hs.wrF.wrB
  · exact hs

theorem Keeps.syncFrame {bus : Bool} (hs : Keeps s₀ s) : Keeps s₀ (syncFrame s bus) := .ite hs hs.frame.assertIf
theorem Keeps.produceHeartbeat (hs : Keeps s₀ s) : Keeps s₀ (produceHeartbeat s) := .ite hs hs.sendCan
theorem Keeps.sendTpdo {n : Nat} (hs : Keeps s₀ s) : Keeps s₀ (sendTpdo s n) := .ite hs hs.sendCan
theorem Keeps.heardHeartbeat {n : BitVec 7} (hs : Keeps s₀ s) : Keeps s₀ (heardHeartbeat s n) := .ite hs.frame hs
theorem Keeps.heartbeatLost {n : BitVec 7} (hs : Keeps s₀ s) : Keeps s₀ (heartbeatLost s n) := ⟨hs.1, hs.2⟩
theorem Keeps.setBus {bus : Bool} {v : BitVec 2} (hs : Keeps s₀ s) : Keeps s₀ (setBus s bus v) := hs.wrF.report
theorem Keeps.errorPassive {bus passive : Bool} (hs : Keeps s₀ s) : Keeps s₀ (errorPassive s bus passive) := .ite hs hs.setBus
theorem Keeps.recoverBus {bus : Bool} (hs : Keeps s₀ s) : Keeps s₀ (recoverBus s bus) := .ite hs.setBus hs
theorem Keeps.lssAnswer {spec : Byte} {v : BitVec 32} (hs : Keeps s₀ s) : Keeps s₀ (lssAnswer s spec v) := hs.sendCan
theorem Keeps.switchGlobal {config : Bool} (hs : Keeps s₀ s) : Keeps s₀ (switchGlobal s config) := ⟨hs.1, hs.2⟩
theorem Keeps.switchSelective {id : BitVec 128} (hs : Keeps s₀ s) : Keeps s₀ (switchSelective s id) := .ite hs.frame.lssAnswer hs
theorem Keeps.configureNode {n : Byte} (hs : Keeps s₀ s) : Keeps s₀ (configureNode s n) := .ite hs (.ite hs.frame.lssAnswer hs.lssAnswer)

theorem Keeps.configureTiming {nominal data : BitVec 16} (hs : Keeps s₀ s) : Keeps s₀ (configureTiming s nominal data) :=
  .ite hs (.ite hs.frame.lssAnswer hs.lssAnswer)

theorem Keeps.storeLss (hs : Keeps s₀ s) : Keeps s₀ (storeLss s) := .ite hs hs.frame.lssAnswer
theorem Keeps.inquire {field : Nat} (hs : Keeps s₀ s) : Keeps s₀ (inquire s field) := .ite hs.lssAnswer hs
theorem Keeps.inquireNode (hs : Keeps s₀ s) : Keeps s₀ (inquireNode s) := .ite hs.lssAnswer hs

theorem Keeps.identify {vendor product revLow revHigh serLow serHigh : BitVec 32} (hs : Keeps s₀ s) :
    Keeps s₀ (identify s vendor product revLow revHigh serLow serHigh) := .ite hs.lssAnswer hs

theorem Keeps.fastscanStep {idn : BitVec 32} {bit sub next : Byte} (hs : Keeps s₀ s) : Keeps s₀ (fastscanStep s idn bit sub next) :=
  .ite hs (.ite hs.frame.lssAnswer (.ite hs (.ite hs (.ite hs.lssAnswer hs.frame.lssAnswer))))

/-! #### Debug -/

theorem Keeps.underAftar (hs : Keeps s₀ s) : Keeps s₀ (underAftar s) := ⟨hs.1, hs.2⟩
theorem Keeps.debugDone (hs : Keeps s₀ s) : Keeps s₀ (debugDone s) := hs.wrB.setFlag
theorem Keeps.discardChain {c : Nat} (hs : Keeps s₀ s) : Keeps s₀ (discardChain s c) := .ite hs.setCore hs.setCore.setCtx

theorem Keeps.haltCore {c : Nat} {cause : BitVec 3} (hs : Keeps s₀ s) : Keeps s₀ (haltCore s c cause) :=
  .ite (Keeps.ite hs.discardChain.setPc hs.discardChain).setCore.wrB.wrF.pauseDogOf.debugDone (Keeps.ite hs.discardChain.setPc
    hs.discardChain).setCore.wrB.wrF.pauseDogOf

theorem Keeps.haltTaken {c : Nat} (hs : Keeps s₀ s) : Keeps s₀ (haltTaken s c) := .ite hs.haltCore hs

theorem Keeps.thawed {was t : State} (ht : Keeps s₀ t) : Keeps s₀ (thawed was t) :=
  .ite (Keeps.ite ht.releaseLanes ht).serveHeld (.ite ht.releaseLanes ht)

theorem Keeps.leaveSlot {c : Nat} (hs : Keeps s₀ s) : Keeps s₀ (leaveSlot s c) := by
  unfold Machine.leaveSlot
  split
  · exact hs.setCore.setPc
  · exact hs

theorem Keeps.unhalt {c : Nat} (hs : Keeps s₀ s) : Keeps s₀ (unhalt s c) := hs.leaveSlot.wrB.resumeDogOf.thawed
theorem Keeps.stepEnds {c : Nat} (hs : Keeps s₀ s) : Keeps s₀ (stepEnds s c) := .ite hs.haltCore hs
theorem Keeps.releaseCore {c : Nat} (hs : Keeps s₀ s) : Keeps s₀ (releaseCore s c) := hs.wrF.setStw.wrB.pauseDogOf.debugDone.report
theorem Keeps.setDebugData {v : Word72} (hs : Keeps s₀ s) : Keeps s₀ (setDebugData s v) := hs.wr.wr.wr

theorem Keeps.debugSet {c b n j : Nat} {v : Word72} (hs : Keeps s₀ s) : Keeps s₀ (debugSet s c b n j v) :=
  .ite hs.setCore (.ite hs.setCore hs.setCtxAt)

theorem Keeps.writeDebugCmd {a : Auth} {v : Reg24} (hs : Keeps s₀ s) : KeepsWritten s₀ (writeDebugCmd s a v) := by
  unfold Machine.writeDebugCmd
  dsimp only
  refine Keeps.judge ?_
  split
  · exact Keeps.ite hs.wrB.setCore hs.debugDone
  · exact (Keeps.ite hs hs.unhalt).debugDone
  · exact Keeps.ite hs.debugDone hs.wrB.unhalt.setCore
  · exact hs.setDebugData.debugDone
  · exact hs.debugSet.debugDone
  · exact hs.releaseCore

theorem Keeps.loseTrace {n : Nat} (hs : Keeps s₀ s) : Keeps s₀ (loseTrace s n) := hs.frame.tally
theorem Keeps.overflowPacket (hs : Keeps s₀ s) : Keeps s₀ (overflowPacket s) := .ite hs hs.frame
theorem Keeps.failRing (hs : Keeps s₀ s) : Keeps s₀ (failRing s) := hs.countFailure.frame.wrB.loseTrace

/-- One packet of the ring. It stands for the equation of `drainRing`, whose own proof is too deep for the kernel. -/
theorem Keeps.drainRingStep {k : Nat} {ih : Nat.below (motive := fun _ => State → State) (k + 1)}
    (hih : ∀ t, Keeps s₀ t → Keeps s₀ (ih.1 t)) (hs : Keeps s₀ s) : Keeps s₀ (drainRing._f (k + 1) ih s) := by
  unfold drainRing._f
  refine .ite hs (.ite hs.failRing ?_)
  generalize h : Machine.admitted s _ _ _ _ = x
  have hx : KeepsSnd s₀ x := h ▸ hs.admitted
  obtain ⟨_ | _ | _, t⟩ := x
  · exact hih _ (Keeps.writeMasked hx).frame.overflowPacket
  · exact Keeps.failRing hx
  · exact hs

theorem Keeps.drainRing {fuel : Nat} (hs : Keeps s₀ s) : Keeps s₀ (drainRing fuel s) := by
  delta Machine.drainRing
  induction fuel generalizing s with
  | zero => exact hs
  | succ k ih =>
    rw [Nat.brecOn.eq (k + 1) drainRing._f]
    exact Keeps.drainRingStep (fun _ ht => ih ht) hs

theorem Keeps.traceOn (hs : Keeps s₀ s) : Keeps s₀ (traceOn s) := .ite hs.drainRing hs

theorem Keeps.tracePacket {bytes : List Byte} (hs : Keeps s₀ s) : Keeps s₀ (tracePacket s bytes) :=
  .ite hs (.ite hs.overflowPacket.loseTrace hs.overflowPacket.frame.traceOn)

theorem Keeps.sendTrace (hs : Keeps s₀ s) : Keeps s₀ (sendTrace s) := by
  unfold Machine.sendTrace
  refine .ite ?_ hs.traceOn
  split
  · exact hs.send
  · exact hs.frame.send.overflowPacket

theorem Keeps.writeStimulus {a : Auth} {w : Bool} {k : Nat} {v : Reg24} (hs : Keeps s₀ s) : KeepsWritten s₀ (writeStimulus s a w k v) :=
  hs.tracePacket.judge

theorem Keeps.syncPacket' (hs : Keeps s₀ s) : Keeps s₀ (syncPacket' s) := hs.tracePacket
theorem Keeps.writeFreeze {v : Reg24} (hs : Keeps s₀ s) : Keeps s₀ (writeFreeze s v) := hs.store.thawed

theorem Keeps.writeDebugCtl {v : Reg24} (hs : Keeps s₀ s) : Keeps s₀ (writeDebugCtl s v) :=
  .ite hs.store.thawed hs.store.thawed.endEmulation

theorem Keeps.resetTap (hs : Keeps s₀ s) : Keeps s₀ (resetTap s) := hs.frame.wrB.endEmulation

theorem Keeps.writeDebugBlock {a : Auth} {r : Rg} {v : Reg24} (hs : Keeps s₀ s) : KeepsWritten s₀ (writeDebugBlock s a r v) := by
  unfold Machine.writeDebugBlock
  split
  · exact hs.writeStimulus
  · exact hs.store.judge
  · exact hs.writeDebugCmd
  · exact hs.writeFreeze.judge
  · exact hs.writeDebugCtl.judge
  · exact (Keeps.ite hs.store.frame hs.store).judge
  · exact hs.store.judge

/-! #### Register writes -/

theorem Keeps.putBlock {a : Auth} {r : Rg} {v : Reg24} (hs : Keeps s₀ s) : KeepsWritten s₀ (putBlock s a r v) :=
  .ite hs.writeStoreBlock (.ite hs.writeCisBlock (.ite hs.writePumpBlock (.ite hs.writeLlBlock (.ite hs.writeCapBlock (.ite
    hs.writeEventBlock (.ite hs.writeTimerBlock (.ite hs.writeLaneBlock (.ite hs.writeHostBlock (.ite hs.writeModBlock (.ite
    hs.writeFwBlock hs.writeDebugBlock))))))))))

theorem Keeps.postReject {r : Rg} {e : Reject} (hs : Keeps s₀ s) : Keeps s₀ (postReject s r e) := .ite hs.post.frame hs.post

theorem Keeps.putRegister {a : Auth} {i : Nat} {v : Reg24} (hs : Keeps s₀ s) : KeepsSnd s₀ (putRegister s a i v) := by
  unfold Machine.putRegister
  split
  · exact hs
  · split
    next e1 => exact hs.putBlock.of_ok e1
    · exact hs.postReject

theorem Keeps.clearRead {a : Auth} {i : Nat} (hs : Keeps s₀ s) : Keeps s₀ (clearRead s a i) := by
  unfold Machine.clearRead
  split
  · exact hs
  · refine .ite ?_ hs
    dsimp only
    split
    · exact hs.wr
    · exact hs.frame.wr

theorem Keeps.grantRegisters {w : Writer} (hs : Keeps s₀ s) : Keeps s₀ (grantRegisters s w) := by
  unfold Machine.grantRegisters
  split
  · exact hs.granted
  · exact hs.granted
  · exact hs.granted
  · exact hs
  · exact hs

theorem Keeps.loadRegisters {w : Writer} {clear : Bool} {a n : Nat} (hs : Keeps s₀ s) :
    KeepsSnd s₀ (loadRegisters s w clear a n) := by
  have hg : Keeps s₀ (Machine.grantRegisters s w) := hs.grantRegisters
  unfold Machine.loadRegisters
  exact KeepsSnd.pair (KeepsSnd.foldl (.pair hg) fun x i hx => .pair (.ite hx.clearRead hx))

theorem Keeps.storeRegisters {w : Writer} {a n v : Nat} (hs : Keeps s₀ s) : KeepsSnd s₀ (storeRegisters s w a n v) :=
  KeepsSnd.foldl (KeepsSnd.pair hs.grantRegisters) fun _ _ ht => .pair ht.putRegister

theorem Keeps.aftarEnds {op : BitVec 3} {a : Addr} {inc : Bool} {sts : BitVec 3} {data : Word72} (hs : Keeps s₀ s) :
    Keeps s₀ (aftarEnds s op a inc sts data) := ⟨hs.1, hs.2⟩

theorem Keeps.aftarWord {op : BitVec 3} {a : Addr} {d : Word72} {inc : Bool} (hs : Keeps s₀ s) :
    Keeps s₀ (aftarWord s op a d inc) := by
  obtain ⟨load, hload⟩ : ∃ f, f = Machine.loadRegisters := ⟨_, Eq.refl _⟩
  obtain ⟨store, hstore⟩ : ∃ f, f = Machine.storeRegisters := ⟨_, Eq.refl _⟩
  obtain ⟨enter, henter⟩ : ∃ f, f = Machine.admitted := ⟨_, Eq.refl _⟩
  have hl (w b a n) : KeepsSnd s₀ (load s w b a n) := hload ▸ hs.loadRegisters
  have hw (w a n v) : KeepsSnd s₀ (store s w a n v) := hstore ▸ hs.storeRegisters
  have ha (w a n k) : KeepsSnd s₀ (enter s w a n k) := henter ▸ hs.admitted
  generalize hf : Machine.aftarWord = f
  delta Machine.aftarWord at hf
  rw [← hload, ← hstore, ← henter] at hf
  subst hf
  dsimp only
  refine .ite hs.aftarEnds (.ite hs.aftarEnds (.ite hs.aftarEnds (.ite hs.countFailure.aftarEnds (.ite (.ite ?_ ?_) ?_))))
  · exact (hw ..).aftarEnds
  · exact (hl ..).aftarEnds
  · split
    · exact hs.frame
    next e => exact ((ha ..).of_pair e).countFailure.aftarEnds
    next e => exact .ite ((ha ..).of_pair e).putWord.aftarEnds ((ha ..).of_pair e).accessWord.aftarEnds

theorem Keeps.aftarRegister {op : BitVec 3} {a : Addr} {v : Reg24} {inc : Bool} (hs : Keeps s₀ s) :
    Keeps s₀ (aftarRegister s op a v inc) :=
  .ite hs.aftarEnds (.ite hs.aftarEnds (.ite hs.aftarEnds (.ite hs.grantRegisters.putRegister.aftarEnds (Keeps.ite
    hs.grantRegisters.clearRead hs.grantRegisters).aftarEnds)))

theorem Keeps.aftarAccess {op : BitVec 3} {a : Addr} {d : Word72} {inc : Bool} (hs : Keeps s₀ s) : Keeps s₀ (aftarAccess s op a d inc) :=
  .ite hs (.ite hs.underAftar (.ite hs.underAftar.aftarWord (.ite hs.underAftar.aftarRegister hs.underAftar.aftarEnds)))

theorem Keeps.aftarComplete (hs : Keeps s₀ s) : Keeps s₀ (aftarComplete s) := by
  unfold Machine.aftarComplete
  split
  · exact hs
  · exact hs.frame.aftarWord

theorem Keeps.hostWrite {f i : Nat} {v : Reg24} (hs : Keeps s₀ s) : Keeps s₀ (hostWrite s f i v) := by
  unfold Machine.hostWrite
  refine .ite hs (.ite hs.failRequest ?_)
  refine .ite ?_ (.ite hs.failRequest hs.putRegister)
  split
  · exact hs
  · exact .ite hs hs.postReject

theorem Keeps.bar0Write {f i dw : Nat} {be : BitVec 4} {v : BitVec 32} (hs : Keeps s₀ s) : Keeps s₀ (bar0Write s f i dw be v) :=
  .ite hs (.ite hs.failRequest hs.hostWrite)

theorem Keeps.readBar0 {f off n : Nat} (hs : Keeps s₀ s) : Keeps s₀ (readBar0 s f off n) := .ite hs (.ite hs.failRequest hs.answer)

theorem Keeps.applyTlp {f : Nat} {a0 : HostTlp} (hs : Keeps s₀ s) : KeepsSnd s₀ (applyTlp s f a0) := by
  unfold Machine.applyTlp
  split
  · exact hs.bar0Write
  · exact hs.barWrite
  · exact .ite (.pair hs) (.pair hs.barRead)
  · exact hs.readBar0
  · exact hs.readMsix
  · exact hs.writeMsixTable
  · exact hs.unmaskVector
  · exact hs.configure

theorem Keeps.servePort {p : Nat} {l : List (Nat × HostTlp)} (hs : Keeps s₀ s) : Keeps s₀ (servePort p s l) := by
  induction l generalizing s with
  | nil => exact hs
  | cons x l ih =>
    unfold Machine.servePort
    refine .ite (ih hs.frame) ?_
    split
    next e => exact (hs.applyTlp.of_pair e).frame
    next e => exact ih (hs.applyTlp.of_pair e)

theorem Keeps.serveHosts (hs : Keeps s₀ s) : Keeps s₀ (serveHosts s) := hs.foldl fun _ _ ht => ht.frame.servePort
theorem Keeps.hostRequest {f : Nat} {x : HostTlp} (hs : Keeps s₀ s) : Keeps s₀ (hostRequest s f x) := hs.frame.servePort

theorem Keeps.regWrite {w : Writer} {i : Nat} {v : Reg24} (hs : Keeps s₀ s) : Keeps s₀ (regWrite s w i v) := by
  unfold Machine.regWrite
  split
  · exact .ite hs.grantRegisters.putRegister hs
  · exact .ite hs.grantRegisters.putRegister hs
  · exact .ite hs.hostWrite hs.hostRequest
  · exact hs.aftarAccess
  · exact .ite hs.putRegister hs

theorem Keeps.masterRegisters {m : Master} {a : Nat} {write : Option (BitVec 6 × Word72)} (hs : Keeps s₀ s) :
    Keeps s₀ (masterRegisters s m a write) := by
  unfold Machine.masterRegisters
  dsimp only
  split
  · exact hs.refuse
  · split
    · exact hs.loadRegisters.send
    · exact .ite hs (Keeps.foldl hs.grantRegisters fun _ _ ht => .ite ht.putRegister ht)

/-! #### Boot -/

theorem Keeps.patchStore {t : Nat} {payload : List Byte} (hs : Keeps s₀ s) : Keeps s₀ (patchStore s t payload) :=
  hs.foldl fun _ _ ht => Keeps.ite ht.setMem ht

theorem Keeps.writeCopy {before : Nat} {l : List Word72} (hs : Keeps s₀ s) : Keeps s₀ (writeCopy s before l) :=
  hs.foldl fun _ _ ht => ht.storeTarget

theorem Keeps.loadPart {before : Nat} {e : Entry} {aux : Nat} {l : List Byte} (hs : Keeps s₀ s) : Keeps s₀ (loadPart s before e aux l) :=
  .ite hs.writeCopy.frame (.ite hs.writeCopy.frame.patchStore hs.writeCopy)

theorem Keeps.loadParts {before : Nat} {l : List (Entry × Nat × List Byte)} (hs : Keeps s₀ s) : Keeps s₀ (loadParts s before l) := by
  induction l generalizing s before with
  | nil => exact hs
  | cons x l ih => exact ih hs.loadPart

theorem Keeps.bootPut {r : Rg} {v : Reg24} (hs : Keeps s₀ s) : Keeps s₀ (bootPut s r v) := hs.putRegister

theorem Keeps.applyRecord {a0 : OdRecord} (hs : Keeps s₀ s) : Keeps s₀ (applyRecord s a0) := by
  unfold Machine.applyRecord
  split
  · exact hs.putRegister
  · refine .ite hs ?_
    split
    · exact hs.frame
    · exact hs

theorem Keeps.layoutDefaults {l : List OdRecord} (hs : Keeps s₀ s) : Keeps s₀ (layoutDefaults s l) := by
  unfold Machine.layoutDefaults
  dsimp only
  refine .ite ?_ ?_
  · refine Keeps.foldl hs ?_
    intro _ _ ht
    split
    · exact ht.applyRecord
    · exact ht
  · refine Keeps.layoutRegs ?_
    refine Keeps.frame ?_
    refine Keeps.foldl hs ?_
    intro _ _ ht
    split
    · exact ht.applyRecord
    · exact ht

theorem Keeps.applyDefaults {l : List OdRecord} (hs : Keeps s₀ s) : Keeps s₀ (applyDefaults s l) :=
  (Keeps.foldl hs.bootPut fun _ _ ht => ht.applyRecord).frame

theorem Keeps.writeRecord' {a : Nat} {l : List Word72} (hs : Keeps s₀ s) : Keeps s₀ (writeRecord' s a l) := hs.scatterPieces
theorem Keeps.giveTask {c : Nat} {w : Word72} (hs : Keeps s₀ s) : Keeps s₀ (giveTask s c w) := .ite hs hs.bootPut.bootPut.bootPut.setCore
theorem Keeps.startTask {c : Nat} {w : Word72} (hs : Keeps s₀ s) : Keeps s₀ (startTask s c w) := .ite hs hs.assertLine
theorem Keeps.trainChannel {n : Nat} {trained : Bool} (hs : Keeps s₀ s) : Keeps s₀ (trainChannel s n trained) := hs.wrB

theorem Keeps.trainChannels {trained : BitVec 128} (hs : Keeps s₀ s) : Keeps s₀ (trainChannels s trained) :=
  hs.foldl fun _ _ ht => ht.trainChannel

theorem Keeps.buildStore (hs : Keeps s₀ s) : Keeps s₀ (buildStore s) :=
  Keeps.foldl (Keeps.foldl hs.frame.zeroWords fun _ _ ht => ht.bumpF) fun _ _ ht => ht.setFrame

theorem Keeps.logUntrained (hs : Keeps s₀ s) : Keeps s₀ (logUntrained s) := hs.foldl fun _ _ ht => ht.log
theorem Keeps.writeOwners (hs : Keeps s₀ s) : Keeps s₀ (writeOwners s) := hs.foldl fun _ _ ht => ht.wrF.setFlag
theorem Keeps.requestCisterns (hs : Keeps s₀ s) : Keeps s₀ (requestCisterns s) := hs.foldl fun _ _ ht => Keeps.ite ht ht.requestPower

theorem Keeps.bootFrom {trained : BitVec 128} {b fellBack : Bool} {m : Image} (hs : Keeps s₀ s) :
    Keeps s₀ (bootFrom s trained b fellBack m) := by
  unfold Machine.bootFrom
  dsimp only
  refine Keeps.reconsider ?_
  refine Keeps.report ?_
  refine Keeps.setMode ?_
  refine Keeps.requestCisterns ?_
  refine Keeps.foldl ?_ fun _ _ ht => ht.stepEnds
  split
  · exact Keeps.foldl (Keeps.foldl (Keeps.foldl
    hs.frame.wrB.wrB.layoutDefaults.trainChannels.buildStore.logUntrained.writeOwners.loadParts.applyDefaults fun _ _ ht =>
    ht.writeRecord') fun _ _ ht => ht.giveTask) fun _ _ ht => ht.startTask
  · exact hs.frame.wrB.wrB.layoutDefaults.trainChannels.buildStore.logUntrained.writeOwners.loadParts.applyDefaults

theorem Keeps.enterRecovery (hs : Keeps s₀ s) : Keeps s₀ (enterRecovery s) := by
  unfold Machine.enterRecovery
  exact hs.zeroWords.frame.wrB.wrB.wrF.wrF.wrF.setMode.report.reconsider

theorem Keeps.bootComplete {trained : BitVec 128} (hs : Keeps s₀ s) : Keeps s₀ (bootComplete s trained) := by
  unfold Machine.bootComplete
  refine .ite hs (.ite hs.enterRecovery ?_)
  dsimp only
  split
  · exact hs.bootFrom
  · split
    · exact hs.bootFrom
    · exact hs.enterRecovery

theorem Keeps.recoveryExit {recoveryN : Bool} (hs : Keeps s₀ s) : Keeps s₀ (recoveryExit s recoveryN) :=
  .ite hs.frame.drawNat.beginStart hs.frame

theorem Keeps.lastFrames (hs : Keeps s₀ s) : Keeps s₀ (lastFrames s) := .ite hs.pauseDogs.lanesLeave.flushSafe hs.pauseDogs
theorem Keeps.goDown (hs : Keeps s₀ s) : Keeps s₀ (goDown s) := hs.enterStandby.frame
theorem Keeps.shutDown (hs : Keeps s₀ s) : Keeps s₀ (shutDown s) := hs.lastFrames.goDown

theorem Keeps.auxLoss (hs : Keeps s₀ s) : Keeps s₀ (auxLoss s) :=
  ⟨hs.1, fun _ => Laws.reset_wf⟩

theorem Keeps.auxValid {level : BitVec 12} (hs : Keeps s₀ s) : Keeps s₀ (auxValid s level) :=
  .ite hs hs.frame.applyStored.wrF.report.tryStart

theorem Keeps.samplePins {recoveryN split : Bool} (hs : Keeps s₀ s) : Keeps s₀ (samplePins s recoveryN split) := ⟨hs.1, hs.2⟩

theorem Keeps.supplyLevel {main : Bool} {level : BitVec 12} (hs : Keeps s₀ s) : Keeps s₀ (supplyLevel s main level) :=
  .ite (Keeps.ite hs.drawBits.samplePins hs).frame.wrF.report.tryStart (.ite (Keeps.ite hs.drawBits.samplePins hs).frame.wrF hs)

theorem Keeps.mainValid {level : BitVec 12} {recoveryN split : Bool} (hs : Keeps s₀ s) : Keeps s₀ (mainValid s level recoveryN split) :=
  .ite hs (.ite hs.supplyLevel (.ite hs.frame.samplePins.wrF.report.tryStart hs.frame.samplePins.wrF))

theorem Keeps.mainLoss (hs : Keeps s₀ s) : Keeps s₀ (mainLoss s) :=
  .ite hs (.ite hs.drawBits.frame.wrF.shutDown.report hs.drawBits.frame.wrF)

theorem Keeps.lidLevel {t : BitVec 12} (hs : Keeps s₀ s) : Keeps s₀ (lidLevel s t) := .ite hs.frame.wrF.report hs.frame.wrF
theorem Keeps.hotReading (hs : Keeps s₀ s) : KeepsSnd s₀ (hotReading s) := .ite (.pair hs) (.pair hs.drawNat)
theorem Keeps.tooHot (hs : Keeps s₀ s) : Keeps s₀ (tooHot s) := .ite hs.hotReading.lidLevel.frame.shutDown hs.hotReading.lidLevel
theorem Keeps.coolAgain {t : BitVec 12} (hs : Keeps s₀ s) : Keeps s₀ (coolAgain s t) := .ite hs.lidLevel hs.lidLevel.frame.tryStart
theorem Keeps.resetLow (hs : Keeps s₀ s) : Keeps s₀ (resetLow s) := .ite hs.lastFrames.frame.goDown hs.frame
theorem Keeps.resetHigh (hs : Keeps s₀ s) : Keeps s₀ (resetHigh s) := hs.frame.tryStart

theorem Keeps.clockCheck {stopped unlocked : Bool} (hs : Keeps s₀ s) : Keeps s₀ (clockCheck s stopped unlocked) :=
  .ite hs.frame.shutDown hs.frame

theorem Keeps.clockRecovery (hs : Keeps s₀ s) : Keeps s₀ (clockRecovery s) := hs.frame.tryStart

/-! #### Operands of the cores -/

theorem Keeps.setPair {c d : Nat} {v : BitVec 96} (hs : Keeps s₀ s) : Keeps s₀ (setPair s c d v) := hs.setG.setG
theorem Keeps.orStw {c : Nat} {fl : FFlags} {sat : Bool} (hs : Keeps s₀ s) : Keeps s₀ (orStw s c fl sat) := hs.setStw
theorem Keeps.setFOut {c d : Nat} {p : Bool} {o : Out} (hs : Keeps s₀ s) : Keeps s₀ (setFOut s c d p o) := hs.orStw.setFr

theorem Keeps.coreLoad {c : Core} {a n : Nat} (hs : Keeps s₀ s) : KeepsGot s₀ (coreLoad s c a n) := by
  obtain ⟨load, hload⟩ : ∃ f, f = Machine.loadRegisters := ⟨_, Eq.refl _⟩
  have hkeeps (w b a n) : KeepsSnd s₀ (load s w b a n) := hload ▸ hs.loadRegisters
  generalize hf : Machine.coreLoad = f
  delta Machine.coreLoad at hf
  rw [← hload] at hf
  subst hf
  refine .ite trivial (.ite ?_ hs.loadPlies)
  split
  next e => exact (hkeeps ..).of_pair e

theorem Keeps.coreStore {c : Core} {a n v : Nat} (hs : Keeps s₀ s) : KeepsGot s₀ (coreStore s c a n v) :=
  .ite trivial (.ite (.ite hs hs.storeRegisters) hs.storePliesAt)

theorem Keeps.loadAligned {c : Core} {a n : Nat} (hs : Keeps s₀ s) : KeepsGot s₀ (loadAligned s c a n) := .ite hs.coreLoad hs
theorem Keeps.storeAligned {c : Core} {a n v : Nat} (hs : Keeps s₀ s) : KeepsGot s₀ (storeAligned s c a n v) := .ite hs.coreStore hs

theorem Keeps.checkShadow {c a : Nat} {k : Kind} (hs : Keeps s₀ s) : KeepsSnd s₀ (checkShadow s c a k) := by
  unfold Machine.checkShadow
  dsimp only
  refine .ite (.pair hs) ?_
  split
  next e => exact hs.admitted.of_pair e
  · exact hs.admitted

theorem Keeps.checkReturn {c a : Nat} {k : Kind} (hs : Keeps s₀ s) : KeepsSnd s₀ (checkReturn s c a k) := .ite (.pair hs) hs.admitted

/-- A fault of either of the two return words of RSP and SSP. -/
theorem Keeps.pairFault {ra sa : Nat} {r h : Verdict} {wr : BitVec 32} {g : Got Unit} (hs : Keeps s₀ s)
    (hg : pairFault s ra sa r h wr = some g) : KeepsGot s₀ g := by
  unfold Machine.pairFault at hg
  split at hg
  · cases hg
    trivial
  · split at hg
    · cases hg
      exact hs.countFailure
    · cases hg

theorem Keeps.pushReturn {c : Core} {v : Addr} (hs : Keeps s₀ s) : KeepsGot s₀ (pushReturn s c v) := by
  unfold Machine.pushReturn
  dsimp only
  refine .ite hs (.ite hs (.ite trivial ?_))
  have hh := ((hs.checkReturn (c := c) (a := ((ctxOf s c).rsp - 6).toNat) (k := .write)).checkShadow (c := c)
    (a := ((ctxOf s c).ssp - 6).toNat) (k := .write))
  split
  next e => exact hh.pairFault e
  · exact .ite (Keeps.countFailure (.ite hh.putWord hh)) hh.putWord.putWord.setCtx

theorem Keeps.popReturn {c : Core} (hs : Keeps s₀ s) : KeepsGot s₀ (popReturn s c) := by
  unfold Machine.popReturn
  dsimp only
  refine .ite hs (.ite hs (.ite trivial ?_))
  have hh := ((hs.checkReturn (c := c) (a := (ctxOf s c).rsp.toNat) (k := .read)).checkShadow (c := c)
    (a := (ctxOf s c).ssp.toNat) (k := .read))
  split
  · trivial
  next e => exact hh.pairFault e
  · trivial
  · have hq := (hh.accessWord (w := coreWho s c) (a := (ctxOf s c).rsp.toNat)).accessWord (w := coreWho s c) (a := (ctxOf s c).ssp.toNat)
    exact .ite hh.countFailure (.ite hq.poisonUsed (.ite hq.poisonUsed (.ite hq hq.setCtx)))

/-! #### One instruction of a core -/

theorem KeepsGot.gotAndDone {α : Type} {g : Got α} {f : α → State → State} (hg : KeepsGot s₀ g) (hf : ∀ a t1, Keeps s₀ t1 → Keeps s₀ (f a
    t1)) : KeepsRes s₀ (g.andDone f) := by
  unfold Machine.Got.andDone
  split
  · exact hf _ _ hg
  · exact hg
  · trivial

theorem Keeps.fetchIns {c : Nat} (hs : Keeps s₀ s) : KeepsGot s₀ (fetchIns s c) := .ite trivial hs.fetchAt
theorem Keeps.endStep {c : Nat} (hs : Keeps s₀ s) : Keeps s₀ (endStep s c) := .ite hs.stepEnds hs
theorem Keeps.passShadow {c : Nat} (hs : Keeps s₀ s) : Keeps s₀ (passShadow s c) := hs.setCore

theorem Keeps.retire {c : Nat} (hs : Keeps s₀ s) : Keeps s₀ (retire s c) := by
  unfold Machine.retire
  dsimp only
  split
  · exact hs.setCore.setPc.passShadow
  · exact hs.setCore.setPc.passShadow

theorem Keeps.takeBranch {c : Nat} {target : Option Addr} (hs : Keeps s₀ s) : Keeps s₀ (takeBranch s c target) :=
  .ite hs.setCore.setPc.passShadow hs.setPc.passShadow

theorem Keeps.switchCore {c : Nat} (hs : Keeps s₀ s) : Keeps s₀ (switchCore s c) :=
  .ite (.ite hs.capstanSwitch.haltCore hs.capstanSwitch.stepEnds) hs.capstanSwitch

theorem Keeps.trapTo {old : State} {c : Nat} {e : Exc} (hs : Keeps s₀ s) (hold : Keeps s₀ old) : Keeps s₀ (trapTo old s c e) := by
  unfold Machine.trapTo
  refine .ite hold.switchCore ?_
  split
  next e1 => exact (hs.raise.of_some e1).stepEnds
  · exact hold

theorem Keeps.slotInterrupt {k : Nat} (hs : Keeps s₀ s) : KeepsRes s₀ (slotInterrupt s k) := by
  unfold Machine.slotInterrupt
  split
  next e => exact (hs.takeIrq.of_some e).stepEnds
  · trivial

theorem Keeps.effect {c : Nat} {i : InsInfo} {body : State → Res} (hs : Keeps s₀ s) (hbody : ∀ t, Keeps s₀ t → KeepsRes s₀ (body t)) :
    KeepsRes s₀ (effect s c i body) := by
  unfold Machine.effect
  refine .ite ?_ (hbody _ hs)
  split
  · exact hs.slotInterrupt
  · split
    next e1 => exact hbody _ (hs.lazyFill.of_ok e1)
    · trivial
    next e1 =>
      split
      next e2 => exact .ite ((hbody _ hs).of_trap e2) (hs.lazyFill.of_fault e1)
      · exact hs.lazyFill.of_fault e1

theorem Keeps.finish {c : Nat} {a0 : Res} (hs : Keeps s₀ s) (ha0 : KeepsRes s₀ a0) : Keeps s₀ (finish s c a0) := by
  unfold Machine.finish
  split
  · exact ha0.retire.endStep
  · exact ha0.takeBranch.endStep
  · exact ha0.passShadow.endStep
  · exact ha0.trapTo hs
  · exact hs
  · exact ha0

theorem Keeps.decoded {old : State} {c : Nat} {i : InsInfo} {body : State → Res} (hs : Keeps s₀ s) (hold : Keeps s₀ old) (hbody : ∀ t,
    Keeps s₀ t → KeepsRes s₀ (body t)) : Keeps s₀ (decoded old s c i body) :=
  .ite (hs.trapTo hold) (.ite (hs.trapTo hold) (.ite (hs.trapTo hold) (hold.finish (hs.effect fun _ ht => hbody _ ht))))

theorem Keeps.runCore {c : Core} {i : InsInfo} {body : State → Res} (hs : Keeps s₀ s)
    (hreads : ∀ t, Keeps s₀ t → Keeps s₀ (i.reads t)) (hbody : ∀ t, Keeps s₀ t → KeepsRes s₀ (body t)) :
    Keeps s₀ (runCore c i body s) := by
  unfold Machine.runCore
  refine .ite hs ?_
  split
  · exact hs
  next e => exact (hs.fetchIns.of_fault e).trapTo hs
  next e => exact (hreads _ (hs.fetchIns.of_ok e)).decoded hs hbody

theorem KeepsOut.runIns {c : Core} {i : InsInfo} {body : State → Res} (hs : Keeps s₀ s)
    (hreads : ∀ t, Keeps s₀ t → Keeps s₀ (i.reads t)) (hbody : ∀ t, Keeps s₀ t → KeepsRes s₀ (body t)) :
    KeepsOut s₀ (runIns c i body s) := .next (hs.runCore hreads hbody)

theorem Keeps.microcoded {c : Nat} {body : State → Res} (hs : Keeps s₀ s) (hbody : ∀ t, Keeps s₀ t → KeepsRes s₀ (body t)) :
    KeepsRes s₀ (microcoded c s body) := by
  unfold Machine.microcoded
  split
  next e => exact hbody _ ((Keeps.reachWords (fun _ _ ht => ht.drawBool) hs).of_pair e)
  next e => exact ((Keeps.reachWords (fun _ _ ht => ht.drawBool) hs).of_pair e).drawBits.drawBits.poisonUsed

theorem KeepsOut.live {t : State} (hs : Keeps s₀ s) (ht : Keeps s₀ t) : KeepsOut s₀ (live s t) := .next (.ite ht hs)

/-! #### Block-repeat instructions -/

theorem Keeps.moveG {c : Core} {a : Reg} {by' : W48} (hs : Keeps s₀ s) : Keeps s₀ (moveG s c a by') := hs.setG

theorem KeepsGot.twoAccesses {α β : Type} {x : Got α} {y : State → Got β} {f : α → β → State → Elem} (hx : KeepsGot s₀ x) (hy : ∀ t, Keeps
    s₀ t → KeepsGot s₀ (y t)) (hf : ∀ a a1 t2, Keeps s₀ t2 → KeepsElem s₀ (f a a1 t2)) : KeepsElem s₀ (twoAccesses x y f) := by
  unfold Machine.twoAccesses
  split
  · trivial
  · split
    next e => exact .ite ((hy _ hx).of_fault e) hx
    · exact hx
  · split
    · trivial
    next e => exact (hy _ hx).of_fault e
    next e => exact hf _ _ _ ((hy _ hx).of_ok e)

theorem Keeps.blockLoop {c : Core} {e : Reg} {elem : State → Elem} {finish : Bool → State → State} {n : Nat} (hs : Keeps s₀ s)
    (helem : ∀ t, Keeps s₀ t → KeepsElem s₀ (elem t)) (hfinish : ∀ b t, Keeps s₀ t → Keeps s₀ (finish b t)) :
    KeepsRes s₀ (blockLoop c e elem finish n s) := by
  induction n generalizing s with
  | zero => exact hs
  | succ k ih =>
    unfold Machine.blockLoop
    dsimp only
    refine .ite (hfinish _ _ hs) (.ite hs ?_)
    split
    · exact hs
    next h => exact (helem s hs).of_trap h
    next h => exact hfinish _ _ ((helem s hs).of_found h)
    next h => exact .ite ((helem s hs).of_next h).moveG.endStep (ih ((helem s hs).of_next h).moveG)

theorem Keeps.runBlock {c : Core} {i : Instr} {e : Reg} {stop : Option Nat} {elem : State → Elem} {finish : Bool → State → State} (hs :
    Keeps s₀ s) (helem : ∀ t, Keeps s₀ t → KeepsElem s₀ (elem t)) (hfinish : ∀ a t1, Keeps s₀ t1 → Keeps s₀ (finish a t1)) :
    KeepsOut s₀ (runBlock c i e stop elem finish s) :=
  KeepsOut.runIns hs (fun _ ht => ht) fun _ ht => ht.microcoded fun _ ht1 => ht1.blockLoop (fun _ ht2 => helem _ ht2) fun _ _ ht2 =>
    hfinish _ _ ht2

theorem Keeps.execMovr {c : Core} {a b e : Reg} {sz : BitVec 2} {down : Bool} {stop : Option Nat} (hs : Keeps s₀ s) :
    KeepsOut s₀ (execMovr c a b e sz down stop s) := by
  unfold Machine.execMovr
  refine Keeps.runBlock hs ?_ fun _ _ ht => ht
  intro _ ht
  dsimp only
  split
  · exact ht
  · split
    next e2 =>
      split
      next e3 => exact ((ht.loadAligned.of_ok e2).storeAligned.of_ok e3).moveG.moveG
      next e3 => exact (ht.loadAligned.of_ok e2).storeAligned.of_fault e3
      · trivial
    · exact ht.loadAligned.twoAccesses (fun _ ht1 => ht1.storeAligned) fun _ _ _ ht1 => ht1.moveG.moveG

theorem Keeps.execFillr {c : Core} {a b e : Reg} {sz : BitVec 2} {down : Bool} {stop : Option Nat} (hs : Keeps s₀ s) :
    KeepsOut s₀ (execFillr c a b e sz down stop s) := by
  unfold Machine.execFillr
  refine Keeps.runBlock hs ?_ fun _ _ ht => ht
  intro _ ht
  dsimp only
  split
  next e1 => exact (ht.storeAligned.of_ok e1).moveG
  next e1 => exact ht.storeAligned.of_fault e1
  · trivial

theorem Keeps.execCmpr {c : Core} {d a b e : Reg} {sz : BitVec 2} {down : Bool} {stop : Option Nat} (hs : Keeps s₀ s) :
    KeepsOut s₀ (execCmpr c d a b e sz down stop s) := by
  unfold Machine.execCmpr
  refine Keeps.runBlock hs ?_ fun _ _ ht => ht.setG
  intro _ ht
  dsimp only
  split
  · exact ht
  · exact ht.loadAligned.twoAccesses (fun _ ht1 => ht1.loadAligned) fun _ _ _ ht1 => KeepsElem.ite ht1.moveG.moveG ht1

theorem Keeps.execScanr {c : Core} {d a b e : Reg} {sz : BitVec 2} {down ne : Bool} {stop : Option Nat} (hs : Keeps s₀ s) :
    KeepsOut s₀ (execScanr c d a b e sz down ne stop s) := by
  unfold Machine.execScanr
  refine Keeps.runBlock hs ?_ fun _ _ ht => ht.setG
  intro _ ht
  dsimp only
  split
  next e1 => exact KeepsElem.ite (ht.loadAligned.of_ok e1) (ht.loadAligned.of_ok e1).moveG
  next e1 => exact ht.loadAligned.of_fault e1
  · trivial

/-! #### Decimal instructions -/

theorem Keeps.putK48 {c : Core} {d : Reg} {i : ℤ} (hs : Keeps s₀ s) : KeepsRes s₀ (putK48 s c d i) := .ite hs hs.setG

theorem Keeps.runK48 {c : Core} {i : Instr} {d a b : Reg} {f : ℤ → ℤ → ℤ} (hs : Keeps s₀ s) : KeepsOut s₀ (runK48 c i d a b f s) := by
  unfold Machine.runK48
  refine KeepsOut.runIns hs (fun _ ht => ht) ?_
  intro _ ht
  refine Keeps.microcoded ht ?_
  intro _ ht1
  dsimp only
  split
  · exact ht1
  · exact ht1.putK48

theorem Keeps.execDtob {c : Core} {d a : Reg} (hs : Keeps s₀ s) : KeepsOut s₀ (execDtob c d a s) := by
  unfold Machine.execDtob
  refine KeepsOut.runIns hs (fun _ ht => ht) ?_
  intro _ ht
  refine Keeps.microcoded ht ?_
  intro _ ht1
  split
  · exact ht1
  · exact ht1.setG

/-! #### Floating-point instructions -/

theorem Keeps.runFloat {c : Core} {i : Instr} {cost : Nat} {op : ElemOp} {d a b e : Reg} {p : Bool} {rms : BitVec 3} (hs : Keeps s₀ s) :
    KeepsOut s₀ (runFloat c i cost op d a b e p rms s) := KeepsOut.runIns hs (fun _ ht => ht) fun _ ht => ht.setFOut

/-! #### System instructions -/

theorem KeepsGot.gotOrGate {α : Type} {g : Got α} {f : α → State → Res} (hg : KeepsGot s₀ g) (hf : ∀ a t1, Keeps s₀ t1 → KeepsRes s₀ (f a
    t1)) : KeepsRes s₀ (g.orGate f) := by
  unfold Machine.Got.orGate
  split
  · exact hf _ _ hg
  · exact hg
  · trivial

theorem Keeps.gateCall {c : Core} {g : W48} (hs : Keeps s₀ s) : KeepsRes s₀ (gateCall s c g) :=
  .ite hs (hs.loadWords.gotOrGate fun _ _ ht => KeepsRes.ite ht (KeepsRes.ite ht (KeepsRes.ite ht (ht.storeWords.gotOrGate fun _ _ ht1 =>
    ht1.setCtx.setCore.showBelay))))

theorem Keeps.gateReturn {c : Core} (hs : Keeps s₀ s) : KeepsRes s₀ (gateReturn s c) := by
  unfold Machine.gateReturn
  dsimp only
  refine .ite hs ?_
  split
  · trivial
  next e => exact hs.loadWords.of_fault e
  next e =>
    refine .ite (hs.loadWords.of_ok e) ?_
    split
    · trivial
    next e1 => exact (hs.loadWords.of_ok e).lazyReload.of_fault e1
    next e1 => exact ((hs.loadWords.of_ok e).lazyReload.of_ok e1).setCtx.discardFetched.setCore.showBelay

theorem Keeps.execEret {c : Core} (hs : Keeps s₀ s) : KeepsOut s₀ (execEret c s) := by
  unfold Machine.execEret
  refine KeepsOut.runIns hs (fun _ ht => ht) ?_
  intro _ ht
  split
  next e => exact ht.returnFrom.of_ok e
  next e => exact ht.returnFrom.of_fault e
  · trivial

theorem Keeps.execMfbw {c : Core} {d a : Reg} (hs : Keeps s₀ s) : KeepsOut s₀ (execMfbw c d a s) := by
  unfold Machine.execMfbw
  refine KeepsOut.runIns hs (fun _ ht => ht) ?_
  intro _ ht
  dsimp only
  split
  · exact ht.setG
  · exact ht

theorem Keeps.bankWrite {c b n j : Nat} {v : W48} (hs : Keeps s₀ s) : Keeps s₀ (bankWrite s c b n j v) := hs.setCtxAt

/-! #### Commands of the blocks -/

theorem Keeps.putReg {w : Writer} {r : Rg} {v : Reg24} (hs : Keeps s₀ s) : KeepsOut s₀ (putReg w r v s) := KeepsOut.live hs hs.regWrite

theorem Keeps.takeInterrupt (hs : Keeps s₀ s) : Keeps s₀ (takeInterrupt s) := by
  unfold Machine.takeInterrupt
  refine .ite hs (.ite hs ?_)
  split
  · exact hs
  · dsimp only
    split
    next e1 => exact (hs.discardChain.setCore.takeIrq.of_some e1).stepEnds
    · exact hs

theorem Keeps.enableEnds {ok : Bool} (hs : Keeps s₀ s) : Keeps s₀ (enableEnds s ok) := .ite hs.enableComplete.haltCore hs.enableComplete

theorem Keeps.rollbackEnds {ok : Bool} (hs : Keeps s₀ s) : Keeps s₀ (rollbackEnds s ok) :=
  .ite hs.rollbackComplete.stepEnds hs.rollbackComplete

theorem Keeps.settleOne {q : Request} (hs : Keeps s₀ s) : Keeps s₀ (settleOne s q) := by
  unfold Machine.settleOne
  split
  · split
    · exact hs.endSplice
    · exact hs
  · exact .ite (hs.trapTo hs) hs
  · exact hs

theorem Keeps.settleRefused (hs : Keeps s₀ s) : Keeps s₀ (settleRefused s) := Keeps.foldl hs.frame fun _ _ ht => ht.settleOne
theorem Keeps.settled (hs : Keeps s₀ s) : Keeps s₀ (settled s) := hs.settleRefused.serveHosts

theorem Keeps.halfFault {m : Master} {a : Nat} {write : Option (BitVec 6 × Word72)} (hs : Keeps s₀ s) :
    Keeps s₀ (halfFault s m a write) := by
  unfold Machine.halfFault
  split
  · exact .ite (hs.trapTo hs) hs
  · exact hs

theorem Keeps.masterRequest {m : Master} {a : Nat} {write : Option (BitVec 6 × Word72)} (hs : Keeps s₀ s) :
    Keeps s₀ (masterRequest s m a write) :=
  .ite hs (.ite (.ite hs.masterRegisters.settleRefused hs.masterRegisters.settleRefused.halfFault) hs.request.settleRefused)

theorem Keeps.scrubStep {u : Nat} (hs : Keeps s₀ s) : Keeps s₀ (scrubStep s u) :=
  .ite hs (.ite hs.scrubWord.scrubAdvance.lockLifeline hs.scrubWord.scrubAdvance)

theorem Keeps.flushLog (hs : Keeps s₀ s) : Keeps s₀ (flushLog s) := ⟨hs.1, hs.2⟩

theorem Keeps.repairStore {scalar : Bool} {k : Nat} (hs : Keeps s₀ s) : Keeps s₀ (repairStore s scalar k) := by
  unfold Machine.repairStore
  refine .ite ?_ hs
  split
  · exact hs.repair
  · exact hs.repair
  · exact hs

theorem Keeps.powerEnds {n : Nat} (hs : Keeps s₀ s) : Keeps s₀ (powerEnds s n) := .ite hs.completePower.retainCisterns hs.completePower

theorem Keeps.meetWord {c : Core} {w : W48} (hs : Keeps s₀ s) : Keeps s₀ (meetWord c w s) :=
  .ite hs (hs.runCore (fun _ ht => ht) fun _ _ => trivial)

theorem Keeps.execExceptionEntry {c : Core} {r : Raised} (hs : Keeps s₀ s) : KeepsOut s₀ (execExceptionEntry c r s) := by
  unfold Machine.execExceptionEntry
  refine KeepsOut.live hs ?_
  split
  · exact Keeps.ite (hs.trapTo hs) hs
  · exact hs.meetWord

/-! #### Scalar instructions -/

theorem Keeps.runAlu {c : Core} {i : Instr} {cost : Option Nat} {d : Reg} {f : State → W48} (hs : Keeps s₀ s) :
    KeepsOut s₀ (runAlu c i cost d f s) := KeepsOut.runIns hs (fun _ ht => ht) fun _ ht => ht.setG

theorem Keeps.runDiv {c : Core} {i : Instr} {d : Reg} {f : State → Out} (hs : Keeps s₀ s) : KeepsOut s₀ (runDiv c i d f s) :=
  KeepsOut.runIns hs (fun _ ht => ht) fun _ ht => ht.orStw.setG

theorem Keeps.runLoad {c : Core} {i : Instr} {fills : Bool} {a : Reg} {imm : BitVec 20} {n : Nat} {put : State → Nat → State} (hs : Keeps
    s₀ s) (hput : ∀ t a1, Keeps s₀ t → Keeps s₀ (put t a1)) : KeepsOut s₀ (runLoad c i fills a imm n put s) :=
  KeepsOut.runIns hs (fun _ ht => ht) fun _ ht => ht.loadAligned.gotAndDone fun _ _ ht1 => hput _ _ ht1

theorem Keeps.runStore {c : Core} {i : Instr} {fills : Bool} {a : Reg} {imm : BitVec 20} {n : Nat} {get : State → Nat} (hs : Keeps s₀ s) :
    KeepsOut s₀ (runStore c i fills a imm n get s) :=
  KeepsOut.runIns hs (fun _ ht => ht) fun _ ht => ht.storeAligned.gotAndDone fun _ _ ht1 => ht1

theorem Keeps.upsetLine {c : Nat} {u : Option LineUpset} (hs : Keeps s₀ s) : Keeps s₀ (upsetLine s c u) := by
  unfold Machine.upsetLine
  split
  · exact hs
  · exact hs.frame

theorem Keeps.runBranch {c : Core} {i : Instr} {f : State → Option Addr} (hs : Keeps s₀ s) : KeepsOut s₀ (runBranch c i f s) :=
  KeepsOut.runIns hs (fun _ ht => ht) fun _ ht => ht

theorem Keeps.callTo {c : Core} {v : Addr} (hs : Keeps s₀ s) : KeepsRes s₀ (callTo s c v) := by
  unfold Machine.callTo
  split
  next e => exact hs.pushReturn.of_ok e
  next e => exact hs.pushReturn.of_fault e
  · trivial

theorem Keeps.execRet {c : Core} (hs : Keeps s₀ s) : KeepsOut s₀ (execRet c s) := by
  unfold Machine.execRet
  refine KeepsOut.runIns hs (fun _ ht => ht) ?_
  intro _ ht
  split
  next e => exact ht.popReturn.of_ok e
  next e => exact ht.popReturn.of_fault e
  · trivial

/-! #### Vector instructions -/

theorem Keeps.extendChain {c : Core} {x : SIns} (hs : Keeps s₀ s) : KeepsRes s₀ (extendChain s c x) := .ite hs hs.setCore.setCtx

theorem Keeps.closeChain {c : Core} {x : SIns} (hs : Keeps s₀ s) : KeepsRes s₀ (closeChain s c x) :=
  .ite hs (.ite hs.setCore hs.issueSplice.setCore)

theorem Keeps.streamStep {c : Core} {x : SIns} (hs : Keeps s₀ s) : KeepsRes s₀ (streamStep s c x) :=
  .ite hs (.ite hs.extendChain hs.closeChain)

theorem Keeps.entryReads {c : Core} {x : SIns} (hs : Keeps s₀ s) : Keeps s₀ (entryReads c x s) := hs.readEntries

theorem Keeps.runStream {c : Core} {i : Instr} {x : SIns} (hs : Keeps s₀ s) : KeepsOut s₀ (runStream c i x s) :=
  KeepsOut.runIns hs (fun _ ht => ht.entryReads) fun _ ht => ht.streamStep

/-! #### Short vectors -/

theorem Keeps.setSReg {c : Core} {k v : Nat} (hs : Keeps s₀ s) : Keeps s₀ (setSReg s c k v) := hs.foldl fun _ _ ht => ht.setFr
theorem Keeps.setMReg {c : Core} {r : Nat} {v : BitVec 16} (hs : Keeps s₀ s) : Keeps s₀ (setMReg s c r v) := hs.setCtx

theorem Keeps.putLanes {c : Core} {f : StreamFields} {rt : BitVec 4} {out : Nat → Out} (hs : Keeps s₀ s) :
    Keeps s₀ (putLanes s c f rt out) := hs.orStw.setSReg

theorem Keeps.runShort {c : Core} {i : Instr} {f : StreamFields} {cost : Option Nat} {rt : BitVec 4} {out : State → Nat → Out} (hs : Keeps
    s₀ s) : KeepsOut s₀ (runShort c i f cost rt out s) := KeepsOut.runIns hs (fun _ ht => ht) fun _ ht => ht.putLanes

theorem Keeps.reduceLanes {c : Core} {op : RedOp} {aw : BitVec 3} {f : StreamFields} (hs : Keeps s₀ s) :
    Keeps s₀ (reduceLanes s c op aw f) := hs.orStw.setSReg

theorem Keeps.runReduce {c : Core} {i : Instr} {op : RedOp} {aw : BitVec 3} {f : StreamFields} (hs : Keeps s₀ s) :
    KeepsOut s₀ (runReduce c i op aw f s) := KeepsOut.runIns hs (fun _ ht => ht) fun _ ht => ht.reduceLanes

theorem Keeps.runConvert {c : Core} {i : Instr} {tt : BitVec 4} {zero : Bool} {f : StreamFields} (hs : Keeps s₀ s) :
    KeepsOut s₀ (runConvert c i tt zero f s) := KeepsOut.runIns hs (fun _ ht => ht) fun _ ht => ht.frame.putLanes

theorem KeepsGot.foldl {α β : Type} {f : Got α → β → Got α} {l : List β} {x : Got α} (hx : KeepsGot s₀ x)
    (hf : ∀ x a, KeepsGot s₀ x → KeepsGot s₀ (f x a)) : KeepsGot s₀ (l.foldl f x) := Laws.foldl_keeps f l hf x hx

theorem Keeps.storeRuns {c : Core} {a : Nat} {l : List (Nat × Nat × Nat)} (hs : Keeps s₀ s) : KeepsGot s₀ (storeRuns s c a l) := by
  unfold Machine.storeRuns
  refine .ite trivial (KeepsGot.foldl hs fun g x hg => ?_)
  split
  · exact Keeps.coreStore hg
  · exact hg

theorem Keeps.runMask {c : Core} {i : Instr} {d : MReg} {f : State → BitVec 16} (hs : Keeps s₀ s) : KeepsOut s₀ (runMask c i d f s) :=
  KeepsOut.runIns hs (fun _ ht => ht) fun _ ht => ht.setMReg

/-! #### The dispatch -/

theorem KeepsOut.exec {i : Instr} (hs : Keeps s₀ s) : KeepsOut s₀ (exec i s) := by
  cases i
  case add | sub | and | or | xor | andn | shl | shr | sar | min | minu | max | maxu | sel | clz | popc | cmpeq | cmpne | cmplt | cmpltu |
    cmple | cmpleu | addc | addco | subb | subbo | mul | addi | andi | ori | xori | shli | shri | sari | cmpeqi | cmplti | cmpltui | li |
    lih | getsp | lcrd => exact hs.runAlu
  case mulw | mulwu => exact KeepsOut.runIns hs (fun _ ht => ht) fun _ ht => ht.setPair
  case div | divu | rem | remu => exact hs.runDiv
  case ldp | ldps | ldd | ldds => exact hs.runLoad fun _ _ ht => ht.setG
  case ldq => exact (Keeps.ite hs.upsetLine hs).runLoad fun _ _ ht => ht.setG
  case ldwp => exact hs.runLoad fun _ _ ht => ht.setPair
  case ldf24 | ldf48 => exact hs.runLoad fun _ _ ht => ht.setFr
  case stp | std | stq | stwp | stf24 | stf48 => exact hs.runStore
  case ldl => exact KeepsOut.runIns hs (fun _ ht => ht) fun _ ht => KeepsRes.ite ht (KeepsRes.ite ht.countFailure (ht.coreLoad.gotAndDone
    fun _ _ ht1 => ht1.setCore.setG))
  case stc => exact KeepsOut.runIns hs (fun _ ht => ht) fun _ ht => KeepsRes.ite ht (KeepsRes.ite ht.countFailure (KeepsRes.ite trivial
    (KeepsRes.ite (ht.coreStore.gotAndDone fun _ _ ht1 => ht1.setCore.setG) ht.setCore.setG)))
  case push => exact KeepsOut.runIns hs (fun _ ht => ht) fun _ ht => ht.storeAligned.gotAndDone fun _ _ ht1 => ht1.setCtx
  case pop => exact KeepsOut.runIns hs (fun _ ht => ht) fun _ ht => ht.loadAligned.gotAndDone fun _ _ ht1 => ht1.setCtx.setG
  case setsp => exact KeepsOut.runIns hs (fun _ ht => ht) fun _ ht => KeepsRes.ite ht ht.setCtx
  case bz | bnz | jmp => exact hs.runBranch
  case jr => exact KeepsOut.runIns hs (fun _ ht => ht) fun _ ht => KeepsRes.ite ht ht
  case call => exact KeepsOut.runIns hs (fun _ ht => ht) fun _ ht => ht.callTo
  case callr => exact KeepsOut.runIns hs (fun _ ht => ht) fun _ ht => KeepsRes.ite ht.callTo ht
  case ret => exact hs.execRet
  case loop => exact KeepsOut.runIns hs (fun _ ht => ht) fun _ ht => KeepsRes.ite ht (KeepsRes.ite ht.setPc ht.setCore.setPc)
  case endloop => exact KeepsOut.runIns hs (fun _ ht => ht) fun _ ht => ht.setCore
  case fadd | fsub | fmul | fdiv | fsqrt | fmin | fmax | fneg | fabs | fmv | fma | fms | fnma | fnms => exact hs.runFloat
  case fcmp | cvtfi => exact KeepsOut.runIns hs (fun _ ht => ht) fun _ ht => ht.orStw.setG
  case gtof => exact KeepsOut.runIns hs (fun _ ht => ht) fun _ ht => ht.setFr
  case ftog | getstw | mpop | mtog | vdget | vfrd => exact KeepsOut.runIns hs (fun _ ht => ht) fun _ ht => ht.setG
  case cvtif | cvtff | cvthf => exact KeepsOut.runIns hs (fun _ ht => ht) fun _ ht => ht.setFOut
  case cvtfh => exact KeepsOut.runIns hs (fun _ ht => ht) fun _ ht => Keeps.ite ht.orStw.setPair ht.orStw.setG
  case dadd | dsub => exact hs.runK48
  case dtob => exact hs.execDtob
  case btod => exact KeepsOut.runIns hs (fun _ ht => ht) fun _ ht => ht.microcoded fun _ ht1 => ht1.putK48
  case movr => exact hs.execMovr
  case fillr => exact hs.execFillr
  case cmpr => exact hs.execCmpr
  case scanr => exact hs.execScanr
  case fence => exact KeepsOut.runIns hs (fun _ ht => ht) fun _ ht => KeepsRes.ite trivial ht
  case isync => exact KeepsOut.runIns hs (fun _ ht => ht) fun _ ht => ht.discardFetched
  case setfps => exact KeepsOut.runIns hs (fun _ ht => ht) fun _ ht => KeepsRes.ite ht.setStw ht
  case setmode => exact KeepsOut.runIns hs (fun _ ht => ht) fun _ ht => KeepsRes.ite ht (Keeps.ite ht ht.setStw).setIe.setCore
  case svc => exact KeepsOut.runIns hs (fun _ ht => ht) fun _ ht => ht
  case xcall => exact KeepsOut.runIns hs (fun _ ht => ht) fun _ ht => ht.microcoded fun _ ht1 => ht1.gateCall
  case xret => exact KeepsOut.runIns hs (fun _ ht => ht) fun _ ht => ht.microcoded fun _ ht1 => ht1.gateReturn
  case eret => exact hs.execEret
  case wait => exact KeepsOut.runIns hs (fun _ ht => ht) fun _ ht => Keeps.ite ht.setPc.setCore ht.setPc.yieldBank
  case mfbw => exact hs.execMfbw
  case mtbw => exact KeepsOut.runIns hs (fun _ ht => ht) fun _ ht => KeepsRes.ite ht (KeepsRes.ite ht.setCore ht.bankWrite)
  case brk => exact KeepsOut.runIns hs (fun _ ht => ht) fun _ ht => KeepsRes.ite (Keeps.ite ht ht.retire).haltCore ht
  case extensionInstruction => exact KeepsOut.runIns hs (fun _ ht => ht.entryReads) fun _ ht => ht.streamStep
  case vadd | vsub | vmin | vmax | vabs | vneg | vand | vor | vxor | vandn | vshl | vshr | vsar | vcmp | vsel | vmul | vmulh | vmulw |
    vfma | vfms | vfnma | vfnms | vdiv | vrem | vsqrt | vrsum | vrmin | vrmax | vdot | vrcnt | vcvt | vcvtz | vmov | vcmpr | vexpz | vexpm
    | vperm | vgath | vscat => exact hs.runStream
  case sadd | ssub | smin | smax | sabs | sneg | sand | sor | sxor | sandn | sshl | sshr | ssar | ssel | smul | smulh | smulwl | smulwh |
    sfma | sfms | sfnma | sfnms | sdiv | srem | ssqrt | sdot | smov | scmpr | sexpz | sexpm | sperm => exact hs.runShort
  case scmp => exact KeepsOut.runIns hs (fun _ ht => ht) fun _ ht => ht.orStw.setMReg
  case srsum | srmin | srmax => exact hs.runReduce
  case scvt | scvtz => exact hs.runConvert
  case sld => exact KeepsOut.runIns hs (fun _ ht => ht) fun _ ht => ht.loadAligned.gotAndDone fun _ _ ht1 => ht1.putLanes
  case sst => exact KeepsOut.runIns hs (fun _ ht => ht) fun _ ht => KeepsRes.ite (ht.storeRuns.gotAndDone fun _ _ ht1 => ht1) ht
  case mand | mor | mxor | mandn | mnot | mfromg | mtail => exact hs.runMask
  case vdld => exact KeepsOut.runIns hs (fun _ ht => ht) fun _ ht => KeepsRes.ite ht (ht.coreLoad.gotAndDone fun _ _ ht1 => ht1.setCtx)
  case vdst => exact KeepsOut.runIns hs (fun _ ht => ht) fun _ ht => KeepsRes.ite ht (ht.coreStore.gotAndDone fun _ _ ht1 => ht1)
  case vdset | vdadd | vfrclr => exact KeepsOut.runIns hs (fun _ ht => ht) fun _ ht => ht.setCtx
  case vfence => exact KeepsOut.runIns hs (fun _ ht => ht) fun _ ht => KeepsRes.ite ht.setTrail.orStw.setG trivial
  case exceptionEntry => exact hs.execExceptionEntry
  case interruptEntry => exact KeepsOut.live hs hs.takeInterrupt
  case belayLimit | capstanBelayLimit => exact KeepsOut.live hs hs.belayLimit
  case capstanSwitch => exact KeepsOut.live hs hs.switchCore
  case lockstepMismatch => exact KeepsOut.live hs hs.lockstepMismatch
  case rollbackComplete => exact KeepsOut.live hs hs.rollbackEnds
  case llEnable | llDisable | splKill | setOwner | setRights | pin | unpin | retire | read | dsChCfg | eccInjCtl | cisOwner | cisPwr |
    xbCfg | evrPulse | ownerChange | periodWrite | compareWrite | smpRxtout | smpTx | watchdogKick | capTsk | mailboxRead | mailboxWrite |
    clear | program | activate | commit | keyprog | halt | resume | step | regrd | regwr | release | dbgFreeze | stimulus => exact
    hs.putReg
  case llEnableComplete => exact KeepsOut.live hs hs.enableEnds.settled
  case llDisableComplete => exact KeepsOut.live hs hs.disableComplete.settled
  case spliceAccept => exact KeepsOut.live hs hs.accept
  case spliceComplete => exact KeepsOut.live hs hs.completeOn
  case preemptCheck => exact KeepsOut.live hs hs.preemptCheck
  case preemptionComplete => exact KeepsOut.live hs hs.completePreemption
  case pumpFault => exact KeepsOut.live hs hs.pumpFault
  case splKillComplete => exact KeepsOut.live hs hs.completeKill
  case memoryRead | memoryWrite => exact KeepsOut.live hs hs.masterRequest
  case tagWaitRelease => exact KeepsOut.live hs hs.releaseTag.settled
  case readDataReturn => exact KeepsOut.live hs hs.returnRead.serveHosts
  case refresh => exact KeepsOut.live hs hs
  case scrubStep => exact KeepsOut.live hs hs.scrubStep
  case lapOverdue => exact KeepsOut.live hs hs.lapIsOverdue
  case logIntervalEnd => exact KeepsOut.live hs hs.frame
  case logFlush => exact KeepsOut.live hs hs.flushLog
  case controlStoreRepair => exact KeepsOut.live hs hs.repairStore
  case frameMoveComplete => exact KeepsOut.live hs hs.completeMove.settled
  case reservationActive => exact KeepsOut.live hs hs.activateReservation
  case handoverComplete => exact KeepsOut.live hs hs.completeHandover.settled
  case powerTransitionComplete => exact KeepsOut.live hs hs.powerEnds.settled
  case remapComplete => exact KeepsOut.live hs hs.completeRemap.settled
  case eventFire => exact KeepsOut.live hs hs.eventFire
  case guardRelease => exact KeepsOut.live hs hs.guardRelease
  case countingTick => exact KeepsOut.live hs hs.countingTick
  case captureEdge => exact KeepsOut.live hs hs.captureEdge
  case frameReceive => exact KeepsOut.live hs hs.receiveFrame
  case receiveTimeout => exact KeepsOut.live hs hs.receiveTimeout
  case serialiserLoad => exact KeepsOut.live hs hs.loadSerialiser
  case safeFrameRepeat => exact KeepsOut.live hs hs.repeatSafe
  case watchdogExpire => exact KeepsOut.live hs hs.watchdogExpire
  case bar0Write | bar2Write | bar2Read | msixUnmask | configurationRequest | msixTableWrite => exact KeepsOut.live hs hs.hostRequest
  case linkTrained => exact KeepsOut.live hs hs.trainLink
  case linkDown => exact KeepsOut.live hs hs.dropLink
  case functionLevelReset => exact KeepsOut.live hs (Keeps.ite hs.resetFunction hs)
  case usdoRequest => exact KeepsOut.live hs hs.usdoRequest
  case usdoSessionTimeout => exact KeepsOut.live hs hs.sessionTimeout
  case modeRequest | wakeLatencyBudget | partitionLayout | imageDownload => exact KeepsOut.live hs hs.clientWrite
  case nmtStateChange => exact KeepsOut.live hs hs.nmtCommand
  case nmtResetCommunication => exact KeepsOut.live hs hs.resetCommunication
  case sync => exact KeepsOut.live hs hs.syncFrame
  case heartbeat => exact KeepsOut.live hs hs.produceHeartbeat
  case tpdo => exact KeepsOut.live hs hs.sendTpdo
  case busOff => exact KeepsOut.live hs hs.setBus
  case busOffRecovery => exact KeepsOut.live hs hs.recoverBus
  case switchStateGlobal => exact KeepsOut.live hs hs.switchGlobal
  case switchStateSelective => exact KeepsOut.live hs hs.switchSelective
  case configureNodeId => exact KeepsOut.live hs hs.configureNode
  case configureBitTiming => exact KeepsOut.live hs hs.configureTiming
  case storeConfiguration => exact KeepsOut.live hs hs.storeLss
  case inquireIdentity => exact KeepsOut.live hs hs.inquire
  case inquireNodeId => exact KeepsOut.live hs hs.inquireNode
  case identifyRemoteSlave => exact KeepsOut.live hs hs.identify
  case fastscan => exact KeepsOut.live hs hs.fastscanStep
  case firmwareCommandComplete => exact KeepsOut.live hs hs.completeFw
  case drainComplete => exact KeepsOut.live hs hs.drainComplete
  case drainLimit => exact KeepsOut.live hs hs.drainLimit
  case depthReached => exact KeepsOut.live hs hs.depthReached
  case standbySwitchOff => exact KeepsOut.live hs hs.standbySwitchOff
  case wakeComplete => exact KeepsOut.live hs hs.wakeComplete.settled
  case vinAuxValid => exact .next hs.auxValid
  case vinAuxLoss => exact KeepsOut.live hs hs.auxLoss
  case vinMainValid => exact .next hs.mainValid
  case vinMainLoss => exact .next hs.mainLoss
  case supplyOutOfRange | supplyBackInRange => exact .next hs.supplyLevel
  case lidOutOfRange | lidBackInRange => exact .next hs.lidLevel
  case thermalShutdown => exact .next hs.tooHot
  case thermalReturn => exact .next hs.coolAgain
  case resetNLow => exact .next hs.resetLow
  case resetNHigh => exact .next hs.resetHigh
  case bootComplete => exact KeepsOut.live hs hs.bootComplete
  case recoveryExit => exact KeepsOut.live hs hs.recoveryExit
  case clockMonitorCheck => exact .next hs.clockCheck
  case clockRecovery => exact .next hs.clockRecovery
  case wordRead | wordWrite | registerRead | registerWrite | consumingRegisterRead => exact KeepsOut.live hs hs.aftarAccess
  case aftarAccessComplete => exact KeepsOut.live hs hs.aftarComplete
  case trstNLow => exact KeepsOut.live hs hs.resetTap
  case haltTaken => exact KeepsOut.live hs hs.haltTaken
  case syncPacket => exact KeepsOut.live hs hs.syncPacket'
  case controlRegisterWrite => exact KeepsOut.live hs hs.regWrite
  case frameCommandComplete => exact KeepsOut.live hs hs.completeFrameCommand
  case heartbeatReceived => exact KeepsOut.live hs hs.heardHeartbeat
  case heartbeatConsumerTimeout => exact KeepsOut.live hs hs.heartbeatLost
  case errorPassive => exact KeepsOut.live hs hs.errorPassive
  case tracePacketSent => exact KeepsOut.live hs hs.sendTrace

end

/-- Settles O2: one lemma per function of the model, and the dispatch by cases of the command. -/
theorem everyStepKeepsMemoryForm : Obligations.EveryStepKeepsMemoryForm := by
  refine ⟨fun i s => KeepsOut.exec .rfl, fun s t hwf hst => ?_, Laws.reset_wf⟩
  unfold step at hst
  split at hst
  · cases hst
    exact (Keeps.slowTick .rfl).2 hwf
  next c rest _ =>
    obtain ⟨u, hu, hk⟩ := KeepsOut.exec (s₀ := { s with pending := rest }) (i := c) .rfl
    cases hu.symm.trans hst
    exact hk.2 hwf

end Sys2Proof.Proofs

/-! ### Register fields after a write, and the state right after reset (R15, R550, R554) -/

namespace Sys2Proof.Proofs
open Sys2Proof Sys2Proof.Machine

section
variable {w len : Nat}

/-- Bit `i` of a word with a field replaced (R10). -/
theorem getLsbD_setBits (v : BitVec w) (lo : Nat) (x : BitVec len) (i : Nat) :
    (setBits v lo x).getLsbD i = if lo ≤ i ∧ i < lo + len ∧ i < w then x.getLsbD (i - lo) else v.getLsbD i := by
  simp only [setBits, BitVec.getLsbD_or, BitVec.getLsbD_and, BitVec.getLsbD_not, BitVec.getLsbD_shiftLeft, BitVec.getLsbD_setWidth,
    BitVec.getLsbD_allOnes]
  by_cases hw : i < w
  · by_cases hlo : lo ≤ i
    · by_cases hhi : i < lo + len
      · simp [hw, hlo, hhi, show i - lo < len by omega, show i - lo < w by omega, show ¬ i < lo by omega]
      · simp [hw, hlo, hhi, show ¬ i < lo by omega, show ¬ i - lo < len by omega, BitVec.getLsbD_of_ge x (i - lo) (by omega)]
    · simp [hw, hlo, show i < lo by omega]
  · simp [hw, BitVec.getLsbD_of_ge v i (by omega)]

theorem bits_setBits_same (v : BitVec w) (lo : Nat) (x : BitVec len) (h : lo + len ≤ w) : bits (setBits v lo x) lo len = x := by
  apply BitVec.eq_of_getLsbD_eq
  intro i hi
  simp only [bits, BitVec.getLsbD_extractLsb', getLsbD_setBits, hi, decide_true, Bool.true_and]
  rw [if_pos (by omega), Nat.add_sub_cancel_left]

theorem bits_setBits_disjoint (v : BitVec w) {lo lo' len' : Nat} (x : BitVec len) (h : lo' + len' ≤ lo ∨ lo + len ≤ lo') :
    bits (setBits v lo x) lo' len' = bits v lo' len' := by
  apply BitVec.eq_of_getLsbD_eq
  intro i hi
  simp only [bits, BitVec.getLsbD_extractLsb', getLsbD_setBits]
  rw [if_neg (by omega)]

theorem bit_setBits (v : BitVec w) (lo : Nat) (x : BitVec len) (i : Nat) :
    bit (setBits v lo x) i = if lo ≤ i ∧ i < lo + len ∧ i < w then bit x (i - lo) else bit v i := getLsbD_setBits v lo x i

theorem bit_setBit (v : BitVec w) (j : Nat) (b : Bool) (i : Nat) : bit (setBit v j b) i = if i = j ∧ i < w then b else bit v i := by
  unfold setBit
  rw [bit_setBits]
  by_cases h : i = j
  · subst h
    cases b <;> simp [ofBool, bit]
  · rw [if_neg (by omega), if_neg (by omega)]

end

section
variable {s t : State} {r q : Rg} {len : Nat}

theorem rd_wrF_same {lo : Nat} {x : BitVec len} : rd (wrF s r lo x) r = setBits (rd s r) lo x := Laws.rd_wr_same ..

theorem rd_wrF_ne {lo : Nat} {x : BitVec len} (h : q.index ≠ r.index) : rd (wrF s r lo x) q = rd s q := Laws.rd_wr_ne _ _ _ _ h

theorem rd_wrB_same {i : Nat} {b : Bool} : rd (wrB s r i b) r = setBit (rd s r) i b := Laws.rd_wr_same ..

theorem rd_wrB_ne {i : Nat} {b : Bool} (h : q.index ≠ r.index) : rd (wrB s r i b) q = rd s q := Laws.rd_wr_ne _ _ _ _ h

/-- A change of health is reported on CAN, and nothing else moves. -/
theorem report_frame (s : State) : ∃ sent can, report s = { s with sent := sent, can := can } := by
  have hcan (t : State) (m : Msg) (ht : ∃ l, t = { s with sent := l }) : ∃ l, sendCan t m = { s with sent := l } := by
    obtain ⟨l, rfl⟩ := ht
    unfold sendCan
    split
    · exact ⟨_, rfl⟩
    · exact ⟨_, rfl⟩
  obtain ⟨l, hl⟩ := Laws.foldl_keeps (P := fun t => ∃ l, t = { s with sent := l }) (fun t b => sendCan t (.emcy (emcyCode b) (errorRegister (health s))))
    ((List.range 12).filter fun b => bit (health s) b && !bit s.can.reported b) (fun t b => hcan t _) s ⟨s.sent, rfl⟩
  unfold report
  simp only [hl]
  split
  · obtain ⟨l', hl'⟩ := hcan { s with sent := l } (.emcy 0 (errorRegister (health s))) ⟨l, rfl⟩
    exact ⟨_, _, by rw [hl']⟩
  · exact ⟨_, _, rfl⟩

theorem rd_report : rd (report s) r = rd s r := by
  obtain ⟨_, _, h⟩ := report_frame s
  rw [h]
  rfl

/-- The mode that the partitions ask for depends on the objects alone. -/
theorem combined_congr (hod : t.od = s.od) (hbase : t.odBase = s.odBase) (hforce : t.inForce = s.inForce) : combined t = combined s := by
  cases s
  cases t
  simp only at hod hbase hforce
  subst hod hbase hforce
  rfl

/-- A start ends in BRING-UP (R554). -/
theorem mode_beginStart {recovery pin : Bool} {cause : BitVec 3} : mode (beginStart s recovery cause pin) = 2 := by
  unfold mode rdF beginStart
  simp only [rd_report, setHold, setPhase, setMode, rd_wrF_same, rd_wrB_same, setBit]
  repeat rw [bits_setBits_disjoint _ _ (by omega)]
  exact bits_setBits_same _ _ _ (by omega)

/-- HST_LINK keeps the PE_SPLIT pin as the start samples it. -/
theorem split_beginStart {recovery pin : Bool} {cause : BitVec 3} :
    rdB (beginStart s recovery cause pin) .hstLink 0 = s.pwr.split := by
  have hmod : Rg.hstLink.index ≠ Rg.modStat.index := by decide
  have hcan : Rg.hstLink.index ≠ Rg.hstCan.index := by decide
  have happly (t : State) : rd (applyStored t) .hstLink = rd t .hstLink := by
    unfold applyStored
    dsimp only
    split <;> split <;> exact (rd_wrB_ne hcan).trans (rd_wrF_ne hcan)
  unfold rdB beginStart
  simp only [rd_report, setHold, setPhase, setMode, rd_wrF_ne hmod, rd_wrB_ne hmod, happly, rd_wrB_same]
  simp only [bit_setBit, Nat.zero_lt_succ, and_self, if_true]

end

/-- What VIN_MAIN in its range leaves of the pins and the registers before a start. -/
def suppliedMain (l : BitVec 12) (recoveryN split : Bool) : State :=
  wrF (samplePins { State.reset with
    pwr := { State.reset.pwr with main := true, mainOut := false, hot := State.reset.pwr.hot || lidTooHot (rdF State.reset .modTemp 0 12) } }
    recoveryN split) .modVolt 0 l

theorem mainValid_reset (l : BitVec 12) (recoveryN split : Bool) (h : supplyOut true l = false) :
    mainValid State.reset l recoveryN split = tryStart (report (suppliedMain l recoveryN split)) (mainCause State.reset) (some recoveryN) := by
  unfold mainValid
  rw [if_neg (by decide), h, if_neg (by decide)]
  exact if_pos rfl

/-- No ordering code holds a lid of 0 °C too hot. -/
theorem lidTooHot_zero : lidTooHot 0 = false := by
  unfold lidTooHot lidHigh
  split <;> decide

theorem mayStart_supplied (l : BitVec 12) (recoveryN split : Bool) : mayStart (report (suppliedMain l recoveryN split)) = true := by
  have hstat : Rg.modStat.index ≠ Rg.modVolt.index := by decide
  have htemp : Rg.modTemp.index ≠ Rg.modVolt.index := by decide
  obtain ⟨sent, can, h⟩ := report_frame (suppliedMain l recoveryN split)
  have hcombined : combined (report (suppliedMain l recoveryN split)) = combined State.reset := by
    rw [h]
    exact combined_congr rfl rfl rfl
  have hreset : mode State.reset = 1 := by decide
  have hmode : mode (report (suppliedMain l recoveryN split)) = 1 := by
    unfold mode rdF
    rw [rd_report, suppliedMain, rd_wrF_ne hstat]
    exact hreset
  have hlid : lidTooHot (rdF (report (suppliedMain l recoveryN split)) .modTemp 0 12) = false := by
    unfold rdF
    rw [rd_report, suppliedMain, rd_wrF_ne htemp]
    exact lidTooHot_zero
  have hhot : (State.reset.pwr.hot || lidTooHot (rdF State.reset .modTemp 0 12)) = false := lidTooHot_zero
  have hpwr : (report (suppliedMain l recoveryN split)).pwr =
      { State.reset.pwr with main := true, mainOut := false, hot := false, recoveryN := recoveryN, split := split } := by
    rw [h]
    simp only [suppliedMain, hhot]
    rfl
  unfold mayStart
  rw [hcombined, hmode, hlid, hpwr]
  rfl

/-- Settles O60: the registers and the memory by their defaults, the start by the fields that it writes. -/
theorem resetState : Obligations.ResetState := by
  have hmem (k : Nat) : memAt State.reset k = blank k := by
    unfold memAt
    split <;> rfl
  refine ⟨rfl, rfl, rfl, rfl, rfl, fun _ => rfl, hmem, rfl, rfl, rfl, rfl, ?_, fun _ => rfl, rfl, rfl, by decide, fun l rn split hl => ?_⟩
  · exact fun c t => ⟨rfl, by revert c t; decide⟩
  · have hstart : mainValid State.reset l rn split = beginStart (report (suppliedMain l rn split)) _ _ rn :=
      (mainValid_reset l rn split hl).trans (if_pos (mayStart_supplied l rn split))
    have hsplit : (report (suppliedMain l rn split)).pwr.split = split := by
      obtain ⟨_, _, h⟩ := report_frame (suppliedMain l rn split)
      rw [h]
      rfl
    exact ⟨_, rfl, hstart ▸ mode_beginStart, hstart ▸ split_beginStart.trans hsplit⟩

end Sys2Proof.Proofs

/-! ### Register writes (R16, R17, R19, R21, R196, R648) -/

namespace Sys2Proof.Proofs
open Sys2Proof Sys2Proof.Machine

section
variable {s t : State} {r q : Rg} {v : Reg24}

/-! #### A write by access code -/

theorem bit_and {n : Nat} (x y : BitVec n) (i : Nat) : bit (x &&& y) i = (bit x i && bit y i) := BitVec.getLsbD_and

theorem bit_or {n : Nat} (x y : BitVec n) (i : Nat) : bit (x ||| y) i = (bit x i || bit y i) := BitVec.getLsbD_or

theorem bit_not {n : Nat} (x : BitVec n) {i : Nat} (h : i < n) : bit (~~~x) i = !bit x i := by simp [bit, h]

/-- No register has a bit that a write sets and a bit that a write of 1 clears in one place. -/
theorem writable_and_w1c (r : Rg) : (r.bits.rw ||| r.bits.rws) &&& r.bits.w1c = 0 := by
  cases r <;> simp only [Rg.bits]
  case xbPri | xbSlice | capTsk => split_ifs <;> decide
  all_goals decide

theorem w1c_of_writable {i : Nat} (h : (bit r.bits.rw i || bit r.bits.rws i) = true) : bit r.bits.w1c i = false := by
  have hz := congrArg (bit · i) (writable_and_w1c r)
  rw [bit_and, bit_or, h, Bool.true_and] at hz
  simpa [bit] using hz

/-- A write in two steps: the register, and the record that it was written in this start (R19). -/
theorem store_eq : store s r v = { wr s r (((rd s r &&& ~~~(r.bits.rw ||| r.bits.rws)) ||| (v &&& (r.bits.rw ||| r.bits.rws))) &&&
      ~~~(v &&& r.bits.w1c &&& ~~~justSet s r)) with
    rwsDone := if r.bits.rws = 0 ∨ r.index ∈ s.rwsDone then s.rwsDone else s.rwsDone ++ [r.index] } := by
  unfold store
  dsimp only
  split <;> rfl

theorem rd_store_same : rd (store s r v) r = ((rd s r &&& ~~~(r.bits.rw ||| r.bits.rws)) ||| (v &&& (r.bits.rw ||| r.bits.rws))) &&&
    ~~~(v &&& r.bits.w1c &&& ~~~justSet s r) := by
  rw [store_eq]
  exact Laws.rd_wr_same ..

theorem rd_store_ne (h : q.index ≠ r.index) : rd (store s r v) q = rd s q := by
  rw [store_eq]
  exact Laws.rd_wr_ne _ _ _ _ h

theorem bit_store {i : Nat} (hi : i < 24) : bit (rd (store s r v) r) i =
    if bit r.bits.rw i || bit r.bits.rws i then bit v i
    else if bit r.bits.w1c i then bit (rd s r) i && (!bit v i || bit (justSet s r) i) else bit (rd s r) i := by
  simp only [rd_store_same, bit_and, bit_or, bit_not _ hi]
  by_cases h : (bit r.bits.rw i || bit r.bits.rws i) = true
  · rw [if_pos h, h, w1c_of_writable h]
    simp
  · rw [if_neg h, (Bool.not_eq_true _).mp h]
    cases bit r.bits.w1c i <;> simp

theorem mem_rwsDone_store (h : r.bits.rws ≠ 0) : r.index ∈ (store s r v).rwsDone := by
  rw [store_eq]
  dsimp only
  split
  next hm => exact hm.resolve_left h
  · simp

theorem rwsDone_store_of_mem {j : Nat} (h : j ∈ s.rwsDone) : j ∈ (store s r v).rwsDone := by
  rw [store_eq]
  dsimp only
  split
  · exact h
  · exact List.mem_append_left _ h

/-! #### Bits that the hardware set in this tick (log 168) -/

theorem justSet_of_other_tick (h : ∀ m, s.events.marks.find r.index = some m → m.tick ≠ (s.clock, s.events.now)) : justSet s r = 0 := by
  unfold justSet marked
  cases hm : s.events.marks.find r.index with
  | none => rfl
  | some m => simp [Option.filter, h m hm]

/-- Marking leaves the registers as they are. -/
theorem rd_markSet {b : Reg24} : rd (markSet s r b) q = rd s q := by
  unfold markSet
  split <;> rfl

theorem markSet_mem {b : Reg24} : (markSet s r b).mem = s.mem := by
  unfold markSet
  split <;> rfl

theorem markSet_ctxs {b : Reg24} : (markSet s r b).ctxs = s.ctxs := by
  unfold markSet
  split <;> rfl

theorem justSet_markSet {b : Reg24} (h : ticked r.index = true) : justSet (markSet s r b) r = justSet s r ||| b := by
  have hfind (m : SetMark) (hm : m.tick = (s.clock, s.events.now)) :
      marked { s with events := { s.events with marks := s.events.marks.insert r.index m } } r = some m := by
    simp [marked, Laws.find_insert, Option.filter, hm]
  unfold markSet
  rw [if_pos h]
  unfold justSet
  cases hm : marked s r with
  | none =>
    dsimp only
    rw [hfind _ rfl]
    simp
  | some m =>
    have htick : m.tick = (s.clock, s.events.now) := by
      unfold marked at hm
      have := (Option.filter_eq_some_iff.mp hm).2
      simpa using this
    dsimp only
    rw [hfind { m with bits := m.bits ||| b } htick]

/-- A bit that the hardware sets in the tick of a write stays 1. -/
theorem bit_store_setFlag {i : Nat} (hi : i < 24) (ht : ticked r.index = true) (hrw : bit r.bits.rw i = false) (hrws : bit r.bits.rws i = false) :
    bit (rd (store (setFlag s r i) r v) r) i = true := by
  have hset : bit (rd (setFlag s r i) r) i = true := by
    unfold setFlag
    rw [rd_wrB_same, bit_setBit, if_pos ⟨rfl, hi⟩]
  have hjust : bit (justSet (setFlag s r i) r) i = true := by
    have : justSet (setFlag s r i) r = justSet s r ||| setBit 0 i true := justSet_markSet ht
    rw [this, bit_or, bit_setBit, if_pos ⟨rfl, hi⟩, Bool.or_true]
  rw [bit_store hi, hrw, hrws, hset, hjust]
  simp

/-! #### Grants and rejections -/

/-- A grant moves a round-robin pointer of the crossbar, and nothing else (R196). -/
theorem grantRegisters_frame (s : State) (w : Writer) : ∃ store, grantRegisters s w = { s with store := store } := by
  have hgranted (m n : Nat) : ∃ store, granted s m n = { s with store := store } := by
    unfold granted
    split
    · exact ⟨s.store, rfl⟩
    · exact ⟨_, rfl⟩
  cases w with
  | scalar c => exact hgranted _ _
  | lifeline => exact hgranted _ _
  | aftar => exact hgranted _ _
  | host f => exact ⟨s.store, rfl⟩
  | boot => exact ⟨s.store, rfl⟩

theorem rd_post_same {i : Nat} {e : Reject} : rd (post s r i e) r = setBits (setBit (rd s r) i true) 12 e.code := Laws.rd_wr_same ..

theorem rd_post_ne {i : Nat} {e : Reject} (h : q.index ≠ r.index) : rd (post s r i e) q = rd s q :=
  (Laws.rd_wr_ne _ _ _ _ h).trans rd_markSet

theorem rd_postReject {e : Reject} : rd (postReject s r e) q = rd (post s (statusOf r).1 (statusOf r).2 e) q := by
  unfold postReject
  dsimp only
  split <;> rfl

theorem postReject_mem {e : Reject} : (postReject s r e).mem = s.mem := by
  unfold postReject
  dsimp only
  split <;> exact markSet_mem

theorem postReject_ctxs {e : Reject} : (postReject s r e).ctxs = s.ctxs := by
  unfold postReject
  dsimp only
  split <;> exact markSet_ctxs

/-- The REJ bit of a block's status register stands at 0 or 2. -/
theorem statusOf_bit (r : Rg) : (statusOf r).2 < 12 := by
  have hite {c : Prop} {dec : Decidable c} {x y : Rg × Nat} (hx : x.2 < 12) (hy : y.2 < 12) : (if c then x else y).2 < 12 := by
    split
    · exact hx
    · exact hy
  have h0 (q : Rg) : (q, 0).2 < 12 := by simp
  have h2 (q : Rg) : (q, 2).2 < 12 := by simp
  exact hite (h0 _) (hite (h2 _) (hite (h0 _) (hite (h0 _) (hite (h0 _) (hite (h0 _) (hite (h0 _) (hite (h2 _) (hite (h0 _) (hite (h0 _)
    (hite (h0 _) (hite (h0 _) (hite (h0 _) (hite (h0 _) (hite (h0 _) (hite (h0 _) (h2 _))))))))))))))))

end

/-! #### The writers -/

section
variable {s t : State} {w : Writer} {r : Rg} {v : Reg24} {e : Reject}

/-- A write that reaches its block is judged by it. -/
theorem exec_registerWrite (hr : Rg.ofIndex r.index = some r) (hw : Reaches s w r.index) :
    exec (.controlRegisterWrite w r.index v) s =
      .next (match putBlock (grantRegisters s w) (authOf s w) r v with | .ok t => t | .error e => postReject (grantRegisters s w) r e) := by
  have hput : (putRegister (grantRegisters s w) (authOf s w) r.index v).2 =
      match putBlock (grantRegisters s w) (authOf s w) r v with | .ok t => t | .error e => postReject (grantRegisters s w) r e := by
    unfold putRegister
    rw [hr]
    dsimp only
    cases putBlock (grantRegisters s w) (authOf s w) r v <;> rfl
  obtain ⟨haux, hw⟩ := hw
  have hlive : exec (.controlRegisterWrite w r.index v) s = .next (regWrite s w r.index v) := congrArg Host.Outcome.next (if_pos haux)
  rw [hlive, ← hput]
  congr 1
  cases w with
  | scalar c =>
    obtain ⟨hrun, hpend⟩ := hw
    exact if_pos ⟨hrun, by simp [hpend]⟩
  | lifeline =>
    obtain ⟨hrun, hpend⟩ := hw
    exact if_pos ⟨hrun, by simp [hpend]⟩
  | host f =>
    obtain ⟨hqueue, hreach, hbars, hboot, hready⟩ := hw
    have hf : Fin.ofNat 4 f.val = f := by simp
    simp only [regWrite, hqueue, List.isEmpty_nil, if_true, hostWrite, hreach, hbars, hboot, hf]
    rw [if_neg (by simp), if_neg (by simp), if_neg (by simp), if_neg (by simpa using hready)]
    rfl
  | aftar => exact hw.elim
  | boot => exact if_pos hw

theorem registerWrite_accepted (hr : Rg.ofIndex r.index = some r) (hw : Reaches s w r.index)
    (h : putBlock (grantRegisters s w) (authOf s w) r v = .ok t) : exec (.controlRegisterWrite w r.index v) s = .next t := by
  rw [exec_registerWrite hr hw, h]

theorem registerWrite_rejected (hr : Rg.ofIndex r.index = some r) (hw : Reaches s w r.index)
    (h : putBlock (grantRegisters s w) (authOf s w) r v = .error e) :
    exec (.controlRegisterWrite w r.index v) s = .next (postReject (grantRegisters s w) r e) := by
  rw [exec_registerWrite hr hw, h]

/-- A register that only safety supervisor code or boot firmware writes (R16, log 58). -/
theorem putBlock_safe {s : State} {a : Auth} (h : r = .eccCfg ∨ r = .eccInjAlo ∨ r = .eccInjAhi ∨ r = .scrCfg) :
    putBlock s a r v = if a.safe then .ok (store s r v) else .error .notPermitted := by
  have hjudge (t : State) : judge [(!a.safe, .notPermitted)] t = if a.safe then .ok t else .error .notPermitted := by
    cases a.safe <;> simp [judge]
  obtain rfl | rfl | rfl | rfl := h <;> exact hjudge _

/-- A register whose writable fields are all RWS takes one write in a start (R19, log 36). -/
theorem putBlock_once {s : State} {a : Auth} (h : r = .pmpShare ∨ r = .pmpQuantum) :
    putBlock s a r v = if r.index ∈ s.rwsDone then .error .writtenOnce else .ok (store s r v) := by
  have hjudge (hrws : (r.bits.rws != 0) = true) (hrw : (r.bits.rw == 0 && !r.bits.wo) = true) :
      storeOnce s r v = if r.index ∈ s.rwsDone then .error .writtenOnce else .ok (store s r v) := by
    have hwritten : writtenOnce s r v = decide (r.index ∈ s.rwsDone) := by
      unfold writtenOnce
      rw [hrws, hrw, Bool.true_and, Bool.true_or, Bool.and_true, List.contains_eq_mem]
    unfold storeOnce
    rw [hwritten]
    by_cases hm : r.index ∈ s.rwsDone <;> simp [judge, hm]
  obtain rfl | rfl := h <;> exact hjudge (by decide) (by decide)

end

/-- Settles O38: `store` bit by bit, and what a write that reaches its block does where the block accepts or rejects it. -/
theorem registerWrites : Obligations.RegisterWrites := by
  refine ⟨fun s r q v i hi => ⟨bit_store hi, justSet_of_other_tick, bit_store_setFlag hi, rd_store_ne, ?_, ?_, mem_rwsDone_store,
    fun j => rwsDone_store_of_mem⟩, fun s t w r q v e hr hw => ?_⟩
  · rw [store_eq]
    rfl
  · rw [store_eq]
    rfl
  · intro a gives st g z
    obtain ⟨x, hg⟩ : ∃ x, g = { s with store := x } := grantRegisters_frame s w
    have hrd (q : Rg) : rd g q = rd s q := by
      rw [hg]
      rfl
    refine ⟨registerWrite_accepted hr hw, fun h => ⟨registerWrite_rejected hr hw h, ?_, ?_, fun i hi hne => ?_, fun hq => ?_, ?_, ?_⟩, fun h => ?_, fun h => ?_⟩
    · have hlt : st.2 < 12 := statusOf_bit r
      rw [rd_postReject, rd_post_same, bit_setBits, if_neg (by omega), bit_setBit, if_pos ⟨rfl, by omega⟩]
    · rw [rd_postReject, rd_post_same, bits_setBits_same _ _ _ (by omega)]
    · rw [rd_postReject, rd_post_same, bit_setBits, if_neg (by omega), bit_setBit, if_neg fun h => hne h.1, hrd]
    · rw [rd_postReject, rd_post_ne hq, hrd]
    · exact postReject_mem.trans (by rw [hg])
    · exact postReject_ctxs.trans (by rw [hg])
    · refine ⟨fun ha => registerWrite_accepted hr hw ((putBlock_safe h).trans (if_pos ha)), fun hb hs => ?_⟩
      · have hsafe : ¬ a.safe = true := by simp [Auth.safe, hb, hs]
        have hpost : postReject g r .notPermitted = post g st.1 st.2 .notPermitted := by
          obtain rfl | rfl | rfl | rfl := h <;> rfl
        exact hpost ▸ registerWrite_rejected hr hw ((putBlock_safe h).trans (if_neg hsafe))
    · have hdone : g.rwsDone = s.rwsDone := by rw [hg]
      refine ⟨fun hm => registerWrite_accepted hr hw ((putBlock_once h).trans (if_neg (hdone ▸ hm))), fun hm => ?_⟩
      · have hpost : postReject g r .writtenOnce = post g .pmpCmd 0 .writtenOnce := by
          obtain rfl | rfl := h <;> rfl
        exact hpost ▸ registerWrite_rejected hr hw ((putBlock_once h).trans (if_pos (hdone ▸ hm)))

end Sys2Proof.Proofs

/-! ### Loads after stores: vendor microcode reads as zero (R457) -/

namespace Sys2Proof.Proofs
open Sys2Proof Sys2Proof.Machine

/-- The value that an access gives, where it completes. -/
def Got.value? {α : Type} : Got α → Option α
  | .ok x _ => some x
  | _ => none

theorem Got.value?_eq_some {α : Type} {g : Got α} {x : α} : Got.value? g = some x ↔ ∃ u, g = .ok x u := by
  cases g <;> simp [Got.value?]

/-- What a load of the plies just stored gives, where both complete. -/
def readBack (s : State) (w : Who) (a n v : Nat) (detail : BitVec 32) : Option Nat :=
  match storePliesAt s w a n v detail with
  | .ok _ t => Got.value? (loadPlies t w a n detail)
  | _ => none

theorem exists_of_readBack_eq_some {s : State} {w : Who} {a n v y : Nat} {detail : BitVec 32} (h : readBack s w a n v detail = some y) :
    ∃ t z, storePliesAt s w a n v detail = .ok () t ∧ loadPlies t w a n detail = .ok y z := by
  unfold readBack at h
  split at h
  · next t hstore =>
    obtain ⟨z, hload⟩ := Got.value?_eq_some.mp h
    exact ⟨t, z, hstore, hload⟩
  · nomatch h

/-- Words that were never stored are free of errors, those that the mask ROMs fill included. -/
theorem blank_sound (k : Nat) : (blank k).err = 0 ∧ (blank k).fold = 0 ∧ (blank k).poison = false := by
  unfold blank
  split_ifs <;> exact ⟨rfl, rfl, rfl⟩

/-- The device in BRING-UP. -/
def bringUp : State := wrF State.reset .modStat 0 (2 : BitVec 3)

/-- Safety supervisor code of core 0, which in BRING-UP is the boot firmware. -/
def bootCode : Who := { code := 0, safety := true, sup := true, core := 0, master := 16 }

/-- A ply of the vendor patch microcode (microwords 8,192 to 12,222): a write in BRING-UP is accepted, a read returns zero (R457). Its word
holds no ply of the mask ROM, whose content the model leaves open. -/
def patchPly : Nat := 0x50020004

/-- The store of 1 is accepted, and the load after it gives 0. -/
theorem readBack_patchPly : readBack bringUp bootCode patchPly 1 1 0 = some 0 := by decide

theorem load_patchPly : Got.value? (loadPlies bringUp bootCode patchPly 1 0) = some 0 := by decide

theorem cachesSound_bringUp : CachesSound bringUp :=
  ⟨fun _ he => absurd he List.not_mem_nil, fun _ he => absurd he List.not_mem_nil⟩

/-- Refutes O36: the boot firmware stores 1 in a ply of the vendor patch microcode in BRING-UP and, as safety supervisor code, loads it as
zero, since the content of vendor microcode cannot be read from outside the device (R457); the statement does not leave the control store out. -/
theorem not_loadAfterStore : ¬ Obligations.LoadAfterStore := by
  unfold Obligations.LoadAfterStore
  intro h
  obtain ⟨u, hload⟩ := Got.value?_eq_some.mp load_patchPly
  obtain ⟨t, z, hstore, hback⟩ := exists_of_readBack_eq_some readBack_patchPly
  have hval := h bringUp t bootCode patchPly 1 1 0 0 0 u z blank_sound cachesSound_bringUp (by decide) rfl (by decide)
    hload hstore hback
  exact absurd hval (by decide)

end Sys2Proof.Proofs

/-! ### The crossbar and its masters (R32, R55, R84, R96 to R99, R140) -/

namespace Sys2Proof.Proofs
open Sys2Proof Sys2Proof.Machine

/-! #### The words of cisterns and of the deep store (R7, R33) -/

section
variable {s : State} {w : Who} {a b n p : Nat} {k : Kind}

theorem regionOf_eq_cistern (hn : n < 16) :
    regionOf a = some (.cistern n) ↔ 0x10000000 + n * 0x300000 ≤ a ∧ a < 0x10000000 + (n + 1) * 0x300000 := by
  unfold regionOf
  rw [show sumpBase = 0x1C00000000 from rfl]
  split_ifs <;> simp only [Option.some.injEq, Region.cistern.injEq, reduceCtorEq, false_iff] <;> omega

theorem regionOf_eq_deep : regionOf a = some .deep ↔ 0x100000000 ≤ a ∧ a < 0x18D0000000 := by
  unfold regionOf
  rw [show sumpBase = 0x1C00000000 from rfl]
  split_ifs <;> simp only [Option.some.injEq, reduceCtorEq, false_iff, true_iff] <;> omega

/-- The plies of the word of a cistern address lie in the cistern. -/
theorem regionOf_ply_cistern (hn : n < 16) (h : regionOf a = some (.cistern n)) (hp : p < 6) :
    regionOf (wordBase a + p) = some (.cistern n) := by
  have ha := (regionOf_eq_cistern hn).mp h
  rw [regionOf_eq_cistern hn]
  simp only [wordBase, plyOffset, h, Region.base]
  omega

/-- The plies of the word of a deep-store address lie in the deep store. -/
theorem regionOf_ply_deep (h : regionOf a = some .deep) (hp : p < 6) : regionOf (wordBase a + p) = some .deep := by
  have ha := regionOf_eq_deep.mp h
  rw [regionOf_eq_deep]
  simp only [wordBase, plyOffset, h, Region.base]
  omega

theorem cacheable_cistern (hn : n < 16) (h : regionOf a = some (.cistern n)) : cacheable a = false := by
  have ha := (regionOf_eq_cistern hn).mp h
  simp only [cacheable, inFrames, Bool.or_eq_false_iff, decide_eq_false_iff_not]
  omega

theorem not_inFrames_of_not_cacheable (h : cacheable a = false) : inFrames a = false := (Bool.or_eq_false_iff.mp h).1

/-- The remap moves window zero alone (R190). -/
theorem remapped_of_le (h : 262144 ≤ a) : remapped s a = a := if_neg fun hw => absurd hw.1 (by omega)

theorem tableWord_of_not_inFrames (h : inFrames a = false) : tableWord a = none := by
  have ha : ¬ 0x100000000 ≤ a := by simpa [inFrames] using h
  refine if_neg fun ht => ha ?_
  exact le_trans (by decide) ht.1

/-- The check of a cistern access depends on the cistern alone. -/
theorem check_cistern_congr (ha : regionOf a = some (.cistern n)) (hb : regionOf b = some (.cistern n)) : check s w a k = check s w b k := by
  simp only [check, checkExempt, ha, hb]

/-- A cistern access looks up no frame-table entry (R115). -/
theorem checked_cistern (hn : n < 16) (h : regionOf a = some (.cistern n)) : checked s w a k = (check s w a k, s) := by
  have hl : lookup s w a = s := if_neg (by simp [not_inFrames_of_not_cacheable (cacheable_cistern hn h)])
  unfold checked
  rw [hl]

end

/-! #### Reads and writes of sound words (R55, R140, R145) -/

section
variable {s : State} {key : Nat} {x : Word72}

theorem eq_data_of_sound {w : StoredWord} (herr : w.err = 0) (hfold : w.fold = 0) (hpoison : w.poison = false) : w = { data := w.data } := by
  cases w
  simp_all

theorem memAt_of_not_cacheable (h : cacheable key = false) : memAt s key = cellAt s key := if_neg (by simp [h])

theorem popCount_zero {w : Nat} : popCount 0#w = 0 := by simp [popCount]

/-- A word without errors is read as it is, and nothing moves. -/
theorem decodeRead_sound {h : Home} {m : Byte} : decodeRead s h key m { data := x } = ({ data := x, poison := false }, s) := by
  have hd : decodeWord { data := x } = .clean := by simp [decodeWord, popCount_zero]
  unfold decodeRead
  rw [hd]
  simp [StoredWord.raw]

theorem readTarget_sound {m : Byte} (hkey : inFrames key = false) (hcell : cellAt s key = { data := x }) :
    readTarget s key m = ({ data := x, poison := false }, s) := by
  unfold readTarget failedAt
  rw [hkey, Bool.false_and, if_neg (by simp), tableWord_of_not_inFrames hkey, hcell]
  exact decodeRead_sound

theorem readWord_sound {m : Byte} (hkey : cacheable key = false) (hcell : cellAt s key = { data := x }) :
    readWord s key m = ({ data := x, poison := false }, s) := by
  unfold readWord
  rw [hkey]
  exact readTarget_sound (not_inFrames_of_not_cacheable hkey) hcell

theorem maskInto_zero {d : Word72} : maskInto x 0 d = x := by simp [maskInto, BitVec.and_allOnes, -BitVec.reduceAllOnes]

theorem maskInto_allOnes {d : Word72} : maskInto x (BitVec.allOnes 72) d = d := by simp [maskInto, BitVec.and_allOnes, -BitVec.reduceAllOnes]

/-- A masked write of a sound word outside the cached regions merges into it and leaves the other words. -/
theorem writeMasked_sound {mask d : Word72} {m : Byte} (hkey : cacheable key = false) (hcell : cellAt s key = { data := x })
    (harm : rdB s .eccInjCtl 17 = false) :
    (writeMasked s key mask d m).store = s.store ∧
      ∀ j, cellAt (writeMasked s key mask d m) j = if j = key then { data := maskInto x mask d } else cellAt s j := by
  have hframes := not_inFrames_of_not_cacheable hkey
  have hcell' : cellAt (clearReservations s key) key = { data := x } := hcell
  unfold writeMasked
  by_cases hzero : mask = 0
  · rw [if_pos hzero]
    refine ⟨rfl, fun j => ?_⟩
    split
    next hj => rw [hj, hcell, hzero, maskInto_zero]
    · rfl
  · rw [if_neg hzero]
    simp only [hkey, Bool.false_eq_true, if_false, failedAt, hframes, Bool.false_and]
    by_cases hones : mask = BitVec.allOnes 72
    · have hstore : storeWhole (clearReservations s key) key { data := d } = setMem (clearReservations s key) key { data := d } :=
        if_neg fun h => by simp [show rdB (clearReservations s key) .eccInjCtl 17 = false from harm] at h
      rw [if_pos hones, hstore, hones, maskInto_allOnes]
      exact ⟨rfl, fun j => Laws.cellAt_setMem ..⟩
    · rw [if_neg hones, readTarget_sound hframes hcell']
      exact ⟨rfl, fun j => Laws.cellAt_setMem ..⟩

end

/-! #### Plies of a word (R4, R55) -/

section
variable {v x : Word72} {mask : BitVec 6} {p : Nat}

/-- A merge takes the plies that the mask names. -/
theorem wordPly_mergePlies (hp : p < 6) : wordPly (mergePlies v x mask) p = if bit mask p then wordPly x p else wordPly v p := by
  have hstep (u : Word72) (q : Nat) (hq : q < 6) : wordPly (if bit mask q then setBits u (12 * q) (wordPly x q) else u) p =
      if p = q ∧ bit mask p then wordPly x p else wordPly u p := by
    by_cases hm : bit mask q
    · rw [if_pos hm]
      by_cases hpq : p = q
      · subst hpq
        rw [if_pos ⟨rfl, hm⟩]
        exact bits_setBits_same _ _ _ (by omega)
      · rw [if_neg fun h => hpq h.1]
        exact bits_setBits_disjoint _ _ (by omega)
    · rw [if_neg hm, if_neg]
      rintro ⟨rfl, h⟩
      exact hm h
  have hfold (l : List Nat) (hl : ∀ q ∈ l, q < 6) (u : Word72) :
      wordPly (l.foldl (fun a q => if bit mask q then setBits a (12 * q) (wordPly x q) else a) u) p =
        if p ∈ l ∧ bit mask p then wordPly x p else wordPly u p := by
    induction l generalizing u with
    | nil => simp
    | cons q l ih =>
      rw [List.foldl_cons, ih (fun r hr => hl r (List.mem_cons_of_mem _ hr)), hstep u q (hl q List.mem_cons_self)]
      by_cases hpq : p = q
      · subst hpq
        cases bit mask p <;> simp
      · simp [hpq]
  rw [mergePlies, hfold _ (fun q hq => List.mem_range.mp hq)]
  simp [hp]

theorem getLsbD_wordPly {i : Nat} (hi : i < 12) : (wordPly v p).getLsbD i = v.getLsbD (12 * p + i) := by
  simp [wordPly, bits, hi]

/-- A masked write takes the plies that the mask names. -/
theorem wordPly_maskInto (hp : p < 6) : wordPly (maskInto v (plyBits mask) x) p = if bit mask p then wordPly x p else wordPly v p := by
  refine BitVec.eq_of_getLsbD_eq fun i hi => ?_
  have hmask : (plyBits mask).getLsbD (12 * p + i) = bit mask p := by
    rw [← getLsbD_wordPly hi, plyBits, wordPly_mergePlies hp]
    cases bit mask p
    · simp [getLsbD_wordPly hi]
    · rw [if_pos rfl, getLsbD_wordPly hi, BitVec.getLsbD_allOnes]
      exact decide_eq_true (by omega)
  rw [getLsbD_wordPly hi, maskInto, BitVec.getLsbD_or, BitVec.getLsbD_and, BitVec.getLsbD_and, BitVec.getLsbD_not, hmask]
  cases bit mask p
  · simp [getLsbD_wordPly hi, show 12 * p + i < 72 by omega]
  · simp [getLsbD_wordPly hi]

end

/-! #### Lookups and reads refuse no access (R32)

Inside `SameRefused` a model's function is written `Machine.f` where the lemma about it has its name. -/

/-- The refused accesses that still await their effect on their masters are the same. -/
def SameRefused (s₀ s : State) : Prop := s.store.refused = s₀.store.refused

section
variable {s₀ s t : State} {c : Prop} {dec : Decidable c} {st : StoreSt} {n key : Nat} {w : StoredWord} {h : Home} {m : Byte} {e : LogEntry}

theorem putL2_refused : (st.putL2 key w).refused = st.refused := by
  unfold StoreSt.putL2
  split
  · rfl
  · split <;> rfl

theorem overwritten_refused : (st.overwritten key w).refused = st.refused :=
  (Laws.foldl_keeps (P := fun t : StoreSt => t.refused = (st.putL2 key w).refused) _ _
    (fun _ c ht => by
      dsimp only
      split <;> exact ht) _ rfl).trans putL2_refused

theorem ftWrite_refused {locked : Bool} : (st.ftWrite n locked w).refused = st.refused := by
  unfold StoreSt.ftWrite
  split
  · rfl
  · split <;> rfl

theorem putTable_refused {second : Bool} : (st.putTable n second w).refused = st.refused := by
  unfold StoreSt.putTable
  split <;> rfl

theorem SameRefused.ite {a b : State} (ha : SameRefused s₀ a) (hb : SameRefused s₀ b) : SameRefused s₀ (if c then a else b) := by
  split
  · exact ha
  · exact hb

/-- The registers are no part of it. -/
theorem SameRefused.wr {r : Rg} {v : Reg24} (hs : SameRefused s₀ s) : SameRefused s₀ (wr s r v) := hs

theorem SameRefused.sumpStore (hs : SameRefused s₀ s) : SameRefused s₀ (sumpStore s key w) := .ite hs (overwritten_refused.trans hs)

theorem SameRefused.log (hs : SameRefused s₀ s) : SameRefused s₀ (log s e) := .ite hs (.ite hs.sumpStore.sumpStore hs.sumpStore.sumpStore)

theorem SameRefused.report (hs : SameRefused s₀ s) : SameRefused s₀ (report s) := by
  obtain ⟨sent, can, hr⟩ := report_frame s
  rw [hr]
  exact hs

theorem SameRefused.setFrame {f : FEntry} (hs : SameRefused s₀ s) : SameRefused s₀ (setFrame s n f) :=
  .ite (ftWrite_refused.trans hs) (overwritten_refused.trans (ftWrite_refused.trans hs))

theorem SameRefused.recordRetirement (hs : SameRefused s₀ s) : SameRefused s₀ (recordRetirement s n) :=
  .ite hs (.ite hs.wr.report hs)

theorem SameRefused.retireTrigger (hs : SameRefused s₀ s) : SameRefused s₀ (retireTrigger s n e) :=
  .ite hs (.ite (.ite hs (SameRefused.log hs)) (.ite hs.setFrame.recordRetirement.log hs.setFrame.log))

theorem SameRefused.frameCe (hs : SameRefused s₀ s) : SameRefused s₀ (frameCe s n e) := .ite hs.setFrame.retireTrigger hs.setFrame

theorem SameRefused.frameUe (hs : SameRefused s₀ s) : SameRefused s₀ (frameUe s n e) :=
  .ite (SameRefused.ite hs hs.setFrame).retireTrigger (.ite hs hs.setFrame)

theorem SameRefused.channelAce (hs : SameRefused s₀ s) : SameRefused s₀ (channelAce s n) := by
  have hnoted (times : List Nat) : SameRefused s₀ { s with store := { s.store with aces := s.store.aces.insert n times } } := hs
  exact .ite (hnoted _).wr.log.report (hnoted _)

theorem SameRefused.putAt (hs : SameRefused s₀ s) : SameRefused s₀ (putAt s h key w) := by
  cases h with
  | target => exact hs
  | l2 => exact putL2_refused.trans hs
  | table second => exact putTable_refused.trans hs

theorem SameRefused.readCe {located : BitVec 88} (hs : SameRefused s₀ s) : SameRefused s₀ (readCe s h key m w located) :=
  .ite hs.putAt.wr.log.frameCe hs.putAt.wr.log

theorem SameRefused.readUe (hs : SameRefused s₀ s) : SameRefused s₀ (readUe s h key m w) :=
  .ite hs.putAt.wr.log.frameUe hs.putAt.wr.log

theorem SameRefused.readAce (hs : SameRefused s₀ s) : SameRefused s₀ (readAce s h key m w) :=
  .ite hs.wr.log.channelAce hs.wr.log

theorem SameRefused.decodeRead (hs : SameRefused s₀ s) : SameRefused s₀ (decodeRead s h key m w).2 := by
  unfold Machine.decodeRead
  split
  · exact hs
  · exact hs.readCe
  · exact hs.readAce
  · exact hs
  · exact hs.readUe

theorem SameRefused.readTarget (hs : SameRefused s₀ s) : SameRefused s₀ (readTarget s key m).2 := by
  unfold Machine.readTarget
  split
  · exact hs
  · split <;> exact hs.decodeRead

theorem SameRefused.readWord (hs : SameRefused s₀ s) : SameRefused s₀ (readWord s key m).2 := by
  unfold Machine.readWord
  split
  · exact hs.decodeRead
  · exact hs.readTarget

theorem SameRefused.readEntry (hs : SameRefused s₀ s) : SameRefused s₀ (readEntry s n m) := by
  have hr : SameRefused s₀ (Machine.readTarget s (sumpBase + 6 * n) m).2 := hs.readTarget
  unfold Machine.readEntry
  refine .ite (SameRefused.log hr) ?_
  dsimp only [SameRefused]
  split <;> exact hr

theorem SameRefused.of_readCopy {second good : Bool} (hs : SameRefused s₀ s) (ht : readCopy s n second m w = (good, t)) :
    SameRefused s₀ t := by
  rw [← show (readCopy s n second m w).2 = t from congrArg Prod.snd ht]
  exact hs.decodeRead

theorem SameRefused.rewriteCopy {second : Bool} (hs : SameRefused s₀ s) : SameRefused s₀ (rewriteCopy s n second) :=
  putTable_refused.trans hs

theorem SameRefused.readLocked {p : StoredWord × StoredWord} {both : Bool} (hs : SameRefused s₀ s) :
    SameRefused s₀ (readLocked s n m p both) := by
  unfold Machine.readLocked
  split
  next h1 =>
    refine .ite ?_ (hs.of_readCopy h1)
    split
    next h2 => exact (hs.of_readCopy h1).of_readCopy h2
    next h2 => exact ((hs.of_readCopy h1).of_readCopy h2).rewriteCopy
  next h1 =>
    split
    next h2 => exact ((hs.of_readCopy h1).of_readCopy h2).rewriteCopy
    next h2 => exact ((hs.of_readCopy h1).of_readCopy h2).readEntry

theorem SameRefused.lookupFrame (hs : SameRefused s₀ s) : SameRefused s₀ (lookupFrame s n m) := by
  unfold Machine.lookupFrame
  refine .ite hs ?_
  split
  · exact hs.readLocked
  · split
    · split
      next s1 h1 => exact hs.of_readCopy (t := s1) h1
      next h1 => exact (hs.of_readCopy h1).readEntry
    · exact SameRefused.readEntry hs

theorem SameRefused.checked {x : Who} {a : Nat} {k : Kind} (hs : SameRefused s₀ s) : SameRefused s₀ (checked s x a k).2 :=
  .ite hs.lookupFrame hs

end

/-! #### What a request comes to at its target (R32, R97) -/

section
variable {s t : State} {q : Request} {m : Master} {a : Nat} {write : Option (BitVec 6 × Word72)}

/-- A grant moves a round-robin pointer, and nothing else (R196). -/
theorem granted_frame (s : State) (m n : Nat) : ∃ rr, granted s m n = { s with store := { s.store with rr := rr } } := by
  unfold granted
  split
  · exact ⟨s.store.rr, rfl⟩
  · exact ⟨_, rfl⟩

/-- A request whose plies stand in one region leaves no region (R34). -/
theorem requestLeaves_of_region (h : ∀ p < 6, regionOf (wordBase q.addr + p) = regionOf q.addr) : requestLeaves q = false := by
  unfold requestLeaves
  split
  · simp only [List.any_eq_false, List.mem_range]
    intro p hp
    simp [h p hp]
  · have h0 : regionOf (wordBase q.addr) = regionOf q.addr := h 0 (by omega)
    simp [leavesRegion, h 5 (by omega), h0]

/-- The ply that is checked lies in the region of the request. -/
theorem regionOf_namedPly (h : ∀ p < 6, regionOf (wordBase q.addr + p) = regionOf q.addr) : regionOf (namedPly q) = regionOf q.addr := by
  unfold namedPly
  split
  · split
    next p hp => exact h p (List.mem_range.mp (List.mem_of_find?_eq_some hp))
    · rfl
  · rfl

theorem arrive_refused (hgate : crossbarGated s q.master = false) (hleaves : requestLeaves q = false)
    (hcheck : checked s (masterWho s q.master) (namedPly q) (if q.write.isSome then .write else .read) = (.refused, t)) :
    arrive s q = refuse t q := by
  simp only [arrive, hgate, hleaves, hcheck, Bool.false_eq_true, if_false]

theorem arrive_served (hgate : crossbarGated s q.master = false) (hleaves : requestLeaves q = false)
    (hcheck : checked s (masterWho s q.master) (namedPly q) (if q.write.isSome then .write else .read) = (.ok, t))
    (htag : inFrames q.addr = true → tagFree t (channelOf q.addr) ((masterWho s q.master).code == 8) = true ∧
      outranked t (masterNumber q.master) (targetOf q.addr) (channelOf q.addr) = false) : arrive s q = serve t q := by
  simp only [arrive, hgate, hleaves, hcheck, Bool.false_eq_true, if_false]
  refine if_neg ?_
  rintro ⟨hframes, hwait⟩
  obtain ⟨hfree, hrank⟩ := htag hframes
  rcases hwait with hwait | hwait
  · exact hwait hfree
  · exact absurd hwait (by rw [hrank]; decide)

theorem settleRefused_of_nil (h : s.store.refused = []) : settleRefused s = s := by
  unfold settleRefused
  rw [h, List.foldl_nil, ← h]

/-- A request that its master may make, with none of its own before it at the port, arrives. -/
theorem masterRequest_arrives (hruns : crossbarRuns s m = true) (hordered : coreOrdered s m a write = true) (hregion : regionOf a ≠ some .registers)
    (hfirst : ∀ y ∈ s.store.tagWait, masterNumber y.master ≠ masterNumber m ∨ targetOf y.addr ≠ targetOf a) :
    masterRequest s m a write = settleRefused (arrive s { master := m, addr := a, write }) := by
  have hbehind : behind s { master := m, addr := a, write } = false := by
    simp only [behind, behindAt, List.any_eq_false, Bool.and_eq_true, beq_iff_eq, not_and_or]
    exact hfirst
  unfold masterRequest request
  rw [if_neg (by simp [hruns, hordered]), if_neg fun h => hregion h.1, hbehind, if_neg (by simp)]

theorem coreOrdered_read (h : regionOf a ≠ some .registers) : coreOrdered s m a none = true := by
  cases m <;> simp [coreOrdered, h]

theorem coreOrdered_write {x : BitVec 6 × Word72} (h : regionOf a ≠ some .registers) (hp : ∀ j : Core, m = .core j → storesPending s j = false) :
    coreOrdered s m a (some x) = true := by
  cases m with
  | core j =>
    have hnone := hp j rfl
    simp only [storesPending, storeWaits, List.any_eq_false, List.mem_append] at hnone
    have hown (y : Request) (hy : y ∈ s.store.held ∨ y ∈ s.store.tagWait) : ¬ (y.master = .core j ∧ y.write.isSome = true) := by
      rintro ⟨hm, hw⟩
      simpa [hm, hw] using hnone y hy
    simp only [coreOrdered, if_neg h, Option.isNone_some, Bool.false_or, Bool.not_eq_true', Bool.or_eq_false_iff, List.any_eq_false, Bool.and_eq_true,
      beq_iff_eq]
    exact ⟨fun y hy => hown y (.inl hy), fun y hy hc => hown y (.inr hy) hc.1⟩
  | _ => rfl

end

/-! #### What a refused access does (R32, R251) -/

section
variable {s t : State} {q : Request} {p : Splice} {cause : BitVec 3} {d : Nat} {causes : BitVec 24}

/-- The state once a refusal is counted and answered, its effect on the master apart. -/
def refusalSent (s : State) (q : Request) : State :=
  send (countFailure s) (.refusal (BitVec.ofNat 8 (masterNumber q.master)) (wordBase q.addr))

theorem refusalSent_frame (s : State) (q : Request) : ∃ sent can, refusalSent s q =
    { s with
      sent := .refusal (BitVec.ofNat 8 (masterNumber q.master)) (wordBase q.addr) :: sent
      can := can
      store := { s.store with failures := if s.store.failures = 0xFFFFFFFF then s.store.failures else s.store.failures + 1 } } := by
  obtain ⟨sent, can, h⟩ := report_frame
    { s with store := { s.store with failures := if s.store.failures = 0xFFFFFFFF then s.store.failures else s.store.failures + 1 } }
  exact ⟨sent, can, by rw [refusalSent, countFailure, h]; rfl⟩

/-- A refused request of a master other than a ring is counted and answered, and takes its effect on the master. -/
theorem settleRefused_refuse (h : s.store.refused = []) (hm : ∀ j, q.master ≠ .smpDma j) :
    settleRefused (refuse s q) = settleOne (refusalSent s q) q := by
  have hnone : (refusalSent s q).store.refused = [] := by
    obtain ⟨_, _, hr⟩ := refusalSent_frame s q
    rw [hr]
    exact h
  have hrefuse : refuse s q = { refusalSent s q with store := { (refusalSent s q).store with refused := [q] } } := by
    unfold refuse
    dsimp only
    split
    next j hj => exact absurd hj (hm j)
    · rw [show (send (countFailure s) _).store.refused = [] from hnone]
      rfl
  unfold settleRefused
  rw [hrefuse, List.foldl_cons, List.foldl_nil, ← hnone]

/-- A splice that ends on a pump leaves contexts and trails behind, the list, and its status on the pump (R251, R253). -/
theorem endSplice_eq (s : State) (p : Splice) (i : Nat) (cause : BitVec 3) (d : Nat) (causes : BitVec 24) :
    ∃ ctxs splices, endSplice s p (some i) cause d causes =
      showPump (showEnded (dropSplice { s with ctxs := ctxs, splices := splices } p) i p (p.status ||| 1 ||| causeBit cause ||| causes)) i 0 none := by
  have hvfr (c : Prop) (dec : Decidable c) (tr : Trail) (v : Word72) : ∃ ctxs splices,
      (if c then writeVfr (setTrail s p.cid tr) p v else setTrail s p.cid tr) = { s with ctxs := ctxs, splices := splices } := by
    unfold writeVfr
    split
    · split
      · exact ⟨_, _, rfl⟩
      · exact ⟨_, _, rfl⟩
    · exact ⟨_, _, rfl⟩
  unfold endSplice
  dsimp only
  obtain ⟨ctxs, splices, h⟩ := hvfr _ _ _ _
  exact ⟨ctxs, splices, by rw [h]⟩

theorem showPump_frame (s : State) (i : Nat) (st : BitVec 2) (p : Option Splice) : ∃ regs, showPump s i st p = { s with regs := regs } := by
  unfold showPump
  split
  · exact ⟨s.regs, rfl⟩
  · split <;> exact ⟨_, rfl⟩

theorem rd_showPump {i : Nat} {st : BitVec 2} {p : Option Splice} {r : Rg} (h : r.index ≠ (Rg.pmpStat i).index) :
    rd (showPump s i st p) r = rd s r := by
  unfold showPump
  split
  · rfl
  · split <;> exact Laws.rd_wr_ne _ _ _ _ h

/-- Memory, the store and what was sent are no part of the end of a splice; the splice is gone. -/
theorem endSplice_frame (s : State) (p : Splice) (i : Nat) (cause : BitVec 3) (d : Nat) (causes : BitVec 24) :
    ∃ regs ctxs splices, endSplice s p (some i) cause d causes = { s with regs := regs, ctxs := ctxs, splices := splices } ∧
      ∀ r ∈ splices.list, r.id ≠ p.id := by
  obtain ⟨ctxs, splices, h⟩ := endSplice_eq s p i cause d causes
  obtain ⟨regs, hr⟩ := showPump_frame (showEnded (dropSplice { s with ctxs := ctxs, splices := splices } p) i p
    (p.status ||| 1 ||| causeBit cause ||| causes)) i 0 none
  refine ⟨regs, ctxs, _, h.trans hr, fun r hmem => ?_⟩
  simpa using (List.mem_filter.mp hmem).2

/-- SPL_STAT shows the status with the bit of the cause (R251, R262). -/
theorem rd_splStat_endSplice (i : Fin 16) :
    rd (endSplice s p (some i.val) cause d causes) (.splStat i) = p.status ||| 1 ||| causeBit cause ||| causes := by
  obtain ⟨ctxs, splices, h⟩ := endSplice_eq s p i cause d causes
  have hi := i.isLt
  have hpump : (Rg.splStat i).index ≠ (Rg.pmpStat i).index := by simp only [Rg.index]; omega
  have hlow : (Rg.splStat i).index ≠ (Rg.splEleml i).index := by simp only [Rg.index]; omega
  have hhigh : (Rg.splStat i).index ≠ (Rg.splElemh i).index := by simp only [Rg.index]; omega
  rw [h, rd_showPump hpump, showEnded, showRun, Laws.rd_wr_ne _ _ _ _ hhigh, Laws.rd_wr_ne _ _ _ _ hlow, Laws.rd_wr_same]

end

/-! #### The tags of a channel (R96 to R98, R133) -/

section
variable {s t : State} {q : Request} {f y : Flight} {l l' : List Flight} {n k i j : Nat} {lat : BitVec 12}

theorem serveHosts_of_nil (h : s.hostQueue = []) : serveHosts s = s := by
  simp only [serveHosts, List.foldl_cons, List.foldl_nil, h, servePort]
  rw [← h]

/-- The first transaction to the word of the one named returns (R98). -/
theorem nextFlight_eq_some (hk : (flights s n)[k]? = some y) (hsplit : flights s n = l ++ f :: l') (hword : wordBase f.addr = wordBase y.addr)
    (hfirst : ∀ x ∈ l, wordBase x.addr ≠ wordBase y.addr) : nextFlight s n k = some f := by
  unfold nextFlight
  rw [hk, Option.bind_some, List.find?_eq_some_iff_append]
  exact ⟨by simpa using hword, l, l', hsplit, fun x hx => by simpa using hfirst x hx⟩

theorem nextFlight_eq_none (hk : (flights s n)[k]? = none) : nextFlight s n k = none := by
  unfold nextFlight
  rw [hk, Option.bind_none]

/-- The maximum in a field of DS_LATMAX takes a latency (R133). -/
def raiseLatmax (t : State) (n i : Nat) (lat : BitVec 12) : State :=
  if rdF t (.dsLatmax n) i 12 < lat then wrF t (.dsLatmax n) i lat else t

theorem raiseLatmax_frame (t : State) (n i : Nat) (lat : BitVec 12) : ∃ regs, raiseLatmax t n i lat = { t with regs := regs } := by
  unfold raiseLatmax
  split
  · exact ⟨_, rfl⟩
  · exact ⟨t.regs, rfl⟩

theorem toNat_rdF_raiseLatmax_same (hi : i + 12 ≤ 24) :
    (rdF (raiseLatmax t n i lat) (.dsLatmax n) i 12).toNat = Nat.max (rdF t (.dsLatmax n) i 12).toNat lat.toNat := by
  unfold raiseLatmax
  split
  next h =>
    have hlt := BitVec.lt_def.mp h
    rw [rdF, rd_wrF_same, bits_setBits_same _ _ _ hi]
    exact (Nat.max_eq_right hlt.le).symm
  next h => exact (Nat.max_eq_left (BitVec.not_lt.mp h)).symm

theorem rdF_raiseLatmax_disjoint (h : j + 12 ≤ i ∨ i + 12 ≤ j) : rdF (raiseLatmax t n i lat) (.dsLatmax n) j 12 = rdF t (.dsLatmax n) j 12 := by
  unfold raiseLatmax
  split
  · rw [rdF, rd_wrF_same, bits_setBits_disjoint _ _ h, rdF]
  · rfl

/-- The state in which the tag of a transaction is free. -/
def tagFreed (s : State) (f : Flight) : State := { s with store := { s.store with inflight := dropOne f s.store.inflight } }

theorem returnRead_write (h : nextFlight s n k = some f) (hw : f.write = true) : returnRead s n k lat = tagFreed s f := by
  simp only [returnRead, h, hw, if_true, tagFreed]

/-- A read of the lifeline counts in both maxima, another in the first (R133). -/
theorem returnRead_read (h : nextFlight s n k = some f) (hw : f.write = false) : returnRead s n k lat =
    send (if (masterWho s f.master).code = 8 then raiseLatmax (raiseLatmax (tagFreed s f) n 0 lat) n 12 lat else raiseLatmax (tagFreed s f) n 0 lat)
      (.word (BitVec.ofNat 8 (masterNumber f.master)) (wordBase f.addr) f.data f.poison (some f.tag)) := by
  simp only [returnRead, h, hw, Bool.false_eq_true, if_false, tagFreed, raiseLatmax]
  by_cases hcode : (masterWho s f.master).code = 8
  · simp only [hcode, if_true]
    rfl
  · simp only [hcode, if_false]
    rfl

/-- A request that waits alone at a channel with a free tag arrives (R97). -/
theorem releaseTag_single (hwait : s.store.tagWait = [q]) (hchannel : channelOf q.addr = n) (hgate : crossbarGated s q.master = false)
    (hfree : tagFree s n ((masterWho s q.master).code == 8) = true) (hstill : (frameAt s (frameOf q.addr)).moving = false) :
    releaseTag s n = arrive { s with store := { s.store with tagWait := [] } } q := by
  have hgo : mayGo s q = true := by simp only [mayGo, hgate, hchannel, hfree, hstill]; rfl
  have hpick : pickRequest s (candidates s n [] s.store.tagWait) = some q := by
    simp [hwait, candidates, hchannel, hgo, pickRequest]
  unfold releaseTag
  rw [hpick]
  simp only [hwait, dropOne, if_true]

end

/-! #### Accesses that a target serves (R55, R96, R140) -/

section
variable {s t : State} {m : Master} {a n : Nat} {mask : BitVec 6} {d x : Word72} {b : Byte}

/-- Outside window zero and the control store a target delivers its coded word. -/
theorem fetchWord_coded (hlow : 262144 ≤ a) (hwindow : regionOf a ≠ some .window) (hcontrol : regionOf a ≠ some .controlStore) :
    fetchWord s a b = readWord s (wordBase a) b := by
  unfold fetchWord
  rw [remapped_of_le hlow]
  dsimp only
  split
  next h => exact absurd h hwindow
  next h => exact absurd h hcontrol
  · rfl

/-- The word of a cistern address lies outside the cached regions. -/
theorem cacheable_wordBase_cistern (hn : n < 16) (h : regionOf a = some (.cistern n)) : cacheable (wordBase a) = false :=
  cacheable_cistern hn (regionOf_ply_cistern hn h (p := 0) (by omega))

theorem le_of_cistern (hn : n < 16) (h : regionOf a = some (.cistern n)) : 262144 ≤ a := by
  have := (regionOf_eq_cistern hn).mp h
  omega

/-- A sound word of a cistern is delivered as it stands. -/
theorem serve_read_cistern (hn : n < 16) (h : regionOf a = some (.cistern n)) (hcell : cellAt s (wordBase a) = { data := x }) :
    serve s { master := m, addr := a } =
      send (granted s (masterNumber m) (targetOf a)) (.word (BitVec.ofNat 8 (masterNumber m)) (wordBase a) x false) := by
  obtain ⟨rr, hg⟩ := granted_frame s (masterNumber m) (targetOf a)
  have hword : fetchWord (granted s (masterNumber m) (targetOf a)) a (BitVec.ofNat 8 (masterNumber m)) =
      ({ data := x, poison := false }, granted s (masterNumber m) (targetOf a)) := by
    rw [fetchWord_coded (le_of_cistern hn h) (by simp [h]) (by simp [h])]
    exact readWord_sound (cacheable_wordBase_cistern hn h) (by rw [hg]; exact hcell)
  simp only [serve, hword, not_inFrames_of_not_cacheable (cacheable_cistern hn h), Bool.false_eq_true, if_false]

/-- A write merges its plies into a sound word of a cistern. -/
theorem serve_write_cistern (hn : n < 16) (h : regionOf a = some (.cistern n)) (hcell : cellAt s (wordBase a) = { data := x })
    (harm : rdB s .eccInjCtl 17 = false) :
    (∃ rr, (serve s { master := m, addr := a, write := some (mask, d) }).store = { s.store with rr := rr }) ∧
      ∀ j, cellAt (serve s { master := m, addr := a, write := some (mask, d) }) j =
        if j = wordBase a then { data := maskInto x (plyBits mask) d } else cellAt s j := by
  obtain ⟨rr, hg⟩ := granted_frame s (masterNumber m) (targetOf a)
  have hserve : serve s { master := m, addr := a, write := some (mask, d) } =
      writeMasked (granted s (masterNumber m) (targetOf a)) (wordBase a) (plyBits mask) d (BitVec.ofNat 8 (masterNumber m)) := by
    simp only [serve, remapped_of_le (le_of_cistern hn h), not_inFrames_of_not_cacheable (cacheable_cistern hn h), Bool.false_eq_true, if_false]
    rfl
  rw [hserve, hg]
  obtain ⟨hstore, hcells⟩ := writeMasked_sound (mask := plyBits mask) (d := d) (m := BitVec.ofNat 8 (masterNumber m))
    (cacheable_wordBase_cistern hn h) (s := { s with store := { s.store with rr := rr } }) hcell harm
  exact ⟨⟨rr, hstore⟩, hcells⟩

/-- A read of the deep store takes its word and a tag (R96; logs 39, 170). -/
theorem serve_read_deep {z : State} {w : Word} (h : regionOf a = some .deep)
    (hword : readWord (granted s (masterNumber m) 16) (wordBase a) (BitVec.ofNat 8 (masterNumber m)) = (w, z)) :
    serve s { master := m, addr := a } =
      takeTag z { master := m, addr := a, data := w.data, poison := w.poison, tag := freeTag s (channelOf a) } := by
  have hle := (regionOf_eq_deep.mp h).1
  have htarget : targetOf a = 16 := by simp only [targetOf, h]
  have hframes : inFrames a = true := decide_eq_true hle
  have hfetch : fetchWord (granted s (masterNumber m) 16) a (BitVec.ofNat 8 (masterNumber m)) = (w, z) := by
    rw [fetchWord_coded (by omega) (by simp [h]) (by simp [h]), hword]
  simp only [serve, htarget, hfetch, hframes, if_true]

end

/-! #### The commands -/

section
variable {s u z : State} {m : Master} {a : BitVec 40} {mask : BitVec 6} {d x : Word72} {n : Nat}

theorem exec_memoryRead (haux : s.pwr.aux = true) : exec (.memoryRead m a) s = .next (masterRequest s m a.toNat none) :=
  congrArg Host.Outcome.next (if_pos haux)

theorem exec_memoryWrite (haux : s.pwr.aux = true) : exec (.memoryWrite m a mask d) s = .next (masterRequest s m a.toNat (some (mask, d))) :=
  congrArg Host.Outcome.next (if_pos haux)

/-- What a command of the crossbar meets that arrives at its target at once: the crossbar takes requests of the master, and none of its own waits
before it at the port. -/
structure Arrives (s : State) (m : Master) (a : Nat) : Prop where
  aux : s.pwr.aux = true
  none_refused : s.store.refused = []
  runs : crossbarRuns s m = true
  gate : crossbarGated s m = false
  first : ∀ y ∈ s.store.tagWait, masterNumber y.master ≠ masterNumber m ∨ targetOf y.addr ≠ targetOf a

theorem Arrives.exec_read (h : Arrives s m a.toNat) (hregion : regionOf a.toNat ≠ some .registers) :
    exec (.memoryRead m a) s = .next (settleRefused (arrive s { master := m, addr := a.toNat })) := by
  rw [exec_memoryRead h.aux, masterRequest_arrives h.runs (coreOrdered_read hregion) hregion h.first]

theorem memoryRead_served (h : Arrives s m a.toNat) (hn : n < 16) (hregion : regionOf a.toNat = some (.cistern n))
    (hcell : cellAt s (wordBase a.toNat) = { data := x }) (hcheck : check s (masterWho s m) a.toNat .read = .ok) :
    ∃ t, exec (.memoryRead m a) s = .next t ∧
      t.sent = .word (BitVec.ofNat 8 (masterNumber m)) (wordBase a.toNat) x false :: s.sent ∧ t.mem = s.mem ∧ t.regs = s.regs := by
  have harrive : arrive s { master := m, addr := a.toNat } = serve s { master := m, addr := a.toNat } :=
    arrive_served (t := s) h.gate (requestLeaves_of_region fun p hp => (regionOf_ply_cistern hn hregion hp).trans hregion.symm)
      ((checked_cistern hn hregion).trans (by rw [← hcheck]; rfl))
      fun hf => by simp [not_inFrames_of_not_cacheable (cacheable_cistern hn hregion)] at hf
  obtain ⟨rr, hg⟩ := granted_frame s (masterNumber m) (targetOf a.toNat)
  refine ⟨serve s { master := m, addr := a.toNat }, ?_, ?_⟩
  · rw [h.exec_read (by simp [hregion]), harrive, settleRefused_of_nil]
    rw [serve_read_cistern hn hregion hcell, hg]
    exact h.none_refused
  · rw [serve_read_cistern hn hregion hcell, hg]
    exact ⟨rfl, rfl, rfl⟩

theorem memoryWrite_served (h : Arrives s m a.toNat) (hn : n < 16) (hregion : regionOf a.toNat = some (.cistern n))
    (hcell : cellAt s (wordBase a.toNat) = { data := x }) (hcheck : check s (masterWho s m) a.toNat .write = .ok)
    (harm : rdB s .eccInjCtl 17 = false) (hstores : ∀ j : Core, m = .core j → storesPending s j = false) :
    ∃ t, exec (.memoryWrite m a mask d) s = .next t ∧
      memAt t (wordBase a.toNat) = { data := maskInto x (plyBits mask) d } ∧ ∀ j, j ≠ wordBase a.toNat → memAt t j = memAt s j := by
  let q : Request := { master := m, addr := a.toNat, write := some (mask, d) }
  have hplies : ∀ p < 6, regionOf (wordBase q.addr + p) = regionOf q.addr :=
    fun p hp => (regionOf_ply_cistern hn hregion hp).trans hregion.symm
  have hnamed : regionOf (namedPly q) = some (.cistern n) := (regionOf_namedPly hplies).trans hregion
  have harrive : arrive s q = serve s q :=
    arrive_served (t := s) h.gate (requestLeaves_of_region hplies)
      ((checked_cistern hn hnamed).trans (by rw [check_cistern_congr hnamed hregion, ← hcheck]; rfl))
      fun hf => by simp [q, not_inFrames_of_not_cacheable (cacheable_cistern hn hregion)] at hf
  obtain ⟨⟨rr, hstore⟩, hcells⟩ := serve_write_cistern (m := m) (mask := mask) (d := d) hn hregion hcell harm
  refine ⟨serve s q, ?_, ?_, fun j hj => ?_⟩
  · rw [exec_memoryWrite h.aux, masterRequest_arrives h.runs (coreOrdered_write (by simp [hregion]) hstores) (by simp [hregion]) h.first, harrive,
      settleRefused_of_nil (by rw [hstore]; exact h.none_refused)]
  · rw [memAt_of_not_cacheable (cacheable_wordBase_cistern hn hregion), hcells, if_pos rfl]
  · unfold memAt
    rw [hcells, if_neg hj, hstore]
    rfl

theorem memoryRead_refused (h : Arrives s m a.toNat) (hn : n < 16) (hregion : regionOf a.toNat = some (.cistern n))
    (hcheck : check s (masterWho s m) a.toNat .read = .refused) (hring : ∀ j, m ≠ .smpDma j) :
    exec (.memoryRead m a) s =
      .next (settleOne (refusalSent s { master := m, addr := a.toNat }) { master := m, addr := a.toNat }) := by
  have harrive : arrive s { master := m, addr := a.toNat } = refuse s { master := m, addr := a.toNat } :=
    arrive_refused h.gate (requestLeaves_of_region fun p hp => (regionOf_ply_cistern hn hregion hp).trans hregion.symm)
      ((checked_cistern hn hregion).trans (by rw [← hcheck]; rfl))
  rw [h.exec_read (by simp [hregion]), harrive, settleRefused_refuse h.none_refused hring]

theorem memoryRead_deep {w : Word} (h : Arrives s m a.toNat) (hregion : regionOf a.toNat = some .deep)
    (hcheck : checked s (masterWho s m) a.toNat .read = (.ok, u))
    (hfree : tagFree u (channelOf a.toNat) ((masterWho s m).code == 8) = true)
    (hrank : outranked u (masterNumber m) (targetOf a.toNat) (channelOf a.toNat) = false)
    (hword : readWord (granted u (masterNumber m) 16) (wordBase a.toNat) (BitVec.ofNat 8 (masterNumber m)) = (w, z)) :
    exec (.memoryRead m a) s =
      .next (takeTag z { master := m, addr := a.toNat, data := w.data, poison := w.poison, tag := freeTag u (channelOf a.toNat) }) := by
  have harrive : arrive s { master := m, addr := a.toNat } = serve u { master := m, addr := a.toNat } :=
    arrive_served h.gate (requestLeaves_of_region fun p hp => (regionOf_ply_deep hregion hp).trans hregion.symm) hcheck fun _ => ⟨hfree, hrank⟩
  have hu : SameRefused s u := by
    rw [← show (checked s (masterWho s m) a.toNat .read).2 = u from congrArg Prod.snd hcheck]
    exact SameRefused.checked rfl
  have hz : SameRefused s z := by
    obtain ⟨rr, hg⟩ := granted_frame u (masterNumber m) 16
    rw [← show (readWord (granted u (masterNumber m) 16) _ _).2 = z from congrArg Prod.snd hword, hg]
    exact SameRefused.readWord hu
  have hnone : z.store.refused = [] := hz.trans h.none_refused
  rw [h.exec_read (by simp [hregion]), harrive, serve_read_deep hregion hword, settleRefused_of_nil]
  exact hnone

end

/-! #### A refusal at its master (R32) -/

section
variable {s : State} {q : Request} {c : Nat}

/-- In `t` the refusal of `q` on `s` is counted and answered. -/
def RefusalSeen (s : State) (q : Request) (t : State) : Prop :=
  .refusal (BitVec.ofNat 8 (masterNumber q.master)) (wordBase q.addr) ∈ t.sent ∧
    (s.store.failures ≠ 0xFFFFFFFF → t.store.failures = s.store.failures + 1)

theorem refusalSeen_refusalSent : RefusalSeen s q (refusalSent s q) := by
  obtain ⟨_, _, hr⟩ := refusalSent_frame s q
  rw [hr]
  exact ⟨List.mem_cons_self, fun h => if_neg h⟩

theorem RefusalSeen.frame {t : State} {regs : Tab Reg24} {ctxs : Tab Ctx} {splices : SpliceSt} (h : RefusalSeen s q t) :
    RefusalSeen s q { t with regs := regs, ctxs := ctxs, splices := splices } := h

theorem refusalSent_mem : (refusalSent s q).mem = s.mem := by
  obtain ⟨_, _, hr⟩ := refusalSent_frame s q
  rw [hr]

theorem refusalSent_ctxs : (refusalSent s q).ctxs = s.ctxs := by
  obtain ⟨_, _, hr⟩ := refusalSent_frame s q
  rw [hr]

theorem spliceOn_refusalSent {i : Nat} : spliceOn (refusalSent s q) i = spliceOn s i := by
  obtain ⟨_, _, hr⟩ := refusalSent_frame s q
  rw [hr]
  rfl

theorem coreRuns_refusalSent : coreRuns (refusalSent s q) c = coreRuns s c := by
  obtain ⟨_, _, hr⟩ := refusalSent_frame s q
  rw [hr]
  rfl

theorem settleOne_pump {i : Fin 16} {p : Splice} (hm : q.master = .pump i) (hp : spliceOn s i = some p) :
    settleOne s q = endSplice s p (some i.val) 1 (refusedDesc p q.addr) := by
  simp only [settleOne, hm, hp]

/-- A running core takes the access fault of its read. -/
theorem settleOne_core {j : Core} (hm : q.master = .core j) (hruns : coreRuns s j = true) (hread : q.write = none) :
    settleOne s q = trapTo s s j (accessExc q.addr 0) := by
  simp only [settleOne, hm, hruns, hread, if_true]
  rfl

/-- A refused access whose core does not run moves no more than registers, contexts and splices, and those for a pump alone. -/
theorem settleOne_frame (h : ∀ j, q.master = .core j → coreRuns s j = false) :
    ∃ regs ctxs splices, settleOne s q = { s with regs := regs, ctxs := ctxs, splices := splices } := by
  unfold settleOne
  split
  · split
    next p _ =>
      obtain ⟨regs, ctxs, splices, he, _⟩ := endSplice_frame s p _ 1 (refusedDesc p q.addr) 0
      exact ⟨regs, ctxs, splices, he⟩
    · exact ⟨s.regs, s.ctxs, s.splices, rfl⟩
  next j hj =>
    rw [h j hj]
    exact ⟨s.regs, s.ctxs, s.splices, rfl⟩
  · exact ⟨s.regs, s.ctxs, s.splices, rfl⟩

/-- A refused read of a master that is no running core is counted and answered, and changes no memory. -/
theorem settleOne_idle (h : ∀ j, q.master = .core j → coreRuns s j = false) :
    RefusalSeen s q (settleOne (refusalSent s q) q) ∧ (settleOne (refusalSent s q) q).mem = s.mem := by
  obtain ⟨regs, ctxs, splices, hone⟩ := settleOne_frame (s := refusalSent s q) (q := q) fun j hj => coreRuns_refusalSent.trans (h j hj)
  rw [hone]
  refine ⟨refusalSeen_refusalSent.frame, ?_⟩
  dsimp only
  exact refusalSent_mem

/-- A refused read of a pump ends its splice with ACCESS (R251, R252). -/
theorem settleOne_ends {i : Fin 16} {p : Splice} (hm : q.master = .pump i) (hp : spliceOn s i = some p) :
    RefusalSeen s q (settleOne (refusalSent s q) q) ∧ (∀ r ∈ (settleOne (refusalSent s q) q).splices.list, r.id ≠ p.id) ∧
      rd (settleOne (refusalSent s q) q) (.splStat i) = p.status ||| 1 ||| 2 := by
  rw [settleOne_pump hm (spliceOn_refusalSent.trans hp)]
  refine ⟨?_, ?_, ?_⟩
  · obtain ⟨regs, ctxs, splices, hend, _⟩ := endSplice_frame (refusalSent s q) p i 1 (refusedDesc p q.addr) 0
    rw [hend]
    exact refusalSeen_refusalSent.frame
  · obtain ⟨regs, ctxs, splices, hend, hgone⟩ := endSplice_frame (refusalSent s q) p i 1 (refusedDesc p q.addr) 0
    rw [hend]
    exact hgone
  · rw [rd_splStat_endSplice]
    simp [causeBit]

end

/-! #### The return of reads (R96, R98, R133) -/

section
variable {s : State} {f : Flight} {c : Fin 128} {k : Nat} {lat : BitVec 12}

theorem exec_readDataReturn (haux : s.pwr.aux = true) (hqueue : (returnRead s c k lat).hostQueue = []) :
    exec (.readDataReturn c k lat) s = .next (returnRead s c k lat) :=
  (congrArg Host.Outcome.next (if_pos haux)).trans (by rw [serveHosts_of_nil hqueue])

/-- What the return of a transaction leaves: its tag free, its word sent, and no more than registers moved beside. -/
theorem returnRead_frame (h : nextFlight s c k = some f) : ∃ regs, returnRead s c k lat =
    { s with
      regs := regs
      store := { s.store with inflight := dropOne f s.store.inflight }
      sent := if f.write then s.sent else .word (BitVec.ofNat 8 (masterNumber f.master)) (wordBase f.addr) f.data f.poison (some f.tag) :: s.sent } := by
  cases hw : f.write with
  | true => exact ⟨s.regs, returnRead_write h hw⟩
  | false =>
    rw [returnRead_read h hw]
    obtain ⟨low, hlow⟩ := raiseLatmax_frame (tagFreed s f) c 0 lat
    rw [hlow]
    split
    · obtain ⟨high, hhigh⟩ := raiseLatmax_frame { tagFreed s f with regs := low } c 12 lat
      rw [hhigh]
      exact ⟨high, rfl⟩
    · exact ⟨low, rfl⟩

/-- A read that returns raises the maximum of its class (R133). -/
theorem latmax_returnRead (h : nextFlight s c k = some f) (hw : f.write = false) :
    let lo := if (masterWho s f.master).code = 8 then 12 else 0
    (rdF (returnRead s c k lat) (.dsLatmax c) lo 12).toNat = Nat.max (rdF s (.dsLatmax c) lo 12).toNat lat.toNat := by
  have hsend (t : State) (g : Msg) (i : Nat) : rdF (send t g) (.dsLatmax c) i 12 = rdF t (.dsLatmax c) i 12 := rfl
  have hfreed (i : Nat) : rdF (tagFreed s f) (.dsLatmax c) i 12 = rdF s (.dsLatmax c) i 12 := rfl
  dsimp only
  rw [returnRead_read h hw, hsend]
  split
  · rw [toNat_rdF_raiseLatmax_same (by omega), rdF_raiseLatmax_disjoint (by omega), hfreed]
  · rw [toNat_rdF_raiseLatmax_same (by omega), hfreed]

end

/-- Settles O44: each command by what its request comes to at the target, and a refusal by what it does to its master. -/
theorem crossbarCommands : Obligations.CrossbarCommands := by
  intro s u z m a mask d n c q k lat x haux ⟨hqueue, hrefused⟩ who num key cell refused
  refine ⟨fun hruns hgate hfirst => ?_, fun y l l' hk hsplit hword hbefore => ?_, fun hk => ?_, fun r hwait hchannel hopen hfree hstill => ?_,
    congrArg Host.Outcome.next (if_pos haux)⟩
  · have harr : Arrives s m a.toNat := ⟨haux, hrefused, hruns, hgate, hfirst⟩
    refine ⟨fun hregion herr hfold hpoison => ?_, fun hregion hcheck hfree hrank hread => memoryRead_deep harr hregion hcheck hfree hrank hread⟩
    have hcached : cacheable key = false := cacheable_wordBase_cistern n.isLt hregion
    have hcell : cellAt s key = { data := cell.data } := (memAt_of_not_cacheable hcached).symm.trans (eq_data_of_sound herr hfold hpoison)
    refine ⟨memoryRead_served harr n.isLt hregion hcell, fun hcheck harm hstores => ?_, fun hcheck => ⟨fun hring hidle => ?_, fun i p hm hp => ?_,
      fun j hm hrun => ?_⟩⟩
    · obtain ⟨t, ht, hmem, hother⟩ := memoryWrite_served (mask := mask) (d := d) harr n.isLt hregion hcell hcheck harm hstores
      refine ⟨t, ht, fun p hp => ?_, ?_, ?_, hother⟩
      · rw [hmem]
        exact wordPly_maskInto hp
      · rw [hmem]
      · rw [hmem]
    · exact ⟨_, memoryRead_refused harr n.isLt hregion hcheck hring, settleOne_idle hidle⟩
    · exact ⟨_, memoryRead_refused harr n.isLt hregion hcheck (by simp [hm]), settleOne_ends hm hp⟩
    · have hone := settleOne_core (s := refusalSent s { master := m, addr := a.toNat }) (q := { master := m, addr := a.toNat }) hm
        (coreRuns_refusalSent.trans hrun) rfl
      have hexc : accessExc a.toNat 0 = { cause := 0x04, faddr := a } := by simp [accessExc]
      refine ⟨refusalSent s { master := m, addr := a.toNat }, ?_, refusalSeen_refusalSent, refusalSent_mem, refusalSent_ctxs⟩
      rw [memoryRead_refused harr n.isLt hregion hcheck (by simp [hm]), hone, hexc]
  · have hnext := nextFlight_eq_some hk hsplit hword hbefore
    obtain ⟨regs, hret⟩ := returnRead_frame (lat := lat) hnext
    refine ⟨returnRead s c k lat, exec_readDataReturn haux (by rw [hret]; exact hqueue), ?_, ?_, ?_, latmax_returnRead hnext⟩
    · rw [hret]
    · rw [hret]
    · rw [hret]
  · have hret : returnRead s c k lat = s := by simp only [returnRead, nextFlight_eq_none hk]
    rw [exec_readDataReturn haux (by rw [hret]; exact hqueue), hret]
  · have hrelease := releaseTag_single hwait hchannel hopen hfree hstill
    exact (congrArg Host.Outcome.next (if_pos haux)).trans (by rw [hrelease])

end Sys2Proof.Proofs

/-! ### Packed decimal (R72 to R74, R330, R331) -/

namespace Sys2Proof.Proofs
open Sys2Proof Sys2Proof.Machine

/-! #### Digits of an encoding -/

/-- The encoding of `n` with sign nibble `g`, from its `j` lowest digits. -/
def packed (n g j : Nat) : Nat := (List.range j).foldl (fun t k => t + n / 10 ^ k % 10 * 16 ^ (k + 1)) g

theorem packed_zero {n g : Nat} : packed n g 0 = g := rfl

theorem packed_succ {n g j : Nat} : packed n g (j + 1) = packed n g j + n / 10 ^ j % 10 * 16 ^ (j + 1) := by
  simp [packed, List.range_succ]

theorem packed_lt {n g j : Nat} (hg : g < 16) : packed n g j < 16 ^ (j + 1) := by
  induction j with
  | zero => simpa [packed_zero] using hg
  | succ j ih =>
    have hdigit : n / 10 ^ j % 10 < 10 := Nat.mod_lt _ (by decide)
    have hpart : n / 10 ^ j % 10 * 16 ^ (j + 1) ≤ 9 * 16 ^ (j + 1) := Nat.mul_le_mul_right _ (by omega)
    rw [packed_succ, pow_succ 16 (j + 1)]
    omega

/-- Nibble `k + 1` is digit `k` of the value. -/
theorem packed_digit {n g j k : Nat} (hg : g < 16) (hk : k < j) : packed n g j / 16 ^ (k + 1) % 16 = n / 10 ^ k % 10 := by
  induction j with
  | zero => omega
  | succ j ih =>
    rw [packed_succ]
    rcases Nat.lt_succ_iff_lt_or_eq.mp hk with hlt | rfl
    · have hsplit : 16 ^ (j + 1) = 16 ^ (k + 1) * (16 * 16 ^ (j - k - 1)) := by
        rw [← pow_succ', ← pow_add]; congr 1; omega
      rw [hsplit, show n / 10 ^ j % 10 * (16 ^ (k + 1) * (16 * 16 ^ (j - k - 1))) = 16 ^ (k + 1) * (16 * (n / 10 ^ j % 10 * 16 ^ (j - k - 1))) by ring,
        Nat.add_mul_div_left _ _ (by positivity), Nat.add_mul_mod_self_left]
      exact ih hlt
    · have hdigit : n / 10 ^ k % 10 < 10 := Nat.mod_lt _ (by decide)
      rw [Nat.add_mul_div_right _ _ (by positivity), Nat.div_eq_of_lt (packed_lt hg)]
      omega

theorem packed_sign {n g j : Nat} (hg : g < 16) : packed n g j % 16 = g := by
  induction j with
  | zero => exact Nat.mod_eq_of_lt hg
  | succ j ih => rw [packed_succ, pow_succ, ← Nat.mul_assoc, Nat.add_mul_mod_self_right, ih]

/-- A number is the sum of its digits by their places. -/
theorem foldl_digits {n j : Nat} : (List.range j).foldl (fun t k => t + n / 10 ^ k % 10 * 10 ^ k) 0 = n % 10 ^ j := by
  induction j with
  | zero => simp [Nat.mod_one]
  | succ j ih =>
    rw [List.range_succ, List.foldl_append, ih, pow_succ, Nat.mod_mul]
    simp [Nat.mul_comm]

/-! #### The encoding that the device writes -/

theorem encodeK48_toNat {i : Int} : (encodeK48 i).toNat = packed i.natAbs (if i < 0 then 0xD else 0xC) 11 := by
  have hlt : packed i.natAbs (if i < 0 then 0xD else 0xC) 11 < 16 ^ 12 := packed_lt (by split_ifs <;> decide)
  rw [encodeK48, BitVec.toNat_ofNat]
  exact Nat.mod_eq_of_lt (hlt.trans_eq (by norm_num))

theorem nibble_encodeK48_zero {i : Int} : nibble (encodeK48 i) 0 = if i < 0 then 0xD else 0xC := by
  rw [nibble, encodeK48_toNat, pow_zero, Nat.div_one]
  exact packed_sign (by split_ifs <;> decide)

theorem nibble_encodeK48_succ {i : Int} {k : Nat} (hk : k < 11) : nibble (encodeK48 i) (k + 1) = i.natAbs / 10 ^ k % 10 := by
  rw [nibble, encodeK48_toNat]
  exact packed_digit (by split_ifs <;> decide) hk

theorem invalidK48_encodeK48 {i : Int} : invalidK48 (encodeK48 i) = none := by
  have hdigits : (List.range 11).any (fun k => decide (9 < nibble (encodeK48 i) (k + 1))) = false := by
    refine List.any_eq_false.mpr fun k hk => ?_
    rw [nibble_encodeK48_succ (List.mem_range.mp hk)]
    have : i.natAbs / 10 ^ k % 10 < 10 := Nat.mod_lt _ (by decide)
    simp only [decide_eq_true_eq]
    omega
  rw [invalidK48, hdigits, nibble_encodeK48_zero]
  split_ifs <;> simp_all

theorem valueK48_encodeK48 {i : Int} (h : i.natAbs ≤ 99999999999) : valueK48 (encodeK48 i) = i := by
  have hsum : (List.range 11).foldl (fun n k => n + nibble (encodeK48 i) (k + 1) * 10 ^ k) 0 = i.natAbs := by
    rw [← Nat.mod_eq_of_lt (show i.natAbs < 10 ^ 11 by omega), ← foldl_digits]
    exact List.foldl_ext _ _ _ fun n k hk => by rw [nibble_encodeK48_succ (List.mem_range.mp hk)]
  simp only [valueK48, hsum, nibble_encodeK48_zero]
  split_ifs <;> omega

/-! #### The instructions -/

theorem damaged_eq_nil {s : State} (h : MicrocodeSound s) : damaged s 0x58000000 0x5800C000 = [] := by
  refine List.map_eq_nil_iff.mpr (List.filter_eq_nil_iff.mpr fun x hx hbad => ?_)
  simp only [Bool.and_eq_true, decide_eq_true_eq, bne_iff_ne] at hbad
  exact hbad.2 (h x hx hbad.1.1 hbad.1.2)

/-- Sound microcode meets no word in error, so its instruction has its effect. -/
theorem microcoded_of_sound {c : Nat} {s : State} {body : State → Res} (h : MicrocodeSound s) : microcoded c s body = body s := by
  rw [microcoded, damaged_eq_nil h]
  rfl

section
variable {s u : State} {c : Core} {d a b : Reg} {r : BitVec 8}

/-- An instruction of microcode that issues ends as its effect on the fetched state does. -/
theorem runIns_microcoded {i : Instr} {body : State → Res} (hl : i.wellFormed = true) (hi : Issues .plain none s u c) (hm : MicrocodeSound u) :
    runIns c { legal := i.wellFormed, cost := fun _ => none } (fun t0 => microcoded c t0 body) s = .next (finish s c (body u)) := by
  rw [Laws.runIns_issues (u := u) hi hl (by simp), Laws.effect_plain rfl, microcoded_of_sound hm]

theorem finish_decimalExc : finish s c (.trap (decimalExc r) u) = trapTo s u c { cause := 0x07, detail := r.setWidth 32, reason := r } := rfl

theorem finish_putK48_fits {v : Int} (h : v.natAbs ≤ 99999999999) : finish s c (putK48 u c d v) = completes (setG u c d (encodeK48 v)) c := by
  rw [putK48, if_neg (by omega)]
  rfl

theorem finish_putK48_overflows {v : Int} (h : ¬ v.natAbs ≤ 99999999999) :
    finish s c (putK48 u c d v) = trapTo s u c { cause := 0x07, detail := (3 : BitVec 8).setWidth 32, reason := 3 } := by
  rw [putK48, if_pos (by omega)]
  rfl

/-- An instruction that ends by `putK48` writes its result, or overflows. -/
theorem writes_of_putK48 {i : Instr} {v : Int} (h : exec i s = .next (finish s c (putK48 u c d v))) :
    if v.natAbs ≤ 99999999999 then exec i s = .next (completes (setG u c d (encodeK48 v)) c)
    else exec i s = .next (trapTo s u c { cause := 0x07, detail := (3 : BitVec 8).setWidth 32, reason := 3 }) := by
  split_ifs with hv
  · rw [h, finish_putK48_fits hv]
  · rw [h, finish_putK48_overflows hv]

variable (hi : Issues .plain none s u c) (hm : MicrocodeSound u)
include hi hm

section
variable {i : Instr} {f : Int → Int → Int} (hl : i.wellFormed = true)
include hl

theorem runK48_first_invalid (hx : invalidK48 (getG u c a) = some r) :
    runK48 c i d a b f s = .next (trapTo s u c { cause := 0x07, detail := r.setWidth 32, reason := r }) := by
  rw [runK48, runIns_microcoded hl hi hm]
  simp only [hx, Option.some_or, finish_decimalExc]

theorem runK48_second_invalid (hx : invalidK48 (getG u c a) = none) (hy : invalidK48 (getG u c b) = some r) :
    runK48 c i d a b f s = .next (trapTo s u c { cause := 0x07, detail := r.setWidth 32, reason := r }) := by
  rw [runK48, runIns_microcoded hl hi hm]
  simp only [hx, hy, Option.none_or, finish_decimalExc]

theorem runK48_valid (hx : invalidK48 (getG u c a) = none) (hy : invalidK48 (getG u c b) = none) :
    runK48 c i d a b f s = .next (finish s c (putK48 u c d (f (valueK48 (getG u c a)) (valueK48 (getG u c b))))) := by
  rw [runK48, runIns_microcoded hl hi hm]
  simp only [hx, hy, Option.none_or]

end

variable (hc : c.val ≠ 4)
include hc

theorem execDtob_invalid (hx : invalidK48 (getG u c a) = some r) :
    execDtob c d a s = .next (trapTo s u c { cause := 0x07, detail := r.setWidth 32, reason := r }) := by
  rw [execDtob, runIns_microcoded (by simpa [Instr.wellFormed, notLifeline] using hc) hi hm]
  simp only [hx, finish_decimalExc]

theorem execDtob_valid (hx : invalidK48 (getG u c a) = none) :
    execDtob c d a s = .next (completes (setG u c d (BitVec.ofInt 48 (valueK48 (getG u c a)))) c) := by
  rw [execDtob, runIns_microcoded (by simpa [Instr.wellFormed, notLifeline] using hc) hi hm]
  simp only [hx]
  rfl

theorem execBtod_issues : execBtod c d a s = .next (finish s c (putK48 u c d (getG u c a).toInt)) := by
  rw [execBtod, runIns_microcoded (by simpa [Instr.wellFormed, notLifeline] using hc) hi hm]

end

/-- Settles O16: the encoding by its digits, each instruction by its effect once its microcode is sound. -/
theorem decimalResults : Obligations.DecimalResults := by
  unfold Obligations.DecimalResults
  refine ⟨fun i h => ⟨invalidK48_encodeK48, valueK48_encodeK48 h, ?_⟩, fun s u c d a b hc hi hm => ?_⟩
  · simpa [nibble] using nibble_encodeK48_zero (i := i)
  have hadd : (Instr.dadd c d a b).wellFormed = true := by simpa [Instr.wellFormed, notLifeline] using hc
  have hsub : (Instr.dsub c d a b).wellFormed = true := by simpa [Instr.wellFormed, notLifeline] using hc
  refine ⟨fun r hx => ⟨runK48_first_invalid hi hm hadd hx, runK48_first_invalid hi hm hsub hx, execDtob_invalid hi hm hc hx⟩,
    fun r hx hy => ⟨runK48_second_invalid hi hm hadd hx hy, runK48_second_invalid hi hm hsub hx hy⟩,
    fun hx => execDtob_valid hi hm hc hx,
    fun hx hy => ⟨writes_of_putK48 (runK48_valid hi hm hadd hx hy), writes_of_putK48 (runK48_valid hi hm hsub hx hy)⟩,
    writes_of_putK48 (execBtod_issues hi hm hc)⟩

end Sys2Proof.Proofs

/-! ### Rounding an exact value into a format (R61, R64 to R66, R365, R367) -/

namespace Sys2Proof.Proofs
open Sys2Proof Sys2Proof.Machine

/-! #### Formats and their magnitudes -/

section

/-- A format with a normal and a subnormal range. -/
def Proper (m : Fmt) : Prop := 2 ≤ m.e ∧ 1 ≤ m.f

theorem proper_fmtOf {t : BitVec 4} : Proper (fmtOf t) := by
  unfold fmtOf
  split <;> exact ⟨by decide, by decide⟩

variable {m : Fmt}

theorem bias_pos (hm : Proper m) : 1 ≤ m.bias := by
  have : 2 ^ 1 ≤ 2 ^ (m.e - 1) := Nat.pow_le_pow_right (by decide) (by have := hm.1; omega)
  unfold Fmt.bias
  omega

theorem top_eq (hm : Proper m) : m.top = 2 * m.bias + 1 := by
  have hpow : 2 ^ m.e = 2 * 2 ^ (m.e - 1) := by rw [← pow_succ']; congr 1; have := hm.1; omega
  have : 0 < 2 ^ (m.e - 1) := by positivity
  unfold Fmt.top Fmt.bias
  omega

/-- The exponent of the unit in the last place of binade number `i`, counted from the subnormal one and the first normal one. -/
def grid (m : Fmt) (i : Nat) : ℤ := i + 1 - m.bias - m.f

/-- A position in the order of magnitudes, by its binade and its significand. -/
theorem magnitude_eq {i k : Nat} (hi : i = 0 ∨ 2 ^ m.f ≤ k) (hk : k ≤ 2 ^ (m.f + 1)) :
    magnitude m (i * 2 ^ m.f + k) = k * 2 ^ grid m i := by
  have hpos : 0 < 2 ^ m.f := by positivity
  rw [pow_succ] at hk
  unfold magnitude grid
  rcases Nat.lt_or_ge k (2 ^ m.f) with hlt | hge
  · obtain rfl : i = 0 := by omega
    simp [hlt]
  obtain ⟨r, rfl⟩ := Nat.exists_eq_add_of_le hge
  rw [if_neg (by nlinarith)]
  rcases Nat.lt_or_ge r (2 ^ m.f) with hr | hr
  · rw [show i * 2 ^ m.f + (2 ^ m.f + r) = r + 2 ^ m.f * (i + 1) by ring, Nat.add_mul_mod_self_left, Nat.add_mul_div_left _ _ hpos,
      Nat.mod_eq_of_lt hr, Nat.div_eq_of_lt hr]
    push_cast
    ring_nf
  · obtain rfl : r = 2 ^ m.f := by omega
    rw [show i * 2 ^ m.f + (2 ^ m.f + 2 ^ m.f) = 2 ^ m.f * (i + 2) by ring, Nat.mul_mod_right, Nat.mul_div_cancel_left _ hpos]
    have hstep : (2 : ℚ) ^ (((i + 2 : ℕ) : ℤ) - m.bias - m.f) = 2 * 2 ^ ((i : ℤ) + 1 - m.bias - m.f) := by
      rw [← zpow_one_add₀ two_ne_zero]; congr 1; push_cast; ring
    rw [hstep]
    push_cast
    ring

/-- Every position has a binade and a significand. -/
theorem exists_place (m : Fmt) (n : Nat) : ∃ i k, n = i * 2 ^ m.f + k ∧ (i = 0 ∨ 2 ^ m.f ≤ k) ∧ k < 2 ^ (m.f + 1) := by
  have hpos : 0 < 2 ^ m.f := by positivity
  rcases Nat.lt_or_ge n (2 ^ m.f) with h | h
  · exact ⟨0, n, by simp, .inl rfl, by rw [pow_succ]; omega⟩
  · have hdiv : 1 ≤ n / 2 ^ m.f := (Nat.one_le_div_iff hpos).mpr h
    have hmod := Nat.mod_lt n hpos
    refine ⟨n / 2 ^ m.f - 1, 2 ^ m.f + n % 2 ^ m.f, ?_, .inr (by omega), by rw [pow_succ]; omega⟩
    have := Nat.div_add_mod' n (2 ^ m.f)
    rw [Nat.sub_mul]
    have : 2 ^ m.f ≤ n / 2 ^ m.f * 2 ^ m.f := Nat.le_mul_of_pos_left _ hdiv
    omega

theorem magnitude_strictMono (m : Fmt) : StrictMono (magnitude m) := by
  refine strictMono_nat_of_lt_succ fun n => ?_
  obtain ⟨i, k, rfl, hi, hk⟩ := exists_place m n
  rw [Nat.add_assoc, magnitude_eq hi hk.le, magnitude_eq (by omega) hk]
  have : (0 : ℚ) < 2 ^ grid m i := by positivity
  push_cast
  nlinarith

theorem magnitude_zero (m : Fmt) : magnitude m 0 = 0 := by simp [magnitude]

/-- The position of a value is unique. -/
theorem place_unique {n n' : Nat} {x : ℚ} (h : magnitude m n ≤ x) (h' : x < magnitude m (n + 1)) (g : magnitude m n' ≤ x)
    (g' : x < magnitude m (n' + 1)) : n = n' := by
  have h1 := (magnitude_strictMono m).lt_iff_lt.mp (h.trans_lt g')
  have h2 := (magnitude_strictMono m).lt_iff_lt.mp (g.trans_lt h')
  omega

theorem magnitude_infinity (hm : Proper m) : magnitude m (m.top * 2 ^ m.f) = 2 ^ ((m.bias : ℤ) + 1) := by
  rw [top_eq hm, show (2 * m.bias + 1) * 2 ^ m.f = 2 * m.bias * 2 ^ m.f + 2 ^ m.f by ring,
    magnitude_eq (.inr le_rfl) (Nat.pow_le_pow_right (by decide) (by omega)), grid]
  rw [Nat.cast_pow, ← zpow_natCast, Nat.cast_ofNat, ← zpow_add₀ two_ne_zero]
  congr 1
  push_cast
  ring

theorem magnitude_normal (m : Fmt) : magnitude m (2 ^ m.f) = 2 ^ (1 - (m.bias : ℤ)) := by
  have h := magnitude_eq (m := m) (i := 0) (k := 2 ^ m.f) (.inl rfl) (Nat.pow_le_pow_right (by decide) (by omega))
  rw [Nat.zero_mul, Nat.zero_add] at h
  rw [h, grid, Nat.cast_pow, ← zpow_natCast, Nat.cast_ofNat, ← zpow_add₀ two_ne_zero]
  congr 1
  push_cast
  ring

end

/-! #### Rounding to a multiple of a power of two -/

section

/-- The magnitude of an exact value. -/
def size (v : Machine.Dyadic) : ℚ := v.m * 2 ^ v.e

/-- What the magnitude of an exact value exceeds a point by. -/
def excess (v : Machine.Dyadic) (q : ℚ) : ℚ := size v - q

variable {v : Machine.Dyadic} {rm : BitVec 3} {q : ℤ}

/-- A remainder `r` of a step of 2 × `half` decides as the excess over the step's ends and its middle does. -/
theorem roundsUp_remainder {lo hi u : ℚ} {d : ℚ → ℚ} {r half : ℕ} (hu : 0 < u) (hlo : d lo = r * u)
    (hmid : d ((lo + hi) / 2) = (r - half) * u) :
    (0 < d lo ↔ ¬r = 0) ∧ (0 < d ((lo + hi) / 2) ↔ half < r) ∧ (d ((lo + hi) / 2) = 0 ↔ r = half) ∧ (0 ≤ d ((lo + hi) / 2) ↔ half ≤ r) := by
  rw [hlo, hmid]
  refine ⟨?_, ?_, ?_, ?_⟩
  · rw [mul_pos_iff_of_pos_right hu, Nat.cast_pos, Nat.pos_iff_ne_zero]
  · rw [mul_pos_iff_of_pos_right hu, sub_pos, Nat.cast_lt]
  · rw [mul_eq_zero_iff_right hu.ne', sub_eq_zero, Nat.cast_inj]
  · rw [mul_nonneg_iff_of_pos_right hu, sub_nonneg, Nat.cast_le]

/-- A multiple of 2^q is not rounded. -/
theorem roundAt_exact (h : q ≤ v.e) : ∃ k : ℕ, size v = k * 2 ^ q ∧ roundAt rm v q = (k, false) := by
  refine ⟨v.m * 2 ^ (v.e - q).toNat, ?_, if_pos h⟩
  have hpow : (2 : ℚ) ^ v.e = 2 ^ (v.e - q).toNat * 2 ^ q := by
    rw [← zpow_natCast, ← zpow_add₀ two_ne_zero]; congr 1; omega
  rw [size, hpow]
  push_cast
  ring

theorem roundsUp_exact {neg odd : Bool} {lo hi : ℚ} {d : ℚ → ℚ} (hlo : d lo = 0) (hmid : d ((lo + hi) / 2) < 0) :
    roundsUp rm neg odd lo hi d = false := by
  unfold roundsUp
  split <;> simp [hlo, hmid.not_gt, hmid.ne, hmid]

/-- A value between two neighbouring multiples of 2^q is rounded as R64 says. -/
theorem roundAt_eq (v : Machine.Dyadic) (rm : BitVec 3) (q : ℤ) : ∃ k : ℕ, k * 2 ^ q ≤ size v ∧ size v < (k + 1) * 2 ^ q ∧
    roundAt rm v q = (if roundsUp rm v.s (k % 2 == 1) (k * 2 ^ q) ((k + 1) * 2 ^ q) (excess v) then k + 1 else k,
      decide (0 < excess v (k * 2 ^ q))) := by
  have hstep : (0 : ℚ) < 2 ^ q := by positivity
  by_cases hq : q ≤ v.e
  · obtain ⟨k, hsize, hround⟩ := roundAt_exact (rm := rm) hq
    have hlo : excess v (k * 2 ^ q) = 0 := by rw [excess, hsize, sub_self]
    refine ⟨k, hsize.ge, by rw [hsize]; linarith, ?_⟩
    rw [roundsUp_exact hlo (by rw [excess, hsize]; linarith), hlo, hround]
    rfl
  · obtain ⟨d, hd⟩ : ∃ d, (q - v.e).toNat = d + 1 := ⟨(q - v.e).toNat - 1, by omega⟩
    have hpow : (2 : ℚ) ^ q = 2 ^ (d + 1) * 2 ^ v.e := by
      rw [← hd, ← zpow_natCast, ← zpow_add₀ two_ne_zero]; congr 1; omega
    have hu : (0 : ℚ) < 2 ^ v.e := by positivity
    have hdiv : ((v.m / 2 ^ (d + 1) : ℕ) : ℚ) * 2 ^ (d + 1) + (v.m % 2 ^ (d + 1) : ℕ) = v.m := by exact_mod_cast Nat.div_add_mod' _ _
    have hmod : ((v.m % 2 ^ (d + 1) : ℕ) : ℚ) < 2 ^ (d + 1) := by exact_mod_cast Nat.mod_lt _ (by positivity)
    simp only [roundAt, if_neg hq, hd, Nat.add_sub_cancel]
    generalize v.m / 2 ^ (d + 1) = k at *
    generalize v.m % 2 ^ (d + 1) = r at *
    have hlo : excess v (k * 2 ^ q) = r * 2 ^ v.e := by rw [excess, size, hpow, ← hdiv]; ring
    have hmid : excess v ((k * 2 ^ q + (k + 1) * 2 ^ q) / 2) = (r - (2 ^ d : ℕ)) * 2 ^ v.e := by
      rw [excess, size, hpow, ← hdiv]; push_cast; ring
    obtain ⟨hpos, hover, htie, hat⟩ := roundsUp_remainder hu hlo hmid
    refine ⟨k, ?_, ?_, ?_⟩
    · rw [size, hpow, ← hdiv]; nlinarith [show (0:ℚ) ≤ r from r.cast_nonneg]
    · rw [size, hpow, ← hdiv]; nlinarith
    · unfold roundsUp
      simp only [hpos, hover, htie, hat, decide_not, bne, beq_eq_decide] <;> rfl

/-- Rounding to a coarser step than the leading bit needs decides on a carry by the last step below it. -/
theorem roundAt_fst_eq_iff {n : ℕ} (h : size v < (n + 1 : ℕ) * 2 ^ q) : (roundAt rm v q).1 = n + 1 ↔
    n * 2 ^ q ≤ size v ∧ roundsUp rm v.s (n % 2 == 1) (n * 2 ^ q) ((n + 1) * 2 ^ q) (excess v) = true := by
  have hstep : (0 : ℚ) < 2 ^ q := by positivity
  obtain ⟨k, hlo, hhi, hround⟩ := roundAt_eq v rm q
  have hk : k ≤ n := by
    have : (k : ℚ) < (n + 1 : ℕ) := lt_of_mul_lt_mul_right (hlo.trans_lt h) hstep.le
    exact Nat.lt_succ_iff.mp (by exact_mod_cast this)
  rw [hround]
  rcases hk.lt_or_eq with hlt | rfl
  · have hbelow : ¬ n * 2 ^ q ≤ size v := by
      have : ((k : ℚ) + 1) ≤ n := by exact_mod_cast hlt
      nlinarith
    simp only [hbelow, false_and, iff_false]
    split_ifs <;> omega
  · simp only [hlo, true_and]
    split_ifs with hup <;> simp [hup]

/-- The exponent of the leading bit. -/
def leading (v : Machine.Dyadic) : ℤ := v.e + Nat.log2 v.m

theorem leading_le_size (hv : v.m ≠ 0) : 2 ^ leading v ≤ size v := by
  have h : ((2 ^ Nat.log2 v.m : ℕ) : ℚ) ≤ v.m := by exact_mod_cast Nat.log2_self_le hv
  rw [leading, size, zpow_add₀ two_ne_zero, zpow_natCast, mul_comm]
  push_cast at h
  gcongr

theorem size_lt_leading (v : Machine.Dyadic) : size v < 2 ^ (leading v + 1) := by
  have h : (v.m : ℚ) < (2 ^ (Nat.log2 v.m + 1) : ℕ) := by exact_mod_cast Nat.lt_log2_self
  rw [leading, size, add_assoc, zpow_add₀ two_ne_zero, mul_comm, ← Nat.cast_succ, zpow_natCast]
  push_cast at h
  gcongr

end

/-! #### One rounding into a format -/

section

variable {m : Fmt} {md : FMode} {v : Machine.Dyadic} {rm : BitVec 3} {i k n : ℕ}

/-- The place of the last bit that a value keeps in a format (R65). -/
def lastBit (m : Fmt) (v : Machine.Dyadic) : ℤ := if leading v < 1 - (m.bias : ℤ) then 1 - m.bias - m.f else leading v - m.f

/-- The exponent of a value rounded with no limit on exponents (R365, R367). -/
def roundedExponent (m : Fmt) (rm : BitVec 3) (v : Machine.Dyadic) : ℤ :=
  if (roundAt rm v (leading v - m.f)).1 = 2 ^ (m.f + 1) then leading v + 1 else leading v

theorem round_cases : m.round md v =
    if (m.bias : ℤ) < roundedExponent m md.rm v then { v := m.overflow md.rm v.s, fl := flagOF ||| flagNX }
    else if decide (roundedExponent m md.rm v < 1 - (m.bias : ℤ)) = true ∧ md.ftz = true then { v := m.zero v.s, fl := flagUF ||| flagNX }
    else
      { v := m.pack v.s 0 0 + ((lastBit m v - (1 - m.bias - m.f)).toNat * 2 ^ m.f + (roundAt md.rm v (lastBit m v)).1)
        fl := (if (roundAt md.rm v (lastBit m v)).2 then flagNX else 0) |||
          (if decide (roundedExponent m md.rm v < 1 - (m.bias : ℤ)) && (roundAt md.rm v (lastBit m v)).2 then flagUF else 0) } := rfl

/-- The largest value below the normal range that has the precision of that range (R367). -/
def belowNormal (m : Fmt) : ℚ := magnitude m (2 ^ m.f) - magnitude m (2 ^ m.f) / 2 ^ (m.f + 1)

/-- The position to which a value between positions `n` and `n + 1` rounds. -/
def neighbour (m : Fmt) (rm : BitVec 3) (v : Machine.Dyadic) (n : ℕ) : ℕ :=
  if roundsUp rm v.s (n % 2 == 1) (magnitude m n) (magnitude m (n + 1)) (excess v) then n + 1 else n

/-- A value from position `n` on is tiny after rounding (R367). -/
def isTiny (m : Fmt) (rm : BitVec 3) (v : Machine.Dyadic) (n : ℕ) : Bool :=
  decide (n < 2 ^ m.f) && !(decide (0 ≤ excess v (belowNormal m)) &&
    roundsUp rm v.s true (belowNormal m) (magnitude m (2 ^ m.f)) (excess v))

/-- The value lies from position `i` × 2^f + `k` to the next; `i` is its binade, `k` its significand cut off at the last bit. -/
structure Placed (m : Fmt) (v : Machine.Dyadic) (i k : ℕ) : Prop where
  binade : i = 0 ∨ 2 ^ m.f ≤ k
  lt : k < 2 ^ (m.f + 1)
  last : lastBit m v = grid m i
  le_size : k * 2 ^ grid m i ≤ size v
  size_lt : size v < (k + 1) * 2 ^ grid m i

theorem Placed.lower (h : Placed m v i k) : magnitude m (i * 2 ^ m.f + k) = k * 2 ^ grid m i := magnitude_eq h.binade h.lt.le

theorem Placed.upper (h : Placed m v i k) : magnitude m (i * 2 ^ m.f + k + 1) = (k + 1) * 2 ^ grid m i := by
  rw [Nat.add_assoc, magnitude_eq (h.binade.imp_right (Nat.le_succ_of_le)) h.lt, Nat.cast_succ]

theorem pow_mul_zpow (a : ℕ) (q : ℤ) : ((2 ^ a : ℕ) : ℚ) * 2 ^ q = 2 ^ (q + a) := by
  rw [zpow_add₀ two_ne_zero, zpow_natCast, mul_comm]
  push_cast
  rfl

/-- Significands of a step of 2^q are bounded as the value is by powers of two. -/
theorem significand_lt {a : ℕ} {q : ℤ} {x : ℚ} (hlo : k * 2 ^ q ≤ x) (hx : x < 2 ^ (q + a)) : k < 2 ^ a := by
  rw [← pow_mul_zpow] at hx
  exact_mod_cast lt_of_mul_lt_mul_right (hlo.trans_lt hx) (by positivity)

theorem le_significand {a : ℕ} {q : ℤ} {x : ℚ} (hhi : x < (k + 1) * 2 ^ q) (hx : 2 ^ (q + a) ≤ x) : 2 ^ a ≤ k := by
  rw [← pow_mul_zpow] at hx
  exact Nat.lt_succ_iff.mp (by exact_mod_cast lt_of_mul_lt_mul_right (hx.trans_lt hhi) (by positivity))

theorem lastBit_subnormal (h : leading v < 1 - (m.bias : ℤ)) : lastBit m v = grid m 0 := by
  rw [lastBit, if_pos h, grid]
  simp

theorem lastBit_normal (h : ¬ leading v < 1 - (m.bias : ℤ)) : lastBit m v = leading v - m.f := if_neg h

theorem exists_placed (hv : v.m ≠ 0) : ∃ i k, Placed m v i k := by
  obtain ⟨k, hlo, hhi, -⟩ := roundAt_eq v 0 (lastBit m v)
  by_cases hsub : leading v < 1 - (m.bias : ℤ)
  · refine ⟨0, k, .inl rfl, ?_, lastBit_subnormal hsub, lastBit_subnormal (m := m) hsub ▸ hlo, lastBit_subnormal (m := m) hsub ▸ hhi⟩
    refine significand_lt hlo ((size_lt_leading v).trans_le (zpow_le_zpow_right₀ one_le_two ?_))
    rw [lastBit_subnormal hsub, grid]
    push_cast
    omega
  · have hgrid : lastBit m v = grid m (leading v - 1 + m.bias).toNat := by
      rw [lastBit_normal hsub, grid]
      omega
    refine ⟨_, k, .inr (le_significand hhi ?_), significand_lt hlo ?_, hgrid, hgrid ▸ hlo, hgrid ▸ hhi⟩
    · rw [lastBit_normal hsub, sub_add_cancel]
      exact leading_le_size hv
    · rw [lastBit_normal hsub]
      convert size_lt_leading v using 2
      push_cast
      ring

/-- Subnormal places are those below the normal exponents. -/
theorem Placed.subnormal (h : Placed m v i k) (hsub : leading v < 1 - (m.bias : ℤ)) : i = 0 ∧ k < 2 ^ m.f := by
  have hi : i = 0 := by
    have := h.last
    rw [lastBit_subnormal hsub, grid, grid] at this
    omega
  subst hi
  refine ⟨rfl, significand_lt h.le_size ((size_lt_leading v).trans_le (zpow_le_zpow_right₀ one_le_two ?_))⟩
  rw [grid]
  push_cast
  omega

theorem Placed.normal (hv : v.m ≠ 0) (h : Placed m v i k) (hsub : ¬ leading v < 1 - (m.bias : ℤ)) :
    leading v = i + 1 - m.bias ∧ 2 ^ m.f ≤ k := by
  have hlead : leading v = i + 1 - m.bias := by
    have := h.last
    rw [lastBit_normal hsub, grid] at this
    omega
  refine ⟨hlead, le_significand h.size_lt ?_⟩
  rw [grid, show (i : ℤ) + 1 - m.bias - m.f + m.f = leading v by omega]
  exact leading_le_size hv

theorem place_mod_two (hm : Proper m) : (i * 2 ^ m.f + k) % 2 = k % 2 := by
  obtain ⟨f, hf⟩ : ∃ f, m.f = f + 1 := ⟨m.f - 1, by have := hm.2; omega⟩
  rw [hf, pow_succ, ← Nat.mul_assoc, Nat.mul_add_mod_self_right]

/-- The model's rounded significand is the neighbour that R64 picks. -/
theorem Placed.rounds (hm : Proper m) (h : Placed m v i k) :
    i * 2 ^ m.f + (roundAt rm v (lastBit m v)).1 = neighbour m rm v (i * 2 ^ m.f + k) ∧
    (roundAt rm v (lastBit m v)).2 = decide (0 < excess v (magnitude m (i * 2 ^ m.f + k))) := by
  obtain ⟨k', hlo, hhi, hround⟩ := roundAt_eq v rm (lastBit m v)
  have hstep : (0 : ℚ) < 2 ^ grid m i := by positivity
  rw [h.last] at hlo hhi
  have hk : k' = k := by
    have h1 : (k' : ℚ) < k + 1 := lt_of_mul_lt_mul_right (hlo.trans_lt h.size_lt) hstep.le
    have h2 : (k : ℚ) < k' + 1 := lt_of_mul_lt_mul_right (h.le_size.trans_lt hhi) hstep.le
    have h1' : k' < k + 1 := by exact_mod_cast h1
    have h2' : k < k' + 1 := by exact_mod_cast h2
    omega
  subst hk
  rw [hround, neighbour, place_mod_two hm, h.lower, h.upper, h.last]
  refine ⟨?_, rfl⟩
  dsimp only
  split_ifs <;> omega

theorem le_neighbour : n ≤ neighbour m rm v n := by
  unfold neighbour
  split_ifs <;> omega

theorem neighbour_le : neighbour m rm v n ≤ n + 1 := by
  unfold neighbour
  split_ifs <;> omega

/-- A value overflows where it rounds to infinity (R365). -/
theorem Placed.overflows_iff (hm : Proper m) (hv : v.m ≠ 0) (h : Placed m v i k) :
    (m.bias : ℤ) < roundedExponent m rm v ↔ m.top * 2 ^ m.f ≤ neighbour m rm v (i * 2 ^ m.f + k) := by
  have hbias := bias_pos hm
  have hpos : 0 < 2 ^ m.f := by positivity
  have hpow : 2 ^ (m.f + 1) = 2 * 2 ^ m.f := pow_succ' _ _
  have hlow := le_neighbour (m := m) (rm := rm) (v := v) (n := i * 2 ^ m.f + k)
  have hhigh := neighbour_le (m := m) (rm := rm) (v := v) (n := i * 2 ^ m.f + k)
  have hlt := h.lt
  have hround := (h.rounds (rm := rm) hm).1
  rw [top_eq hm]
  unfold roundedExponent
  by_cases hsub : leading v < 1 - (m.bias : ℤ)
  · obtain ⟨rfl, hk⟩ := h.subnormal hsub
    have hexp : ¬ (m.bias : ℤ) < (if (roundAt rm v (leading v - m.f)).1 = 2 ^ (m.f + 1) then leading v + 1 else leading v) := by
      split_ifs <;> omega
    simp only [hexp, false_iff, not_le]
    nlinarith
  · obtain ⟨hlead, hk⟩ := h.normal hv hsub
    rw [lastBit_normal hsub] at hround
    generalize (roundAt rm v (leading v - m.f)).1 = r at hround ⊢
    rw [← hround, hlead]
    split_ifs with hcarry
    · rw [hcarry, hpow, show i * 2 ^ m.f + 2 * 2 ^ m.f = (i + 2) * 2 ^ m.f by ring, Nat.mul_le_mul_right_iff hpos]
      omega
    · constructor
      · intro hover
        have : 2 * m.bias ≤ i := by omega
        nlinarith
      · intro hover
        by_contra hnot
        have : i + 1 ≤ 2 * m.bias := by omega
        have : r < 2 * 2 ^ m.f := by omega
        nlinarith

theorem belowNormal_eq (m : Fmt) : belowNormal m = ((2 ^ (m.f + 1) - 1 : ℕ) : ℚ) * 2 ^ (-(m.bias : ℤ) - m.f) := by
  have hpow : (2 : ℚ) ^ (1 - (m.bias : ℤ)) = 2 ^ (m.f + 1) * 2 ^ (-(m.bias : ℤ) - m.f) := by
    rw [← zpow_natCast, ← zpow_add₀ two_ne_zero]; congr 1; push_cast; ring
  rw [belowNormal, magnitude_normal, hpow, mul_div_cancel_left₀ _ (by positivity), Nat.cast_sub Nat.one_le_two_pow]
  push_cast
  ring

theorem le_belowNormal (m : Fmt) : 2 ^ (-(m.bias : ℤ)) ≤ belowNormal m := by
  have h : 2 ^ m.f ≤ 2 ^ (m.f + 1) - 1 := by
    rw [pow_succ]
    have : 0 < 2 ^ m.f := by positivity
    omega
  calc (2 : ℚ) ^ (-(m.bias : ℤ)) = ((2 ^ m.f : ℕ) : ℚ) * 2 ^ (-(m.bias : ℤ) - m.f) := by rw [pow_mul_zpow, sub_add_cancel]
    _ ≤ belowNormal m := by rw [belowNormal_eq]; gcongr

/-- A carry out of the bits that a value keeps with no limit on exponents. -/
theorem carries_iff : (roundAt rm v (leading v - m.f)).1 = 2 ^ (m.f + 1) ↔
    ((2 ^ (m.f + 1) - 1 : ℕ) : ℚ) * 2 ^ (leading v - m.f) ≤ size v ∧
    roundsUp rm v.s true (((2 ^ (m.f + 1) - 1 : ℕ) : ℚ) * 2 ^ (leading v - m.f)) (2 ^ (leading v + 1)) (excess v) = true := by
  have hone : 2 ^ (m.f + 1) - 1 + 1 = 2 ^ (m.f + 1) := Nat.sub_add_cancel Nat.one_le_two_pow
  have hend : ((2 ^ (m.f + 1) : ℕ) : ℚ) * 2 ^ (leading v - m.f) = 2 ^ (leading v + 1) := by
    rw [pow_mul_zpow]; congr 1; push_cast; ring
  have hodd : ((2 ^ (m.f + 1) - 1) % 2 == 1) = true := by
    rw [pow_succ]
    have : 0 < 2 ^ m.f := by positivity
    simp only [beq_iff_eq]
    omega
  have h := roundAt_fst_eq_iff (rm := rm) (v := v) (q := leading v - m.f) (n := 2 ^ (m.f + 1) - 1) (by rw [hone, hend]; exact size_lt_leading v)
  rwa [hone, ← Nat.cast_succ, Nat.succ_eq_add_one, hone, hend, hodd] at h

theorem Placed.tiny_iff (hv : v.m ≠ 0) (h : Placed m v i k) :
    decide (roundedExponent m rm v < 1 - (m.bias : ℤ)) = isTiny m rm v (i * 2 ^ m.f + k) := by
  unfold isTiny roundedExponent
  rw [Bool.eq_iff_iff]
  simp only [decide_eq_true_eq, Bool.and_eq_true, Bool.not_eq_true', Bool.and_eq_false_iff, decide_eq_false_iff_not, excess, sub_nonneg]
  by_cases hsub : leading v < 1 - (m.bias : ℤ)
  · obtain ⟨rfl, hk⟩ := h.subnormal hsub
    by_cases hnext : leading v + 1 = 1 - (m.bias : ℤ)
    · have hcarry := carries_iff (m := m) (rm := rm) (v := v)
      rw [hnext, show leading v - (m.f : ℤ) = -(m.bias : ℤ) - m.f by omega, ← belowNormal_eq, ← magnitude_normal] at hcarry
      have hk' : 0 * 2 ^ m.f + k < 2 ^ m.f := by omega
      rw [← Bool.not_eq_true, ← not_and_or, ← hcarry, show leading v - (m.f : ℤ) = -(m.bias : ℤ) - m.f by omega]
      simp only [hk', true_and]
      split_ifs with hc <;> simp only [hc, not_true_eq_false, not_false_eq_true, iff_true, iff_false] <;> omega
    · have hsmall : size v < belowNormal m :=
        (size_lt_leading v).trans_le ((zpow_le_zpow_right₀ one_le_two (by omega)).trans (le_belowNormal m))
      have hk' : 0 * 2 ^ m.f + k < 2 ^ m.f := by omega
      simp only [hk', hsmall.not_ge, not_false_eq_true, true_or, and_true, iff_true]
      split_ifs <;> omega
  · obtain ⟨hlead, hk⟩ := h.normal hv hsub
    have : ¬ i * 2 ^ m.f + k < 2 ^ m.f := by omega
    simp only [this, false_and, iff_false]
    split_ifs <;> omega

/-- The rounding of the model by the position of the value. -/
theorem Placed.round_eq (hm : Proper m) (hv : v.m ≠ 0) (h : Placed m v i k) :
    let n := i * 2 ^ m.f + k
    let r := neighbour m md.rm v n
    let inexact := decide (0 < excess v (magnitude m n))
    m.round md v =
      if m.top * 2 ^ m.f ≤ r then { v := m.overflow md.rm v.s, fl := flagOF ||| flagNX }
      else if isTiny m md.rm v n = true ∧ md.ftz = true then { v := m.zero v.s, fl := flagUF ||| flagNX }
      else
        { v := m.pack v.s 0 0 + r
          fl := (if inexact then flagNX else 0) ||| (if isTiny m md.rm v n && inexact then flagUF else 0) } := by
  have hi : (lastBit m v - (1 - m.bias - m.f)).toNat = i := by rw [h.last, grid]; omega
  rw [round_cases, hi, (h.rounds hm).1, (h.rounds hm).2, h.tiny_iff hv]
  simp only [h.overflows_iff hm hv]

/-! #### Results of R65 and R365 to R367 -/

theorem pack_eq_encoding {s : Bool} {e f : ℕ} : m.pack s e f = encoding m s (e * 2 ^ m.f + f) := by
  unfold Fmt.pack encoding
  cases s <;> simp [Nat.add_assoc]

theorem zero_eq_encoding {s : Bool} : m.zero s = encoding m s 0 := by
  simp [Fmt.zero, pack_eq_encoding]

theorem inf_eq_encoding {s : Bool} : m.inf s = encoding m s (m.top * 2 ^ m.f) := by
  simp [Fmt.inf, pack_eq_encoding]

theorem max_eq_encoding (hm : Proper m) {s : Bool} : m.max s = encoding m s (m.top * 2 ^ m.f - 1) := by
  have hbias := bias_pos hm
  have hpos : 0 < 2 ^ m.f := by positivity
  rw [Fmt.max, pack_eq_encoding, top_eq hm, Nat.add_sub_cancel, Nat.add_mul, Nat.one_mul, Nat.add_sub_assoc hpos]

/-- An overflow gives infinity or the largest finite value as the table of R365 says. -/
theorem overflow_eq (hm : Proper m) (hrm : rm.toNat ≤ 4) {s : Bool} : m.overflow rm s = encoding m s
    (if (rm == 0 || rm == 4 || (rm == 2 && !s) || (rm == 3 && s)) = true then m.top * 2 ^ m.f else m.top * 2 ^ m.f - 1) := by
  have hcases : rm = 0 ∨ rm = 1 ∨ rm = 2 ∨ rm = 3 ∨ rm = 4 := by
    revert hrm
    revert rm
    decide
  unfold Fmt.overflow
  rw [max_eq_encoding hm, inf_eq_encoding]
  rcases hcases with rfl | rfl | rfl | rfl | rfl <;> cases s <;> rfl

end

/-! #### Values that stand for an exact one -/

section

variable {m : Fmt} {md : FMode} {v : Machine.Dyadic} {rm : BitVec 3} {d : ℚ → ℚ} {n : ℕ}

/-- `d` places the exact value that `v` stands for as `v` lies among the points that decide how a format rounds: those of at most
f + 2 bits, and the next power of two. -/
def Tracks (m : Fmt) (v : Machine.Dyadic) (d : ℚ → ℚ) : Prop :=
  ∀ (k : ℕ) (j : ℤ), k ≤ 2 ^ (m.f + 2) → SignType.sign (d (k * 2 ^ j)) = SignType.sign (excess v (k * 2 ^ j))

theorem signs_agree {a b : ℚ} (h : SignType.sign a = SignType.sign b) :
    (0 < a ↔ 0 < b) ∧ (0 ≤ a ↔ 0 ≤ b) ∧ (a < 0 ↔ b < 0) ∧ (a = 0 ↔ b = 0) := by
  have hneg : a < 0 ↔ b < 0 := by rw [← sign_eq_neg_one_iff, h, sign_eq_neg_one_iff]
  exact ⟨by rw [← sign_eq_one_iff, h, sign_eq_one_iff], not_iff_not.mp (by simpa using hneg), hneg, by rw [← sign_eq_zero_iff, h, sign_eq_zero_iff]⟩

theorem roundsUp_congr {neg odd : Bool} {lo hi : ℚ} {d d' : ℚ → ℚ} (hlo : SignType.sign (d lo) = SignType.sign (d' lo))
    (hmid : SignType.sign (d ((lo + hi) / 2)) = SignType.sign (d' ((lo + hi) / 2))) :
    roundsUp rm neg odd lo hi d = roundsUp rm neg odd lo hi d' := by
  obtain ⟨hpos, -, -, -⟩ := signs_agree hlo
  obtain ⟨hover, hat, -, htie⟩ := signs_agree hmid
  unfold roundsUp
  simp only [hpos, hover, hat, htie]

theorem Tracks.sign_magnitude (h : Tracks m v d) (n : ℕ) : SignType.sign (d (magnitude m n)) = SignType.sign (excess v (magnitude m n)) := by
  obtain ⟨i, k, rfl, hi, hk⟩ := exists_place m n
  rw [magnitude_eq hi hk.le]
  exact h k _ (hk.le.trans (Nat.pow_le_pow_right (by decide) (by omega)))

/-- The middle of two neighbours `k` and `k + 1` of a step has one bit more. -/
theorem Tracks.sign_middle (h : Tracks m v d) {k : ℕ} (hk : k < 2 ^ (m.f + 1)) (j : ℤ) :
    SignType.sign (d ((k * 2 ^ j + (k + 1) * 2 ^ j) / 2)) = SignType.sign (excess v ((k * 2 ^ j + (k + 1) * 2 ^ j) / 2)) := by
  have hmid : ((k : ℚ) * 2 ^ j + (k + 1) * 2 ^ j) / 2 = ((2 * k + 1 : ℕ) : ℚ) * 2 ^ (j - 1) := by
    rw [zpow_sub_one₀ two_ne_zero]; push_cast; ring
  rw [hmid]
  exact h _ _ (by rw [pow_succ] at hk ⊢; omega)

theorem Tracks.roundsUp_neighbour (h : Tracks m v d) (n : ℕ) : roundsUp rm v.s (n % 2 == 1) (magnitude m n) (magnitude m (n + 1)) d =
    roundsUp rm v.s (n % 2 == 1) (magnitude m n) (magnitude m (n + 1)) (excess v) := by
  refine roundsUp_congr (h.sign_magnitude n) ?_
  obtain ⟨i, k, rfl, hi, hk⟩ := exists_place m n
  rw [Nat.add_assoc, magnitude_eq hi hk.le, magnitude_eq (by omega) hk, Nat.cast_succ]
  exact h.sign_middle hk _

theorem Tracks.sign_belowNormal (h : Tracks m v d) : SignType.sign (d (belowNormal m)) = SignType.sign (excess v (belowNormal m)) := by
  rw [belowNormal_eq]
  exact h _ _ (by rw [pow_succ _ (m.f + 1)]; omega)

theorem Tracks.isTiny_eq (h : Tracks m v d) (n : ℕ) : (decide (n < 2 ^ m.f) && !(decide (0 ≤ d (belowNormal m)) &&
    roundsUp rm v.s true (belowNormal m) (magnitude m (2 ^ m.f)) d)) = isTiny m rm v n := by
  have hend : magnitude m (2 ^ m.f) = ((2 ^ (m.f + 1) - 1 : ℕ) + 1 : ℚ) * 2 ^ (-(m.bias : ℤ) - m.f) := by
    rw [← Nat.cast_succ, Nat.succ_eq_add_one, Nat.sub_add_cancel Nat.one_le_two_pow, pow_mul_zpow, magnitude_normal]
    congr 1
    push_cast
    ring
  have hup : roundsUp rm v.s true (belowNormal m) (magnitude m (2 ^ m.f)) d =
      roundsUp rm v.s true (belowNormal m) (magnitude m (2 ^ m.f)) (excess v) := by
    refine roundsUp_congr h.sign_belowNormal ?_
    rw [hend, belowNormal_eq]
    exact h.sign_middle (Nat.sub_one_lt_of_lt Nat.one_le_two_pow) _
  rw [isTiny, hup]
  simp only [(signs_agree h.sign_belowNormal).2.1]

/-- A non-zero value is rounded once into its format, with the flags of R365 to R367, whatever exact value it stands for. -/
theorem Tracks.rounded (hm : Proper m) (hv : v.m ≠ 0) (hrm : md.rm.toNat ≤ 4) (h : Tracks m v d) : Rounded m md v.s d (m.round md v) := by
  obtain ⟨i, k, hp⟩ := exists_placed (m := m) hv
  have hlow : magnitude m (i * 2 ^ m.f + k) ≤ size v := hp.lower.trans_le hp.le_size
  have hhigh : size v < magnitude m (i * 2 ^ m.f + k + 1) := hp.size_lt.trans_eq hp.upper.symm
  have hround := hp.round_eq (md := md) hm hv
  have hoverflow : m.top * 2 ^ m.f ≤ neighbour m md.rm v (i * 2 ^ m.f + k) → m.round md v =
      { v := encoding m v.s (if (md.rm == 0 || md.rm == 4 || (md.rm == 2 && !v.s) || (md.rm == 3 && v.s)) = true then m.top * 2 ^ m.f
        else m.top * 2 ^ m.f - 1), fl := 5 } := fun hr => by
    rw [hround, if_pos hr, overflow_eq hm hrm]
    rfl
  refine ⟨fun hinf => hoverflow ?_, fun n hn hlo hhi => ?_⟩
  · have hsize : magnitude m (m.top * 2 ^ m.f) ≤ size v := sub_nonneg.mp ((signs_agree (h.sign_magnitude _)).2.1.mp hinf)
    exact (Nat.lt_succ_iff.mp ((magnitude_strictMono m).lt_iff_lt.mp (hsize.trans_lt hhigh))).trans le_neighbour
  · obtain rfl : n = i * 2 ^ m.f + k := place_unique (sub_nonneg.mp ((signs_agree (h.sign_magnitude _)).2.1.mp hlo))
      (sub_neg.mp ((signs_agree (h.sign_magnitude _)).2.2.1.mp hhi)) hlow hhigh
    obtain ⟨hpos, -, -, -⟩ := signs_agree (h.sign_magnitude (i * 2 ^ m.f + k))
    intro r tiny inexact
    have hr : r = neighbour m md.rm v (i * 2 ^ m.f + k) := by rw [neighbour, ← h.roundsUp_neighbour]
    have ht : tiny = isTiny m md.rm v (i * 2 ^ m.f + k) := h.isTiny_eq _
    have hx : inexact = decide (0 < excess v (magnitude m (i * 2 ^ m.f + k))) := decide_eq_decide.mpr hpos
    clear_value r tiny inexact
    subst hr ht hx
    have hfinite : neighbour m md.rm v (i * 2 ^ m.f + k) ≠ m.top * 2 ^ m.f → ¬ m.top * 2 ^ m.f ≤ neighbour m md.rm v (i * 2 ^ m.f + k) := by
      have := neighbour_le (m := m) (rm := md.rm) (v := v) (n := i * 2 ^ m.f + k)
      omega
    refine ⟨fun hr => hoverflow hr.ge, fun hr ht hftz => ?_, fun hr ht => ?_⟩
    · rw [hround, if_neg (hfinite hr), if_pos ⟨ht, hftz⟩, zero_eq_encoding]
      rfl
    · rw [hround, if_neg (hfinite hr), if_neg (by rcases ht with ht | ht <;> simp [ht]), pack_eq_encoding]
      simp [encoding, flagNX, flagUF]

end

end Sys2Proof.Proofs

/-! ### Encodings and the values they name (R60 to R63, R66) -/

namespace Sys2Proof.Proofs
open Sys2Proof Sys2Proof.Machine

/-! #### Fields of an encoding -/

section

variable {m : Fmt} {x y : ℕ}

/-- An encoding has no bit beyond its sign. -/
def Fits (m : Fmt) (x : ℕ) : Prop := x < 2 ^ (m.e + m.f + 1)

theorem exp_eq_unsigned : m.exp x = unsigned m x / 2 ^ m.f := by
  rw [Fmt.exp, unsigned, Nat.add_comm, pow_add, Nat.mod_mul_right_div_self]

theorem frac_eq_unsigned : m.frac x = unsigned m x % 2 ^ m.f := by
  rw [Fmt.frac, unsigned, Nat.mod_mod_of_dvd _ (pow_dvd_pow 2 (Nat.le_add_left _ _))]

theorem unsigned_eq_fields (m : Fmt) (x : ℕ) : unsigned m x = m.exp x * 2 ^ m.f + m.frac x := by
  rw [exp_eq_unsigned, frac_eq_unsigned, Nat.div_add_mod']

theorem top_add_one : m.top + 1 = 2 ^ m.e := Nat.sub_add_cancel Nat.one_le_two_pow

theorem exp_le_top : m.exp x ≤ m.top := by
  have : m.exp x < 2 ^ m.e := Nat.mod_lt _ (by positivity)
  have := top_add_one (m := m)
  omega

theorem frac_lt : m.frac x < 2 ^ m.f := Nat.mod_lt _ (by positivity)

theorem unsigned_lt : unsigned m x < 2 ^ (m.e + m.f) := Nat.mod_lt _ (by positivity)

theorem isInf_iff : m.isInf x = true ↔ unsigned m x = m.top * 2 ^ m.f := by
  have hfrac := frac_lt (m := m) (x := x)
  have hexp := exp_le_top (m := m) (x := x)
  rw [unsigned_eq_fields, Fmt.isInf, Bool.and_eq_true, beq_iff_eq, beq_iff_eq]
  constructor
  · rintro ⟨h1, h2⟩
    rw [h1, h2, Nat.add_zero]
  · intro h
    have hle : m.top ≤ m.exp x := by
      by_contra hlt
      nlinarith
    have : m.exp x = m.top := by omega
    rw [this] at h
    omega

theorem isNan_iff : m.isNan x = true ↔ m.top * 2 ^ m.f < unsigned m x := by
  have hfrac := frac_lt (m := m) (x := x)
  have hexp := exp_le_top (m := m) (x := x)
  rw [unsigned_eq_fields, Fmt.isNan, Bool.and_eq_true, beq_iff_eq, bne_iff_ne]
  constructor
  · rintro ⟨h1, h2⟩
    rw [h1]
    omega
  · intro h
    have hle : m.top ≤ m.exp x := by
      by_contra hlt
      nlinarith
    have : m.exp x = m.top := by omega
    rw [this] at h
    omega

theorem isZero_iff : m.isZero x = true ↔ unsigned m x = 0 := by
  rw [unsigned_eq_fields, Fmt.isZero, Bool.and_eq_true, beq_iff_eq, beq_iff_eq, Nat.add_eq_zero_iff, Nat.mul_eq_zero]
  simp

/-- A finite encoding lies below infinity. -/
theorem unsigned_lt_infinity (hnan : m.isNan x = false) (hinf : m.isInf x = false) : unsigned m x < m.top * 2 ^ m.f := by
  rw [← Bool.not_eq_true, isNan_iff] at hnan
  rw [← Bool.not_eq_true, isInf_iff] at hinf
  omega

theorem not_isInf_of_isNan (h : m.isNan x = true) : m.isInf x = false := by
  rw [isNan_iff] at h
  rw [← Bool.not_eq_true, isInf_iff]
  omega

theorem top_pos (hm : Proper m) : 0 < m.top := by
  have := top_eq hm
  omega

theorem not_isZero_of_isInf (hm : Proper m) (h : m.isInf x = true) : m.isZero x = false := by
  have : 0 < m.top * 2 ^ m.f := Nat.mul_pos (top_pos hm) (by positivity)
  rw [isInf_iff] at h
  rw [← Bool.not_eq_true, isZero_iff]
  omega

theorem sign_eq_false_iff (hx : Fits m x) : m.sign x = false ↔ x < 2 ^ (m.e + m.f) := by
  have hpos : 0 < 2 ^ (m.e + m.f) := by positivity
  have hdiv : x / 2 ^ (m.e + m.f) < 2 := Nat.div_lt_of_lt_mul (by rw [Fits, pow_succ] at hx; omega)
  rw [← Nat.div_eq_zero_iff_lt hpos, Fmt.sign, beq_eq_false_iff_ne]
  generalize x / 2 ^ (m.e + m.f) = q at hdiv ⊢
  omega

/-- An encoding is its sign and the rest. -/
theorem eq_encoding (hx : Fits m x) : x = encoding m (m.sign x) (unsigned m x) := by
  unfold encoding unsigned
  cases hs : m.sign x
  · rw [if_neg (by simp), Nat.zero_add, Nat.mod_eq_of_lt ((sign_eq_false_iff hx).mp hs)]
  · have hge : ¬ x < 2 ^ (m.e + m.f) := fun h => by simp [(sign_eq_false_iff hx).mpr h] at hs
    rw [Fits, pow_succ] at hx
    rw [if_pos rfl, Nat.mod_eq_sub_mod (by omega), Nat.mod_eq_of_lt (by omega)]
    omega

theorem fits_encoding {s : Bool} {n : ℕ} (hn : n < 2 ^ (m.e + m.f)) : Fits m (encoding m s n) := by
  unfold Fits encoding
  rw [pow_succ]
  split_ifs <;> omega

theorem sign_encoding {s : Bool} {n : ℕ} (hn : n < 2 ^ (m.e + m.f)) : m.sign (encoding m s n) = s := by
  have h := sign_eq_false_iff (fits_encoding (s := s) hn)
  cases s
  · rw [h]; simpa [encoding] using hn
  · rw [← Bool.not_eq_false, h]; simp [encoding]

theorem unsigned_encoding {s : Bool} {n : ℕ} (hn : n < 2 ^ (m.e + m.f)) : unsigned m (encoding m s n) = n := by
  unfold unsigned encoding
  split_ifs <;> simp [Nat.mod_eq_of_lt hn]

theorem negate_eq (hx : Fits m x) : m.negate x = encoding m (!m.sign x) (unsigned m x) := by
  have h := eq_encoding hx
  unfold Fmt.negate
  unfold encoding at h ⊢
  cases hs : m.sign x <;> simp only [hs, Bool.false_eq_true, Bool.not_true, Bool.not_false, if_true, if_false] at h ⊢ <;> omega

theorem fits_negate (hx : Fits m x) : Fits m (m.negate x) := negate_eq hx ▸ fits_encoding unsigned_lt

theorem sign_negate (hx : Fits m x) : m.sign (m.negate x) = !m.sign x := by rw [negate_eq hx, sign_encoding unsigned_lt]

theorem unsigned_negate (hx : Fits m x) : unsigned m (m.negate x) = unsigned m x := by
  nth_rw 1 [negate_eq hx, unsigned_encoding unsigned_lt]

theorem isInf_negate (hx : Fits m x) : m.isInf (m.negate x) = m.isInf x := by
  rw [Bool.eq_iff_iff, isInf_iff, isInf_iff, unsigned_negate hx]

/-! #### Operands (R63, R66) -/

theorem read_eq_readAs {daz : Bool} : m.read daz x = readAs m daz x := by
  unfold Fmt.read readAs
  simp only [zero_eq_encoding, exp_eq_unsigned, Nat.div_eq_zero_iff_lt (show 0 < 2 ^ m.f by positivity)]

theorem fits_readAs {daz : Bool} (hx : Fits m x) : Fits m (readAs m daz x) := by
  unfold readAs
  split_ifs
  · exact fits_encoding (by positivity)
  · exact hx

theorem or_two_pow (x i : ℕ) : x ||| 2 ^ i = if x % 2 ^ (i + 1) < 2 ^ i then x + 2 ^ i else x := by
  have hsplit := Nat.div_add_mod x (2 ^ (i + 1))
  have hlow : x % 2 ^ (i + 1) < 2 ^ (i + 1) := Nat.mod_lt _ (by positivity)
  have hor : ∀ y < 2 ^ (i + 1), 2 ^ (i + 1) * (x / 2 ^ (i + 1)) + y = 2 ^ (i + 1) * (x / 2 ^ (i + 1)) ||| y :=
    fun y hy => Nat.two_pow_add_eq_or_of_lt hy _
  generalize x % 2 ^ (i + 1) = y at *
  have hmerge : x ||| 2 ^ i = 2 ^ (i + 1) * (x / 2 ^ (i + 1)) ||| (y ||| 2 ^ i) := by
    rw [← Nat.or_assoc, ← hor y hlow, hsplit]
  have hone : ∀ r < 2 ^ i, 2 ^ i + r = 2 ^ i ||| r := fun r hr => by simpa using Nat.two_pow_add_eq_or_of_lt hr 1
  have hpow : 2 ^ (i + 1) = 2 ^ i + 2 ^ i := by rw [pow_succ]; omega
  split_ifs with h
  · rw [hmerge, Nat.or_comm y, ← hone y h, ← hor _ (by omega)]
    omega
  · have hr := hone (y - 2 ^ i) (by omega)
    have hy : y ||| 2 ^ i = y := by
      rw [show y = 2 ^ i ||| (y - 2 ^ i) by omega, Nat.or_comm, ← Nat.or_assoc, Nat.or_self]
    rw [hmerge, hy, ← hor y hlow, hsplit]

theorem isSnan_eq (hm : Proper m) (hx : m.isNan x = true) : m.isSnan x = decide (x % 2 ^ (m.f - 1 + 1) < 2 ^ (m.f - 1)) := by
  rw [Fmt.isSnan, hx, Nat.sub_add_cancel hm.2, Fmt.frac]
  simp

theorem quiet_eq (hm : Proper m) (hx : m.isNan x = true) : m.quiet x = x ||| 2 ^ (m.f - 1) := by
  rw [Fmt.quiet, isSnan_eq hm hx, or_two_pow]
  simp

theorem isNan_of_isSnan (hx : m.isSnan x = true) : m.isNan x = true := (Bool.and_eq_true _ _ ▸ hx).1

/-- NaN operands give the first one, quieted (R63). -/
theorem firstNan_of_mem (hm : Proper m) {l : List ℕ} {o : Out} (h : ∃ x ∈ l, m.isNan x = true) : FirstNan m l ((m.nanOf l).getD o) := by
  obtain ⟨x, hx⟩ := Option.isSome_iff_exists.mp (List.find?_isSome.mpr h)
  refine ⟨x, hx, ?_⟩
  rw [Fmt.nanOf, hx, Option.map_some, Option.getD_some, quiet_eq hm (List.find?_some hx)]
  rfl

theorem nanOf_eq_none {l : List ℕ} (h : ∀ x ∈ l, m.isNan x = false) : m.nanOf l = none := by
  rw [Fmt.nanOf, Option.map_eq_none_iff, List.find?_eq_none]
  exact fun x hx => by simp [h x hx]

/-! #### Values (R61) -/

theorem size_value (m : Fmt) (x : ℕ) : size (m.value x) = magnitude m (unsigned m x) := by
  have hfrac := frac_lt (m := m) (x := x)
  have hpow : 2 ^ (m.f + 1) = 2 * 2 ^ m.f := pow_succ' _ _
  rw [unsigned_eq_fields]
  unfold size Fmt.value Fmt.sig Fmt.scale
  by_cases h : m.exp x = 0
  · simp only [h, if_true]
    rw [magnitude_eq (.inl rfl) (by omega), grid]
    simp
  · obtain ⟨i, hi⟩ : ∃ i, m.exp x = i + 1 := ⟨m.exp x - 1, by omega⟩
    simp only [if_neg h]
    rw [hi, Nat.add_mul, Nat.one_mul, Nat.add_assoc, magnitude_eq (.inr (Nat.le_add_right _ _)) (by omega), grid]
    push_cast
    rfl

/-- The number that an exact value is, with its sign. -/
def signedSize (v : Machine.Dyadic) : ℚ := (if v.s then -1 else 1) * size v

theorem number_eq (m : Fmt) (x : ℕ) : number m x = signedSize (m.value x) := by
  rw [number, signedSize, size_value]
  rfl

theorem magnitude_nonneg (m : Fmt) (n : ℕ) : 0 ≤ magnitude m n := magnitude_zero m ▸ (magnitude_strictMono m).monotone (Nat.zero_le n)

theorem magnitude_eq_zero {n : ℕ} : magnitude m n = 0 ↔ n = 0 := by
  rw [← magnitude_zero m, (magnitude_strictMono m).injective.eq_iff]

theorem number_eq_zero : number m x = 0 ↔ m.isZero x = true := by
  rw [isZero_iff, ← magnitude_eq_zero (m := m), number]
  split_ifs <;> simp

theorem number_negate (hx : Fits m x) : number m (m.negate x) = -number m x := by
  rw [number, number, sign_negate hx, unsigned_negate hx]
  cases m.sign x <;> simp

/-! #### The order of values (R292, R293) -/

theorem key_eq : m.key x = if m.sign x then -(unsigned m x : ℤ) - 1 else unsigned m x := rfl

/-- The order of the model is that of the numbers, −0 below +0. -/
theorem key_le_key_iff : m.key x ≤ m.key y ↔ number m x < number m y ∨ (number m x = number m y ∧ (m.sign x = true ∨ m.sign y = false)) := by
  have hx := magnitude_nonneg m (unsigned m x)
  have hy := magnitude_nonneg m (unsigned m y)
  have hle := (magnitude_strictMono m).le_iff_le (a := unsigned m x) (b := unsigned m y)
  have hge := (magnitude_strictMono m).le_iff_le (a := unsigned m y) (b := unsigned m x)
  rw [key_eq, key_eq, number, number]
  cases m.sign x <;> cases m.sign y <;>
    simp only [Bool.false_eq_true, if_true, if_false, one_mul, neg_one_mul, or_false, or_true, and_true, and_false, reduceCtorEq]
  · rw [← le_iff_lt_or_eq, hle, Nat.cast_le]
  · exact iff_of_false (by omega) (by linarith)
  · exact iff_of_true (by omega) (le_iff_lt_or_eq.mp (by linarith))
  · rw [← le_iff_lt_or_eq, neg_le_neg_iff, hge]
    omega

/-- Two encodings name one number where both are zeros, or they are the same (R293). -/
theorem number_eq_iff (hx : Fits m x) (hy : Fits m y) : number m x = number m y ↔ (m.isZero x = true ∧ m.isZero y = true) ∨ x = y := by
  constructor
  · intro h
    by_cases hz : m.isZero x = true
    · exact .inl ⟨hz, number_eq_zero.mp (h ▸ number_eq_zero.mpr hz)⟩
    have hxpos : 0 < magnitude m (unsigned m x) :=
      (magnitude_nonneg m _).lt_of_ne' fun h0 => hz (isZero_iff.mpr (magnitude_eq_zero.mp h0))
    have hynonneg := magnitude_nonneg m (unsigned m y)
    refine .inr ?_
    rw [number, number] at h
    rw [eq_encoding hx, eq_encoding hy]
    cases hsx : m.sign x <;> cases hsy : m.sign y <;> rw [hsx, hsy] at h <;>
      simp only [Bool.false_eq_true, if_true, if_false, one_mul, neg_one_mul, neg_inj] at h
    · rw [(magnitude_strictMono m).injective h]
    · linarith
    · linarith
    · rw [(magnitude_strictMono m).injective h]
  · rintro (⟨h, h'⟩ | rfl)
    · rw [number_eq_zero.mpr h, number_eq_zero.mpr h']
    · rfl

/-- A key below another that names another number, of a lesser number. -/
theorem number_lt_iff : number m x < number m y ↔ ¬ number m x = number m y ∧ m.key x < m.key y := by
  rw [← not_le, ← not_le (a := m.key y), key_le_key_iff]
  constructor
  · intro h
    have h' := not_le.mp h
    exact ⟨h'.ne, fun hc => hc.elim (fun hlt => lt_asymm hlt h') fun heq => h'.ne' heq.1⟩
  · rintro ⟨hne, hkey⟩ hle
    exact hkey (.inl (lt_of_le_of_ne hle fun h => hne h.symm))

end

end Sys2Proof.Proofs

/-! ### Exact sums, products, quotients and roots (R278, R280, R363) -/

namespace Sys2Proof.Proofs
open Sys2Proof Sys2Proof.Machine

section

variable {m : Fmt} {md : FMode} {v a b : Machine.Dyadic} {rm : BitVec 3}

theorem size_nonneg (v : Machine.Dyadic) : 0 ≤ size v := by unfold size; positivity

theorem size_eq_zero : size v = 0 ↔ v.m = 0 := by
  rw [size, mul_eq_zero_iff_right (by positivity), Nat.cast_eq_zero]

theorem size_pos (hv : v.m ≠ 0) : 0 < size v := (size_nonneg v).lt_of_ne' fun h => hv (size_eq_zero.mp h)

theorem signedSize_eq_zero : signedSize v = 0 ↔ v.m = 0 := by
  rw [← size_eq_zero, signedSize]
  split_ifs <;> simp

theorem abs_signedSize (v : Machine.Dyadic) : |signedSize v| = size v := by
  rw [signedSize]
  split_ifs <;> simp [abs_of_nonneg (size_nonneg v)]

theorem signedSize_neg_iff (hv : v.m ≠ 0) : signedSize v < 0 ↔ v.s = true := by
  have := size_pos hv
  rw [signedSize]
  split_ifs with h <;> simp [h] <;> linarith

/-- An exact value is delivered in a format, a zero with its own sign. -/
theorem delivered_of_tracks (hm : Proper m) (hrm : md.rm.toNat ≤ 4) {x : ℚ} {zero : Bool} (hx : x = 0 ↔ v.m = 0) (hzero : v.m = 0 → v.s = zero)
    (hneg : v.m ≠ 0 → (x < 0 ↔ v.s = true)) (htracks : v.m ≠ 0 → Tracks m v (fun q => |x| - q)) : Delivered m md x zero (m.deliver md v) := by
  unfold Fmt.deliver
  refine ⟨fun h0 => ?_, fun h0 => ?_⟩
  · rw [if_pos (hx.mp h0), zero_eq_encoding, hzero (hx.mp h0)]
  · have hv : v.m ≠ 0 := fun h => h0 (hx.mpr h)
    have hs : decide (x < 0) = v.s := by rw [Bool.eq_iff_iff, decide_eq_true_eq, hneg hv]
    rw [if_neg hv, hs]
    exact (htracks hv).rounded hm hv hrm

theorem delivered_signedSize (hm : Proper m) (hrm : md.rm.toNat ≤ 4) {zero : Bool} (hzero : v.m = 0 → v.s = zero) :
    Delivered m md (signedSize v) zero (m.deliver md v) :=
  delivered_of_tracks hm hrm signedSize_eq_zero hzero signedSize_neg_iff fun _ _ _ _ => by rw [abs_signedSize]; rfl

/-! #### Sums and products -/

/-- The whole number of units of 2^e in a value whose exponent is at least e, with its sign. -/
def units (e : ℤ) (v : Machine.Dyadic) : ℤ := if v.s then -((v.m * 2 ^ (v.e - e).toNat : ℕ) : ℤ) else (v.m * 2 ^ (v.e - e).toNat : ℕ)

theorem signedSize_units {e : ℤ} (h : e ≤ v.e) : signedSize v = units e v * 2 ^ e := by
  have hpow : (2 : ℚ) ^ v.e = 2 ^ (v.e - e).toNat * 2 ^ e := by
    rw [← zpow_natCast, ← zpow_add₀ two_ne_zero]; congr 1; omega
  rw [signedSize, size, hpow, units]
  split_ifs <;> push_cast <;> ring

/-- The least of the exponents of two values. -/
def commonExponent (a b : Machine.Dyadic) : ℤ := if a.e ≤ b.e then a.e else b.e

theorem addDyadic_eq : addDyadic rm a b =
    if a.m = 0 ∧ b.m = 0 then ⟨if a.s = b.s then a.s else rm == 3, 0, 0⟩
    else if units (commonExponent a b) a + units (commonExponent a b) b = 0 then ⟨rm == 3, 0, 0⟩
    else ⟨decide (units (commonExponent a b) a + units (commonExponent a b) b < 0),
      (units (commonExponent a b) a + units (commonExponent a b) b).natAbs, commonExponent a b⟩ := rfl

theorem signedSize_natAbs (t e : ℤ) : signedSize ⟨decide (t < 0), t.natAbs, e⟩ = t * 2 ^ e := by
  have habs : ((t.natAbs : ℕ) : ℚ) = |(t : ℚ)| := by rw [Nat.cast_natAbs, Int.cast_abs]
  unfold signedSize size
  dsimp only
  rw [habs]
  by_cases h : t < 0
  · rw [if_pos (by simpa using h), abs_of_neg (by exact_mod_cast h)]
    ring
  · rw [if_neg (by simpa using h), abs_of_nonneg (by exact_mod_cast not_lt.mp h)]
    ring

theorem signedSize_add : signedSize a + signedSize b =
    ((units (commonExponent a b) a + units (commonExponent a b) b : ℤ) : ℚ) * 2 ^ commonExponent a b := by
  rw [signedSize_units (v := a) (e := commonExponent a b) (by unfold commonExponent; split_ifs <;> omega),
    signedSize_units (v := b) (e := commonExponent a b) (by unfold commonExponent; split_ifs <;> omega)]
  push_cast
  ring

theorem addDyadic_cases (rm : BitVec 3) (a b : Machine.Dyadic) :
    (a.m = 0 ∧ b.m = 0 ∧ addDyadic rm a b = ⟨if a.s = b.s then a.s else rm == 3, 0, 0⟩) ∨
    ¬ (a.m = 0 ∧ b.m = 0) ∧ (signedSize a + signedSize b = 0 ∧ addDyadic rm a b = ⟨rm == 3, 0, 0⟩ ∨
      (addDyadic rm a b).m ≠ 0 ∧ signedSize (addDyadic rm a b) = signedSize a + signedSize b) := by
  rw [addDyadic_eq]
  by_cases h0 : a.m = 0 ∧ b.m = 0
  · exact .inl ⟨h0.1, h0.2, if_pos h0⟩
  refine .inr ⟨h0, ?_⟩
  rw [if_neg h0, signedSize_add]
  by_cases ht : units (commonExponent a b) a + units (commonExponent a b) b = 0
  · exact .inl ⟨by rw [ht, Int.cast_zero, zero_mul], if_pos ht⟩
  · rw [if_neg ht, signedSize_natAbs]
    exact .inr ⟨Int.natAbs_ne_zero.mpr ht, rfl⟩

/-- An exact sum is delivered with the sign that R363 gives a zero. -/
theorem sum_addDyadic (hm : Proper m) (hrm : md.rm.toNat ≤ 4) :
    Sum m md (signedSize a) a.s (signedSize b) b.s (m.deliver md (addDyadic md.rm a b)) := by
  unfold Sum
  simp only [signedSize_eq_zero]
  obtain ⟨ha, hb, hadd⟩ | ⟨h0, ⟨ht, hadd⟩ | ⟨hne, hadd⟩⟩ := addDyadic_cases md.rm a b
  · have hsum : signedSize a + signedSize b = signedSize (addDyadic md.rm a b) := by
      rw [hadd, signedSize_eq_zero.mpr ha, signedSize_eq_zero.mpr hb, signedSize_eq_zero.mpr rfl, add_zero]
    rw [hsum]
    exact delivered_signedSize hm hrm fun _ => by simp [hadd, ha, hb]
  · have hsum : signedSize a + signedSize b = signedSize (addDyadic md.rm a b) := by
      rw [hadd, ht, signedSize_eq_zero.mpr rfl]
    rw [hsum, if_neg fun h => h0 ⟨h.1, h.2.1⟩]
    exact delivered_signedSize hm hrm fun _ => by rw [hadd]
  · rw [← hadd]
    exact delivered_signedSize hm hrm fun h => absurd h hne

theorem size_mulDyadic : size (mulDyadic a b) = size a * size b := by
  unfold size mulDyadic
  dsimp only
  rw [zpow_add₀ two_ne_zero]
  push_cast
  ring

theorem signedSize_mulDyadic : signedSize (mulDyadic a b) = signedSize a * signedSize b := by
  unfold signedSize
  rw [size_mulDyadic, show (mulDyadic a b).s = (a.s != b.s) from rfl]
  cases a.s <;> cases b.s <;> simp

/-- A value with its sign replaced. -/
theorem signedSize_withSign (v : Machine.Dyadic) (s : Bool) : signedSize { v with s := s } = if s = v.s then signedSize v else -signedSize v := by
  unfold signedSize size
  cases s <;> cases v.s <;> simp

/-! #### Quotients and roots: the lowest bit stands for what is left -/

/-- A value cut off after `w` units of 2^e, the bit `r` below saying whether something is left, lies among the points of fewer bits as
the exact value does. -/
theorem tracks_of_cut {d : ℚ → ℚ} {w r : ℕ} {e : ℤ} {s : Bool} (hw : 2 ^ (m.f + 1) < w) (hbelow : ∀ q : ℚ, 0 ≤ q → q < w * 2 ^ e → 0 < d q)
    (hat : (r = 0 ∧ d (w * 2 ^ e) = 0) ∨ (r = 1 ∧ 0 < d (w * 2 ^ e))) (habove : ∀ q : ℚ, (w + 1 : ℕ) * 2 ^ e ≤ q → d q < 0) :
    Tracks m ⟨s, 2 * w + r, e - 1⟩ d := by
  intro k j hk
  have hunit : (0 : ℚ) < 2 ^ e := by positivity
  have hsize : size ⟨s, 2 * w + r, e - 1⟩ = (w + r / 2) * 2 ^ e := by
    simp only [size]
    rw [zpow_sub_one₀ two_ne_zero]
    push_cast
    ring
  unfold excess
  rw [hsize]
  have hr : (0 : ℚ) ≤ r / 2 ∧ (r : ℚ) / 2 < 1 := by
    rcases hat with ⟨rfl, -⟩ | ⟨rfl, -⟩ <;> norm_num
  have hshort : (k : ℚ) * 2 ^ j < w * 2 ^ e ∨ ∃ t : ℕ, w ≤ t ∧ (k : ℚ) * 2 ^ j = t * 2 ^ e := by
    rcases lt_or_ge j e with hj | hj
    · left
      have hw' : ((2 ^ (m.f + 1) : ℕ) : ℚ) < w := by exact_mod_cast hw
      calc (k : ℚ) * 2 ^ j ≤ (2 ^ (m.f + 2) : ℕ) * 2 ^ (e - 1) :=
            mul_le_mul (by exact_mod_cast hk) (zpow_le_zpow_right₀ one_le_two (by omega)) (by positivity) (by positivity)
        _ = (2 ^ (m.f + 1) : ℕ) * 2 ^ e := by rw [pow_mul_zpow, pow_mul_zpow]; congr 1; push_cast; ring
        _ < w * 2 ^ e := mul_lt_mul_of_pos_right hw' hunit
    · have ht : (k : ℚ) * 2 ^ j = ((k * 2 ^ (j - e).toNat : ℕ) : ℚ) * 2 ^ e := by
        rw [Nat.cast_mul, mul_assoc, pow_mul_zpow]
        congr 2
        omega
      rcases lt_or_ge (k * 2 ^ (j - e).toNat) w with hlt | hge
      · left
        rw [ht]
        exact mul_lt_mul_of_pos_right (by exact_mod_cast hlt) hunit
      · exact .inr ⟨_, hge, ht⟩
  rcases hshort with hlt | ⟨t, ht, heq⟩
  · rw [sign_pos (hbelow _ (by positivity) hlt), sign_pos (by nlinarith)]
  rw [heq]
  rcases ht.lt_or_eq with hlt | rfl
  · have hcast : (w : ℚ) + 1 ≤ t := by exact_mod_cast hlt
    rw [sign_neg (habove _ (mul_le_mul_of_nonneg_right (by exact_mod_cast hlt) hunit.le)), sign_neg (by nlinarith)]
  · rcases hat with ⟨rfl, h0⟩ | ⟨rfl, hpos⟩
    · rw [h0, Nat.cast_zero, zero_div, add_zero, sub_self]
    · rw [sign_pos hpos, sign_pos (by rw [Nat.cast_one]; linarith)]

/-- The bits of a dividend before its division, and how many. -/
theorem divDyadic_eq (p : ℕ) (a b : Machine.Dyadic) : ∃ k : ℕ, p + 5 + Nat.log2 b.m ≤ Nat.log2 a.m + k ∧
    divDyadic p a b = ⟨a.s != b.s, 2 * (a.m * 2 ^ k / b.m) + (if a.m * 2 ^ k % b.m = 0 then 0 else 1), a.e - b.e - k - 1⟩ :=
  ⟨p + 5 + Nat.log2 b.m - Nat.log2 a.m, by omega, rfl⟩

/-- A quotient lies among the points that decide its rounding as its cut-off value does. -/
theorem tracks_divDyadic (ha : a.m ≠ 0) (hb : b.m ≠ 0) : Tracks m (divDyadic m.f a b) (fun q => size a / size b - q) := by
  obtain ⟨k, hk, hdiv⟩ := divDyadic_eq m.f a b
  rw [hdiv]
  have hbpos : 0 < b.m := Nat.pos_of_ne_zero hb
  have hbcast : (0 : ℚ) < b.m := by exact_mod_cast hbpos
  have hunit : (0 : ℚ) < 2 ^ (a.e - b.e - k) := by positivity
  have hquot : size a / size b = ((a.m * 2 ^ k : ℕ) : ℚ) / b.m * 2 ^ (a.e - b.e - k) := by
    unfold size
    rw [zpow_sub₀ two_ne_zero, zpow_sub₀ two_ne_zero, zpow_natCast]
    push_cast
    field_simp
  have hlarge : b.m * 2 ^ (m.f + 4) ≤ a.m * 2 ^ k := by
    calc b.m * 2 ^ (m.f + 4) ≤ 2 ^ (Nat.log2 b.m + 1) * 2 ^ (m.f + 4) := Nat.mul_le_mul_right _ Nat.lt_log2_self.le
      _ = 2 ^ (Nat.log2 b.m + 1 + (m.f + 4)) := (pow_add _ _ _).symm
      _ ≤ 2 ^ (Nat.log2 a.m + k) := Nat.pow_le_pow_right (by decide) (by omega)
      _ = 2 ^ Nat.log2 a.m * 2 ^ k := pow_add _ _ _
      _ ≤ a.m * 2 ^ k := Nat.mul_le_mul_right _ (Nat.log2_self_le ha)
  generalize a.m * 2 ^ k = n at *
  have hsplit : (b.m : ℚ) * (n / b.m : ℕ) + (n % b.m : ℕ) = n := by exact_mod_cast Nat.div_add_mod n b.m
  have hmod : ((n % b.m : ℕ) : ℚ) < b.m := by exact_mod_cast Nat.mod_lt n hbpos
  have hw : 2 ^ (m.f + 1) < n / b.m :=
    (Nat.pow_lt_pow_right (by decide) (show m.f + 1 < m.f + 4 by omega)).trans_le
      ((Nat.le_div_iff_mul_le hbpos).mpr (Nat.mul_comm b.m _ ▸ hlarge))
  have hw_le : ((n / b.m : ℕ) : ℚ) ≤ n / b.m := by
    rw [le_div_iff₀ hbcast]
    nlinarith [show (0 : ℚ) ≤ (n % b.m : ℕ) from Nat.cast_nonneg _]
  have hlt_w : (n : ℚ) / b.m < (n / b.m : ℕ) + 1 := by
    rw [div_lt_iff₀ hbcast]
    nlinarith
  refine tracks_of_cut hw (fun q _ hq => ?_) ?_ fun q hq => ?_
  · rw [hquot, sub_pos]
    exact hq.trans_le (mul_le_mul_of_nonneg_right hw_le hunit.le)
  · rw [hquot, ← sub_mul]
    by_cases hr : n % b.m = 0
    · refine .inl ⟨if_pos hr, ?_⟩
      rw [hr, Nat.cast_zero, add_zero] at hsplit
      rw [← hsplit, mul_div_cancel_left₀ _ hbcast.ne', sub_self, zero_mul]
    · refine .inr ⟨if_neg hr, mul_pos (sub_pos.mpr ?_) hunit⟩
      rw [lt_div_iff₀ hbcast]
      have : (0 : ℚ) < (n % b.m : ℕ) := by exact_mod_cast Nat.pos_of_ne_zero hr
      nlinarith
  · rw [hquot, sub_neg]
    refine lt_of_lt_of_le (mul_lt_mul_of_pos_right hlt_w hunit) ?_
    simpa using hq

/-- The root of the bits above bit `k` grows to the integer root. -/
theorem rootBits_spec {n : ℕ} : ∀ {k r : ℕ}, r * r ≤ n → n < (r + 2 ^ k) * (r + 2 ^ k) →
    rootBits n k r * rootBits n k r ≤ n ∧ n < (rootBits n k r + 1) * (rootBits n k r + 1)
  | 0, _, hlo, hhi => ⟨hlo, hhi⟩
  | k + 1, r, hlo, hhi => by
    rw [pow_succ, Nat.mul_two, ← Nat.add_assoc] at hhi
    unfold rootBits
    split_ifs with h
    · exact rootBits_spec h hhi
    · exact rootBits_spec hlo (not_le.mp h)

theorem rootBits_log2 (n : ℕ) :
    rootBits n (Nat.log2 n / 2 + 1) 0 * rootBits n (Nat.log2 n / 2 + 1) 0 ≤ n ∧
    n < (rootBits n (Nat.log2 n / 2 + 1) 0 + 1) * (rootBits n (Nat.log2 n / 2 + 1) 0 + 1) := by
  refine rootBits_spec (Nat.zero_le _) ?_
  rw [Nat.zero_add, ← pow_add]
  exact Nat.lt_log2_self.trans_le (Nat.pow_le_pow_right (by decide) (by omega))

/-- The bits of a radicand before its root, an even number of binary places. -/
theorem sqrtDyadic_eq (p : ℕ) (a : Machine.Dyadic) : ∃ (n : ℕ) (e : ℤ), a.m * 2 ^ (2 * (p + 5)) ≤ n ∧ size a = n * (2 ^ e) ^ 2 ∧
    sqrtDyadic p a = ⟨false, 2 * rootBits n (Nat.log2 n / 2 + 1) 0 +
      (if rootBits n (Nat.log2 n / 2 + 1) 0 * rootBits n (Nat.log2 n / 2 + 1) 0 = n then 0 else 1), e - 1⟩ := by
  refine ⟨_, _, ?_, ?_, rfl⟩
  · exact Nat.mul_le_mul_left _ (Nat.pow_le_pow_right (by decide) (Nat.le_add_right _ _))
  · rw [← zpow_natCast, ← zpow_mul, Nat.cast_mul, mul_assoc, pow_mul_zpow, size]
    congr 2
    split_ifs <;> push_cast <;> omega

theorem tracks_sqrtDyadic (ha : a.m ≠ 0) : Tracks m (sqrtDyadic m.f a) (fun q => size a - q ^ 2) := by
  obtain ⟨n, e, hn, hsize, hroot⟩ := sqrtDyadic_eq m.f a
  obtain ⟨hlo, hhi⟩ := rootBits_log2 n
  rw [hroot, hsize]
  generalize rootBits n (Nat.log2 n / 2 + 1) 0 = r at *
  have hunit : (0 : ℚ) < 2 ^ e := by positivity
  have hlo' : (r : ℚ) * r ≤ n := by exact_mod_cast hlo
  have hhi' : (n : ℚ) < (r + 1 : ℕ) * (r + 1 : ℕ) := by exact_mod_cast hhi
  have hw : 2 ^ (m.f + 1) < r := by
    have hlarge : 2 ^ (m.f + 5) * 2 ^ (m.f + 5) ≤ n := by
      rw [← pow_add, ← Nat.two_mul]
      exact (Nat.le_mul_of_pos_left _ (Nat.pos_of_ne_zero ha)).trans hn
    have hroom : 2 ^ (m.f + 1) + 1 < 2 ^ (m.f + 5) := by
      have : 0 < 2 ^ (m.f + 1) := by positivity
      rw [show m.f + 5 = m.f + 1 + 4 by omega, pow_add _ (m.f + 1)]
      omega
    have := Nat.mul_self_lt_mul_self_iff.mp (hlarge.trans_lt hhi)
    omega
  refine tracks_of_cut hw (fun q h0 hq => ?_) ?_ fun q hq => ?_
  · have : q ^ 2 < (r * 2 ^ e) ^ 2 := pow_lt_pow_left₀ hq h0 two_ne_zero
    nlinarith [sq_nonneg ((2 : ℚ) ^ e)]
  · have hrest : (n : ℚ) * (2 ^ e) ^ 2 - (r * 2 ^ e) ^ 2 = (n - r * r) * (2 ^ e) ^ 2 := by ring
    simp only [hrest]
    by_cases hr : r * r = n
    · refine .inl ⟨if_pos hr, ?_⟩
      rw [← hr]
      push_cast
      ring
    · refine .inr ⟨if_neg hr, mul_pos (sub_pos.mpr ?_) (pow_pos hunit 2)⟩
      exact_mod_cast lt_of_le_of_ne hlo hr
  · have hsq : ((r + 1 : ℕ) * 2 ^ e) ^ 2 ≤ q ^ 2 := pow_le_pow_left₀ (by positivity) hq 2
    have : (n : ℚ) * (2 ^ e) ^ 2 < (r + 1 : ℕ) * (r + 1 : ℕ) * (2 ^ e) ^ 2 := mul_lt_mul_of_pos_right hhi' (pow_pos hunit 2)
    linarith [show ((r + 1 : ℕ) * (2 : ℚ) ^ e) ^ 2 = (r + 1 : ℕ) * (r + 1 : ℕ) * (2 ^ e) ^ 2 by ring]

end

end Sys2Proof.Proofs

/-! ### Element operations on floating encodings (R63, R276 to R280, R291 to R293, R364) -/

namespace Sys2Proof.Proofs
open Sys2Proof Sys2Proof.Machine

section

variable {m : Fmt} {md : FMode} {x y z a b c : ℕ}

theorem inf_encoding (hx : Fits m x) (h : m.isInf x = true) : x = encoding m (m.sign x) (m.top * 2 ^ m.f) := by
  nth_rw 1 [eq_encoding hx, isInf_iff.mp h]

theorem value_m_eq_zero : (m.value x).m = 0 ↔ m.isZero x = true := by
  rw [← size_eq_zero, size_value, magnitude_eq_zero, isZero_iff]

/-- An encoding, its sign inverted under `flip`. -/
def flipped (m : Fmt) (flip : Bool) (x : ℕ) : ℕ := if flip then m.negate x else x

theorem fits_flipped {flip : Bool} (hx : Fits m x) : Fits m (flipped m flip x) := by
  unfold flipped
  split_ifs
  · exact fits_negate hx
  · exact hx

theorem sign_flipped {flip : Bool} (hx : Fits m x) : m.sign (flipped m flip x) = (m.sign x != flip) := by
  unfold flipped
  cases flip <;> simp [sign_negate hx]

theorem isInf_flipped {flip : Bool} (hx : Fits m x) : m.isInf (flipped m flip x) = m.isInf x := by
  unfold flipped
  cases flip <;> simp [isInf_negate hx]

theorem number_flipped {flip : Bool} (hx : Fits m x) : number m (flipped m flip x) = if flip then -number m x else number m x := by
  unfold flipped
  cases flip <;> simp [number_negate hx]

/-! #### Sums and differences -/

/-- The sum of two operands that are not NaN, by their infinities. -/
theorem sum_inf_inf (hx : m.isInf x = true) (hy : m.isInf y = true) (hs : m.sign x ≠ m.sign y) : m.sum md x y = m.invalid := by
  simp [Fmt.sum, hx, hy, hs]

theorem sum_inf_left (hx : m.isInf x = true) (h : m.isInf y = false ∨ m.sign x = m.sign y) : m.sum md x y = { v := x } := by
  rcases h with h | h <;> simp [Fmt.sum, hx, h]

theorem sum_inf_right (hx : m.isInf x = false) (hy : m.isInf y = true) : m.sum md x y = { v := y } := by
  simp [Fmt.sum, hx, hy]

theorem sum_finite (hm : Proper m) (hrm : md.rm.toNat ≤ 4) (hx : m.isInf x = false) (hy : m.isInf y = false) :
    Sum m md (number m x) (m.sign x) (number m y) (m.sign y) (m.sum md x y) := by
  have h : m.sum md x y = m.deliver md (addDyadic md.rm (m.value x) (m.value y)) := by simp [Fmt.sum, hx, hy]
  rw [h, number_eq, number_eq]
  exact sum_addDyadic hm hrm

/-- `o` is `x` + `y`, or `x` − `y` under `flip` (R278, R363, R364). -/
def Adds (m : Fmt) (md : FMode) (x y : ℕ) (flip : Bool) (o : Out) : Prop :=
  (m.isNan x = true ∨ m.isNan y = true → FirstNan m [x, y] o) ∧
  (¬ (m.isNan x = true ∨ m.isNan y = true) →
    (m.isInf x = true → m.isInf y = true → m.sign x ≠ (m.sign y != flip) → o = m.invalid) ∧
    (m.isInf x = true → m.isInf y = false ∨ m.sign x = (m.sign y != flip) → o = { v := x }) ∧
    (m.isInf x = false → m.isInf y = true → o = { v := encoding m (m.sign y != flip) (m.top * 2 ^ m.f) }) ∧
    (m.isInf x = false → m.isInf y = false →
      Sum m md (number m x) (m.sign x) (if flip then -number m y else number m y) (m.sign y != flip) o))

theorem firstNan_pair (hm : Proper m) {o : Out} (h : m.isNan x = true ∨ m.isNan y = true) : FirstNan m [x, y] ((m.nanOf [x, y]).getD o) :=
  firstNan_of_mem hm (by simpa using h)

theorem nanOf_pair (h : ¬ (m.isNan x = true ∨ m.isNan y = true)) : m.nanOf [x, y] = none :=
  nanOf_eq_none (by simpa using h)

theorem adds_of_sum (hm : Proper m) (hrm : md.rm.toNat ≤ 4) {flip : Bool} (hy : Fits m y) :
    Adds m md x y flip ((m.nanOf [x, y]).getD (m.sum md x (flipped m flip y))) := by
  refine ⟨firstNan_pair hm, fun hnan => ?_⟩
  rw [nanOf_pair hnan, Option.getD_none, ← sign_flipped hy, ← isInf_flipped (flip := flip) hy, ← number_flipped hy]
  refine ⟨sum_inf_inf, sum_inf_left, fun hx hy' => ?_, sum_finite hm hrm⟩
  rw [sum_inf_right hx hy', ← inf_encoding (fits_flipped hy) hy']

theorem adds_add (hm : Proper m) (hrm : md.rm.toNat ≤ 4) (hb : Fits m b) :
    Adds m md (readAs m md.daz a) (readAs m md.daz b) false (floatElem .add m md a b c) := by
  change Adds m md _ _ _ (m.add md a b)
  unfold Fmt.add
  rw [read_eq_readAs, read_eq_readAs]
  exact adds_of_sum hm hrm (fits_readAs hb)

theorem adds_sub (hm : Proper m) (hrm : md.rm.toNat ≤ 4) (hb : Fits m b) :
    Adds m md (readAs m md.daz a) (readAs m md.daz b) true (floatElem .sub m md a b c) := by
  change Adds m md _ _ _ (m.sub md a b)
  unfold Fmt.sub
  rw [read_eq_readAs, read_eq_readAs]
  exact adds_of_sum hm hrm (fits_readAs hb)

/-! #### Products and quotients -/

theorem mul_eq : m.mul md a b = (m.nanOf [readAs m md.daz a, readAs m md.daz b]).getD
    (if (m.isInf (readAs m md.daz a) ∧ m.isZero (readAs m md.daz b)) ∨ (m.isZero (readAs m md.daz a) ∧ m.isInf (readAs m md.daz b)) then m.invalid
     else if m.isInf (readAs m md.daz a) ∨ m.isInf (readAs m md.daz b) then { v := m.inf (m.sign (readAs m md.daz a) != m.sign (readAs m md.daz b)) }
     else m.deliver md (mulDyadic (m.value (readAs m md.daz a)) (m.value (readAs m md.daz b)))) := by
  rw [← read_eq_readAs, ← read_eq_readAs]
  rfl

/-- `o` is `x` × `y` (R278, R363, R364). -/
def Multiplies (m : Fmt) (md : FMode) (x y : ℕ) (o : Out) : Prop :=
  ((m.isInf x = true ∧ m.isZero y = true) ∨ (m.isZero x = true ∧ m.isInf y = true) → o = m.invalid) ∧
  (¬ ((m.isInf x = true ∧ m.isZero y = true) ∨ (m.isZero x = true ∧ m.isInf y = true)) → m.isInf x = true ∨ m.isInf y = true →
    o = { v := encoding m (m.sign x != m.sign y) (m.top * 2 ^ m.f) }) ∧
  (m.isInf x = false → m.isInf y = false → Delivered m md (number m x * number m y) (m.sign x != m.sign y) o)

theorem multiplies_mul (hm : Proper m) (hrm : md.rm.toNat ≤ 4) (hnan : ¬ (m.isNan (readAs m md.daz a) = true ∨ m.isNan (readAs m md.daz b) = true)) :
    Multiplies m md (readAs m md.daz a) (readAs m md.daz b) (floatElem .mul m md a b c) := by
  change Multiplies m md _ _ (m.mul md a b)
  rw [mul_eq, nanOf_pair hnan, Option.getD_none]
  generalize readAs m md.daz a = x
  generalize readAs m md.daz b = y
  refine ⟨fun h => if_pos h, fun h hinf => ?_, fun hx hy => ?_⟩
  · rw [if_neg h, if_pos hinf, inf_eq_encoding]
  · rw [if_neg (by simp [hx, hy]), if_neg (by simp [hx, hy]), number_eq, number_eq, ← signedSize_mulDyadic]
    exact delivered_signedSize hm hrm fun _ => rfl

theorem div_eq : m.div md a b = (m.nanOf [readAs m md.daz a, readAs m md.daz b]).getD
    (if (m.isInf (readAs m md.daz a) ∧ m.isInf (readAs m md.daz b)) ∨ (m.isZero (readAs m md.daz a) ∧ m.isZero (readAs m md.daz b)) then m.invalid
     else if m.isInf (readAs m md.daz a) then { v := m.inf (m.sign (readAs m md.daz a) != m.sign (readAs m md.daz b)) }
     else if m.isZero (readAs m md.daz b) then { v := m.inf (m.sign (readAs m md.daz a) != m.sign (readAs m md.daz b)), fl := flagDZ }
     else if m.isZero (readAs m md.daz a) ∨ m.isInf (readAs m md.daz b) then { v := m.zero (m.sign (readAs m md.daz a) != m.sign (readAs m md.daz b)) }
     else m.deliver md (divDyadic m.f (m.value (readAs m md.daz a)) (m.value (readAs m md.daz b)))) := by
  rw [← read_eq_readAs, ← read_eq_readAs]
  rfl

/-- `o` is `x` / `y` (R280, R363, R364). -/
def Divides (m : Fmt) (md : FMode) (x y : ℕ) (o : Out) : Prop :=
  ((m.isInf x = true ∧ m.isInf y = true) ∨ (m.isZero x = true ∧ m.isZero y = true) → o = m.invalid) ∧
  (m.isInf x = true → m.isInf y = false → o = { v := encoding m (m.sign x != m.sign y) (m.top * 2 ^ m.f) }) ∧
  (m.isInf x = false → m.isZero x = false → m.isZero y = true → o = { v := encoding m (m.sign x != m.sign y) (m.top * 2 ^ m.f), fl := 8 }) ∧
  (m.isInf x = false → m.isInf y = true → o = { v := encoding m (m.sign x != m.sign y) 0 }) ∧
  (m.isInf x = false → m.isInf y = false → m.isZero y = false → Delivered m md (number m x / number m y) (m.sign x != m.sign y) o)

theorem signedSize_div_neg_iff {u w : Machine.Dyadic} (hu : u.m ≠ 0) (hw : w.m ≠ 0) :
    signedSize u / signedSize w < 0 ↔ (u.s != w.s) = true := by
  have hpos := div_pos (size_pos hu) (size_pos hw)
  unfold signedSize
  cases u.s <;> cases w.s <;> simp [neg_div, div_neg, hpos, hpos.le]

/-- A value tracked as non-zero is not zero. -/
theorem Tracks.ne_zero {v : Machine.Dyadic} {d : ℚ → ℚ} (h : Tracks m v d) (hd : 0 < d 0) : v.m ≠ 0 := by
  have hsign := h 0 0 (Nat.zero_le _)
  rw [Nat.cast_zero, zero_mul] at hsign
  have hpos := (signs_agree hsign).1.mp hd
  intro h0
  rw [excess, size_eq_zero.mpr h0, sub_zero] at hpos
  exact lt_irrefl _ hpos

/-- A quotient of two finite values other than zeros is delivered. -/
theorem delivered_divDyadic (hm : Proper m) (hrm : md.rm.toNat ≤ 4) {u w : Machine.Dyadic} (hu : u.m ≠ 0) (hw : w.m ≠ 0) {zero : Bool} :
    Delivered m md (signedSize u / signedSize w) zero (m.deliver md (divDyadic m.f u w)) := by
  have htracks : Tracks m (divDyadic m.f u w) (fun q => |signedSize u / signedSize w| - q) := by
    rw [abs_div, abs_signedSize, abs_signedSize]
    exact tracks_divDyadic hu hw
  have hx : signedSize u / signedSize w ≠ 0 := div_ne_zero (mt signedSize_eq_zero.mp hu) (mt signedSize_eq_zero.mp hw)
  have hne := htracks.ne_zero (by rw [sub_zero]; exact abs_pos.mpr hx)
  exact delivered_of_tracks hm hrm (iff_of_false hx hne) (fun h => absurd h hne) (fun _ => signedSize_div_neg_iff hu hw) fun _ => htracks

theorem divides_div (hm : Proper m) (hrm : md.rm.toNat ≤ 4) (hnan : ¬ (m.isNan (readAs m md.daz a) = true ∨ m.isNan (readAs m md.daz b) = true)) :
    Divides m md (readAs m md.daz a) (readAs m md.daz b) (floatElem .div m md a b c) := by
  change Divides m md _ _ (m.div md a b)
  rw [div_eq, nanOf_pair hnan, Option.getD_none]
  generalize readAs m md.daz a = x
  generalize readAs m md.daz b = y
  refine ⟨fun h => if_pos h, fun hx hy => ?_, fun hx hxz hyz => ?_, fun hx hy => ?_, fun hx hy hyz => ?_⟩
  · rw [if_neg (by simp [hy, not_isZero_of_isInf hm hx]), if_pos hx, inf_eq_encoding]
  · rw [if_neg (by simp [hx, hxz]), if_neg (by simp [hx]), if_pos hyz, inf_eq_encoding]
    rfl
  · have hyz := not_isZero_of_isInf hm hy
    rw [if_neg (by simp [hx, hyz]), if_neg (by simp [hx]), if_neg (by simp [hyz]), if_pos (.inr hy), zero_eq_encoding]
  · have hyne : (m.value y).m ≠ 0 := fun h => by simp [value_m_eq_zero.mp h] at hyz
    rw [if_neg (by simp [hx, hyz]), if_neg (by simp [hx]), if_neg (by simp [hyz]), number_eq, number_eq]
    by_cases hxz : m.isZero x = true
    · rw [if_pos (.inl hxz), signedSize_eq_zero.mpr (value_m_eq_zero.mpr hxz), zero_div]
      exact ⟨fun _ => by rw [zero_eq_encoding], fun h => absurd rfl h⟩
    · rw [if_neg (by simp [hxz, hy])]
      exact delivered_divDyadic hm hrm (mt value_m_eq_zero.mp hxz) hyne

/-! #### Square roots -/

theorem sqrt_eq : m.sqrt md a = (m.nanOf [readAs m md.daz a]).getD
    (if m.isZero (readAs m md.daz a) then { v := readAs m md.daz a }
     else if m.sign (readAs m md.daz a) then m.invalid
     else if m.isInf (readAs m md.daz a) then { v := readAs m md.daz a }
     else m.deliver md (sqrtDyadic m.f (m.value (readAs m md.daz a)))) := by
  rw [← read_eq_readAs]
  rfl

/-- NaN operands of a product, a quotient or a root give the first one, quieted (R63). -/
theorem firstNan_mul (hm : Proper m) (h : m.isNan (readAs m md.daz a) = true ∨ m.isNan (readAs m md.daz b) = true) :
    FirstNan m [readAs m md.daz a, readAs m md.daz b] (floatElem .mul m md a b c) := by
  change FirstNan m _ (m.mul md a b)
  exact mul_eq ▸ firstNan_pair hm h

theorem firstNan_div (hm : Proper m) (h : m.isNan (readAs m md.daz a) = true ∨ m.isNan (readAs m md.daz b) = true) :
    FirstNan m [readAs m md.daz a, readAs m md.daz b] (floatElem .div m md a b c) := by
  change FirstNan m _ (m.div md a b)
  exact div_eq ▸ firstNan_pair hm h

theorem firstNan_sqrt (hm : Proper m) (h : m.isNan (readAs m md.daz a) = true) :
    FirstNan m [readAs m md.daz a] (floatElem .sqrt m md a b c) := by
  change FirstNan m _ (m.sqrt md a)
  exact sqrt_eq ▸ firstNan_of_mem hm ⟨_, List.mem_singleton_self _, h⟩

/-- `o` is the square root of `x` (R280, R364). -/
def Roots (m : Fmt) (md : FMode) (x : ℕ) (o : Out) : Prop :=
  (m.isZero x = true ∨ (m.isInf x = true ∧ m.sign x = false) → o = { v := x }) ∧
  (m.isZero x = false → m.sign x = true → o = m.invalid) ∧
  (m.isZero x = false → m.isInf x = false → m.sign x = false → Rounded m md false (fun q => number m x - q ^ 2) o)

theorem roots_sqrt (hm : Proper m) (hrm : md.rm.toNat ≤ 4) (hnan : m.isNan (readAs m md.daz a) = false) :
    Roots m md (readAs m md.daz a) (floatElem .sqrt m md a b c) := by
  change Roots m md _ (m.sqrt md a)
  rw [sqrt_eq, nanOf_eq_none (by simpa using hnan), Option.getD_none]
  generalize readAs m md.daz a = x
  refine ⟨fun h => ?_, fun hz hs => ?_, fun hz hinf hs => ?_⟩
  · rcases h with h | ⟨hinf, hs⟩
    · rw [if_pos h]
    · rw [if_neg (by simp [not_isZero_of_isInf hm hinf]), if_neg (by simp [hs]), if_pos hinf]
  · rw [if_neg (by simp [hz]), if_pos hs]
  · have hne : (m.value x).m ≠ 0 := fun h => by simp [value_m_eq_zero.mp h] at hz
    have htracks : Tracks m (sqrtDyadic m.f (m.value x)) (fun q => size (m.value x) - q ^ 2) := tracks_sqrtDyadic hne
    have hroot := htracks.ne_zero (by simpa using size_pos hne)
    have hnum : number m x = size (m.value x) := by rw [number_eq, signedSize, show (m.value x).s = false from hs]; simp
    rw [if_neg (by simp [hz]), if_neg (by simp [hs]), if_neg (by simp [hinf]), Fmt.deliver, if_neg hroot, hnum]
    have hsign : (sqrtDyadic m.f (m.value x)).s = false := rfl
    simpa only [hsign] using htracks.rounded hm hroot hrm

/-! #### Multiply and add -/

/-- What a multiply and add gives without NaN operands, and with those that are no invalid product. -/
theorem fused_eq {np nc : Bool} {order : ℕ → ℕ → ℕ → List ℕ} (ha : m.read md.daz a = x) (hb : m.read md.daz b = y) (hc : m.read md.daz c = z) :
    m.fused md np nc order a b c =
    if ((m.isInf x && m.isZero y) || (m.isZero x && m.isInf y)) = true then { v := if m.isNan z && !m.isSnan z then z else m.defaultNan, fl := flagNV }
    else (m.nanOf (order x y z)).getD
      (if m.isInf x ∨ m.isInf y then
        (if m.isInf z ∧ m.sign (flipped m nc z) ≠ ((m.sign x != m.sign y) != np) then m.invalid else { v := m.inf ((m.sign x != m.sign y) != np) })
       else if m.isInf z then { v := flipped m nc z }
       else m.deliver md (addDyadic md.rm { mulDyadic (m.value x) (m.value y) with s := (m.sign x != m.sign y) != np } (m.value (flipped m nc z)))) := by
  subst ha hb hc
  rfl

theorem number_product (np : Bool) : (if np then -(number m x * number m y) else number m x * number m y) =
    signedSize { mulDyadic (m.value x) (m.value y) with s := (m.sign x != m.sign y) != np } := by
  rw [signedSize_withSign, signedSize_mulDyadic, number_eq, number_eq]
  simp only [show (mulDyadic (m.value x) (m.value y)).s = (m.sign x != m.sign y) from rfl]
  cases np <;> simp

theorem fused_fused (hm : Proper m) (hrm : md.rm.toNat ≤ 4) (hc : Fits m c) (np nc : Bool) :
    Fused m md np nc (readAs m md.daz a) (readAs m md.daz b) (readAs m md.daz c) (m.fused md np nc orderABC a b c) := by
  rw [fused_eq read_eq_readAs read_eq_readAs read_eq_readAs]
  have hz := fits_readAs (daz := md.daz) hc
  generalize readAs m md.daz a = x
  generalize readAs m md.daz b = y
  generalize readAs m md.daz c = z at hz ⊢
  unfold Fused
  intro sp sz wild nan
  refine ⟨fun hw => if_pos hw, fun hw hn => ?_, fun hw hn => ?_⟩
  · rw [if_neg (Bool.eq_false_iff.mp hw)]
    exact firstNan_of_mem hm (by simpa [nan, or_assoc] using hn)
  · have hnone : m.nanOf (orderABC x y z) = none := nanOf_eq_none (by simpa [nan, orderABC, and_assoc] using hn)
    rw [if_neg (Bool.eq_false_iff.mp hw), hnone, Option.getD_none, sign_flipped hz]
    simp only [← Bool.or_eq_true]
    refine ⟨fun hinf => ⟨fun hzinf hs => ?_, fun h => ?_⟩, fun hinf => ⟨fun hzinf => ?_, fun hzinf => ?_⟩⟩
    · rw [if_pos hinf, if_pos ⟨hzinf, hs⟩]
      rfl
    · rw [if_pos hinf, if_neg (by rintro ⟨hzinf, hs⟩; exact h.elim (fun h => by simp [h] at hzinf) hs), inf_eq_encoding]
    · rw [if_neg (Bool.eq_false_iff.mp hinf), if_pos hzinf, inf_encoding (fits_flipped hz) (isInf_flipped hz ▸ hzinf), sign_flipped hz]
    · have hsz : sz = m.sign (flipped m nc z) := (sign_flipped hz).symm
      rw [if_neg (Bool.eq_false_iff.mp hinf), if_neg (Bool.eq_false_iff.mp hzinf), number_product np, ← number_flipped hz,
        number_eq m (flipped m nc z), hsz]
      exact sum_addDyadic hm hrm

theorem fused_elements (hm : Proper m) (hrm : md.rm.toNat ≤ 4) (hc : Fits m c) :
    Fused m md false false (readAs m md.daz a) (readAs m md.daz b) (readAs m md.daz c) (floatElem .fma m md a b c) ∧
    Fused m md false true (readAs m md.daz a) (readAs m md.daz b) (readAs m md.daz c) (floatElem .fms m md a b c) ∧
    Fused m md true false (readAs m md.daz a) (readAs m md.daz b) (readAs m md.daz c) (floatElem .fnma m md a b c) ∧
    Fused m md true true (readAs m md.daz a) (readAs m md.daz b) (readAs m md.daz c) (floatElem .fnms m md a b c) :=
  ⟨fused_fused hm hrm hc _ _, fused_fused hm hrm hc _ _, fused_fused hm hrm hc _ _, fused_fused hm hrm hc _ _⟩

/-! #### Minimum, maximum and compares -/

/-- `o` is the lower of `x` and `y`, or the other, by R292: `p` where `x` is the lower. -/
def Chooses (m : Fmt) (x y : ℕ) (o : Out) (p q : ℕ) : Prop :=
  let lower := number m x < number m y ∨ (number m x = number m y ∧ (m.sign x = true ∨ m.sign y = false))
  (m.isNan x = true → m.isNan y = true → FirstNan m [x, y] o) ∧
  (m.isNan x = true → m.isNan y = false → o = { v := y, fl := if m.isSnan x then 16 else 0 }) ∧
  (m.isNan x = false → m.isNan y = true → o = { v := x, fl := if m.isSnan y then 16 else 0 }) ∧
  (¬ (m.isNan x = true ∨ m.isNan y = true) → (lower → o = { v := p }) ∧ (¬ lower → o = { v := q }))

theorem minMax_eq {wantMax : Bool} (ha : m.read md.daz a = x) (hb : m.read md.daz b = y) : m.minMax md wantMax a b =
    if m.isNan x ∧ m.isNan y then (m.nanOf [x, y]).getD { v := x }
    else if m.isNan x then { v := y, fl := m.nanFlag [x] }
    else if m.isNan y then { v := x, fl := m.nanFlag [y] }
    else { v := if (decide (m.key x ≤ m.key y)) != wantMax then x else y } := by
  subst ha hb
  rfl

theorem nanFlag_single : m.nanFlag [x] = if m.isSnan x then 16 else 0 := by
  simp [Fmt.nanFlag, flagNV]

theorem chooses_minMax (hm : Proper m) (wantMax : Bool) : Chooses m (readAs m md.daz a) (readAs m md.daz b) (m.minMax md wantMax a b)
    (if wantMax then readAs m md.daz b else readAs m md.daz a) (if wantMax then readAs m md.daz a else readAs m md.daz b) := by
  rw [minMax_eq read_eq_readAs read_eq_readAs]
  generalize readAs m md.daz a = x
  generalize readAs m md.daz b = y
  refine ⟨fun hx hy => ?_, fun hx hy => ?_, fun hx hy => ?_, fun hnan => ?_⟩
  · rw [if_pos ⟨hx, hy⟩]
    exact firstNan_pair hm (.inl hx)
  · rw [if_neg (by simp [hy]), if_pos hx, nanFlag_single]
  · rw [if_neg (by simp [hx]), if_neg (by simp [hx]), if_pos hy, nanFlag_single]
  · obtain ⟨hx, hy⟩ := not_or.mp hnan
    rw [if_neg fun h => hx h.1, if_neg hx, if_neg hy, ← key_le_key_iff]
    exact ⟨fun h => by cases wantMax <;> simp [h], fun h => by cases wantMax <;> simp [h]⟩

theorem chooses_elements (hm : Proper m) :
    Chooses m (readAs m md.daz a) (readAs m md.daz b) (floatElem .min m md a b c) (readAs m md.daz a) (readAs m md.daz b) ∧
    Chooses m (readAs m md.daz a) (readAs m md.daz b) (floatElem .max m md a b c) (readAs m md.daz b) (readAs m md.daz a) :=
  ⟨chooses_minMax hm false, chooses_minMax hm true⟩

/-- The predicate of a compare on two numbers (R276). -/
def Relates (pr : BitVec 3) (p q : ℚ) : Prop :=
  match pr.toNat with
  | 0 => p = q | 1 => p ≠ q | 2 => p < q | 3 => p ≤ q | 4 => q < p | 5 => q ≤ p | _ => False

theorem predicate_iff (pr : BitVec 3) (p q : ℚ) : predicate pr (decide (p < q)) (decide (p = q)) = true ↔ Relates pr p q := by
  unfold predicate Relates
  rcases pr.toNat with _ | _ | _ | _ | _ | _ | k
  · simp
  · simp
  · simp
  · simp [le_iff_lt_or_eq]
  · show (!(decide (p < q) || decide (p = q))) = true ↔ q < p
    simp only [Bool.not_eq_true', Bool.or_eq_false_iff, decide_eq_false_iff_not, ← not_or, ← le_iff_lt_or_eq, not_le]
  · simp
  · simp

/-- `o` is 1 or 0 as the predicate says, and NV where R293 says. -/
def Compares (m : Fmt) (pr : BitVec 3) (x y : ℕ) (o : Out) : Prop :=
  (m.isNan x = true ∨ m.isNan y = true → o.v = (if pr = 1 ∨ pr = 6 then 1 else 0) ∧
    (o.fl = 16 ↔ (m.isSnan x = true ∨ m.isSnan y = true) ∨ (2 ≤ pr.toNat ∧ pr.toNat ≤ 5))) ∧
  (¬ (m.isNan x = true ∨ m.isNan y = true) →
    (Relates pr (number m x) (number m y) → o = { v := 1 }) ∧ (¬ Relates pr (number m x) (number m y) → o = { v := 0 })) ∧
  (o.fl = 0 ∨ o.fl = 16)

theorem compare_eq {pr : BitVec 3} (ha : m.read md.daz a = x) (hb : m.read md.daz b = y) : m.compare md pr a b =
    let fl := if (m.isNan x || m.isNan y) && (pr == 2 || pr == 3 || pr == 4 || pr == 5) then flagNV else m.nanFlag [x, y]
    if m.isNan x || m.isNan y then { v := if pr = 1 ∨ pr = 6 then 1 else 0, fl }
    else
      let eq := (m.isZero x && m.isZero y) || x == y
      { v := if predicate pr (!eq && decide (m.key x < m.key y)) eq then 1 else 0, fl } := by
  subst ha hb
  rfl

theorem nanFlag_pair : m.nanFlag [x, y] = if m.isSnan x = true ∨ m.isSnan y = true then 16 else 0 := by
  simp [Fmt.nanFlag, flagNV]

theorem isOrdered_iff (pr : BitVec 3) : (pr == 2 || pr == 3 || pr == 4 || pr == 5) = true ↔ 2 ≤ pr.toNat ∧ pr.toNat ≤ 5 := by
  revert pr
  decide

theorem compareFlag_eq_NV_iff (p : Prop) [Decidable p] :
    (if p then flagNV else m.nanFlag [x, y]) = 16 ↔ (m.isSnan x = true ∨ m.isSnan y = true) ∨ p := by
  rw [nanFlag_pair]
  by_cases hp : p
  · simp [hp, flagNV]
  · by_cases hs : m.isSnan x = true ∨ m.isSnan y = true
    · simp only [hp, hs, if_true, if_false, true_or]
    · simp only [hp, hs, if_false, or_self, iff_false]
      decide

theorem compareFlag_cases (p : Prop) [Decidable p] :
    (if p then flagNV else m.nanFlag [x, y]) = 0 ∨ (if p then flagNV else m.nanFlag [x, y]) = 16 := by
  rw [nanFlag_pair]
  split_ifs
  · exact .inr rfl
  · exact .inr rfl
  · exact .inl rfl

theorem compares_compare {pr : BitVec 3} (ha : Fits m a) (hb : Fits m b) :
    Compares m pr (readAs m md.daz a) (readAs m md.daz b) (floatElem (.cmp pr) m md a b c) := by
  change Compares m pr _ _ (m.compare md pr a b)
  rw [compare_eq read_eq_readAs read_eq_readAs]
  have hx := fits_readAs (daz := md.daz) ha
  have hy := fits_readAs (daz := md.daz) hb
  generalize readAs m md.daz a = x at hx ⊢
  generalize readAs m md.daz b = y at hy ⊢
  by_cases hnan : m.isNan x = true ∨ m.isNan y = true
  · have hany : (m.isNan x || m.isNan y) = true := by simpa using hnan
    simp only [hany, Bool.true_and, if_true, isOrdered_iff]
    exact ⟨fun _ => ⟨rfl, compareFlag_eq_NV_iff _⟩, fun h => absurd hnan h, compareFlag_cases _⟩
  · obtain ⟨hxnan, hynan⟩ := not_or.mp hnan
    have hany : (m.isNan x || m.isNan y) = false := by simpa using hnan
    have hflag : m.nanFlag [x, y] = 0 := by
      rw [nanFlag_pair, if_neg fun h => h.elim (fun h => hxnan (isNan_of_isSnan h)) fun h => hynan (isNan_of_isSnan h)]
    have hsame : ((m.isZero x && m.isZero y) || x == y) = decide (number m x = number m y) := by
      rw [Bool.eq_iff_iff, decide_eq_true_eq, number_eq_iff hx hy]
      simp
    have hless : (!decide (number m x = number m y) && decide (m.key x < m.key y)) = decide (number m x < number m y) := by
      rw [Bool.eq_iff_iff, decide_eq_true_eq, number_lt_iff]
      simp
    simp only [hany, Bool.false_and, Bool.false_eq_true, if_false, hflag]
    rw [hsame, hless]
    exact ⟨fun h => absurd h hnan, fun _ => ⟨fun h => by rw [if_pos ((predicate_iff _ _ _).mpr h)],
      fun h => by rw [if_neg (mt (predicate_iff _ _ _).mp h)]⟩, .inl rfl⟩

/-! #### Signs -/

theorem abs_eq_unsigned (ha : Fits m a) : (if m.sign a then m.negate a else a) = unsigned m a := by
  have h := eq_encoding ha
  rw [negate_eq ha]
  cases hs : m.sign a
  · rw [if_neg (by simp)]
    nth_rw 1 [h]
    simp [encoding, hs]
  · simp [encoding]

/-! #### Widening products (R277, R291, R366) -/

/-- A value that a format represents is delivered as it is, with no flag. -/
theorem exact_of_delivered {x : ℚ} {zero : Bool} {o : Out} {n : ℕ} (h : Delivered m md x zero o) (hftz : md.ftz = false) (hx : |x| = magnitude m n)
    (hn : n < m.top * 2 ^ m.f) : o = { v := encoding m (if n = 0 then zero else decide (x < 0)) n } := by
  have hzero : x = 0 ↔ n = 0 := by rw [← abs_eq_zero, hx, magnitude_eq_zero]
  by_cases h0 : n = 0
  · subst h0
    exact h.1 (hzero.mpr rfl)
  obtain ⟨-, hr⟩ := h.2 (mt hzero.mp h0)
  rw [if_neg h0]
  have hstep := magnitude_strictMono m n.lt_succ_self
  simp only [hx] at hr
  have hfinal := hr n hn (sub_self _).ge (sub_neg.mpr hstep)
  have hup : ∀ odd, roundsUp md.rm (decide (x < 0)) odd (magnitude m n) (magnitude m (n + 1)) (fun q => magnitude m n - q) = false :=
    fun odd => roundsUp_exact (sub_self _) (by linarith)
  simp only [hup, sub_self, lt_self_iff_false, decide_false, Bool.and_false, Bool.false_eq_true, if_false] at hfinal
  exact hfinal.2.2 hn.ne (.inr hftz)

/-- A format represents every value of its precision and range. -/
theorem exists_magnitude {k : ℕ} {j : ℤ} (hk : k < 2 ^ (m.f + 1)) (hj : 1 - (m.bias : ℤ) - m.f ≤ j) (hm : Proper m)
    (hlt : (k : ℚ) * 2 ^ j < 2 ^ ((m.bias : ℤ) + 1)) : ∃ n < m.top * 2 ^ m.f, magnitude m n = k * 2 ^ j := by
  by_cases h0 : k = 0
  · exact ⟨0, Nat.mul_pos (top_pos hm) (by positivity), by simp [h0, magnitude_zero]⟩
  obtain ⟨i, w, hp⟩ := exists_placed (m := m) (v := ⟨false, k, j⟩) h0
  have hlast : lastBit m ⟨false, k, j⟩ ≤ j := by
    have hlog : Nat.log2 k ≤ m.f := Nat.lt_succ_iff.mp ((Nat.log2_lt h0).mpr hk)
    unfold lastBit leading
    dsimp only
    split_ifs <;> omega
  obtain ⟨w', hsize, -⟩ := roundAt_exact (v := ⟨false, k, j⟩) (rm := 0) hlast
  rw [hp.last] at hsize
  have hunit : (0 : ℚ) < 2 ^ grid m i := by positivity
  have hw : w' = w := by
    have h1 := lt_of_mul_lt_mul_right (hsize ▸ hp.size_lt) hunit.le
    have h2 := le_of_mul_le_mul_right (hsize ▸ hp.le_size) hunit
    have h1' : w' < w + 1 := by exact_mod_cast h1
    have h2' : w ≤ w' := by exact_mod_cast h2
    omega
  have hmag : magnitude m (i * 2 ^ m.f + w) = k * 2 ^ j := by rw [hp.lower, ← hw, ← hsize]; rfl
  refine ⟨_, (magnitude_strictMono m).lt_iff_lt.mp ?_, hmag⟩
  rwa [hmag, magnitude_infinity hm]

/-- A value at a position of a format is delivered as it is, with no flag. -/
theorem deliver_exact (hm : Proper m) (hrm : md.rm.toNat ≤ 4) (hftz : md.ftz = false) {v : Machine.Dyadic} {n : ℕ} (hv : size v = magnitude m n)
    (hn : n < m.top * 2 ^ m.f) : m.deliver md v = { v := encoding m v.s n } := by
  have h := exact_of_delivered (delivered_signedSize hm hrm fun _ => rfl) hftz ((abs_signedSize v).trans hv) hn
  rw [h]
  split_ifs with h0
  · rfl
  · have hne : v.m ≠ 0 := fun hz => h0 (magnitude_eq_zero.mp (hv.symm.trans (size_eq_zero.mpr hz)))
    have hneg : decide (signedSize v < 0) = v.s := by rw [Bool.eq_iff_iff, decide_eq_true_eq, signedSize_neg_iff hne]
    rw [hneg]

theorem number_encoding {s : Bool} {n : ℕ} (hn : n < 2 ^ (m.e + m.f)) : number m (encoding m s n) = (if s then -1 else 1) * magnitude m n := by
  rw [number, sign_encoding hn, unsigned_encoding hn]

theorem infinity_lt : m.top * 2 ^ m.f < 2 ^ (m.e + m.f) := by
  rw [pow_add, ← top_add_one]
  exact Nat.mul_lt_mul_of_pos_right (Nat.lt_succ_self _) (by positivity)

theorem isNan_encoding_eq_false {s : Bool} {n : ℕ} (hn : n < m.top * 2 ^ m.f) : m.isNan (encoding m s n) = false := by
  rw [← Bool.not_eq_true, isNan_iff, unsigned_encoding (hn.trans infinity_lt)]
  omega

theorem isInf_encoding_eq_false {s : Bool} {n : ℕ} (hn : n < m.top * 2 ^ m.f) : m.isInf (encoding m s n) = false := by
  rw [← Bool.not_eq_true, isInf_iff, unsigned_encoding (hn.trans infinity_lt)]
  omega

theorem sig_lt : m.sig x < 2 ^ (m.f + 1) := by
  have := frac_lt (m := m) (x := x)
  unfold Fmt.sig
  rw [pow_succ]
  split_ifs <;> omega

theorem le_scale : 1 - (m.bias : ℤ) - m.f ≤ m.scale x := by
  unfold Fmt.scale
  split_ifs <;> omega

theorem size_value_lt (hm : Proper m) (hnan : m.isNan x = false) (hinf : m.isInf x = false) : size (m.value x) < 2 ^ ((m.bias : ℤ) + 1) := by
  rw [size_value, ← magnitude_infinity hm]
  exact magnitude_strictMono m (unsigned_lt_infinity hnan hinf)

end

section

variable {md : FMode} {x y a b c : ℕ}

/-- F48 holds every finite F24 value. -/
theorem widen_finite {daz : Bool} (hx : readAs f24 daz a = x) (hnan : f24.isNan x = false) (hinf : f24.isInf x = false) :
    ∃ n < f48.top * 2 ^ f48.f, widen f24 f48 daz a = encoding f48 (f24.sign x) n ∧ magnitude f48 n = size (f24.value x) := by
  have hproper : Proper f48 := proper_fmtOf (t := 7)
  have hsize := size_value_lt (proper_fmtOf (t := 6)) hnan hinf
  have hsig : f24.sig x < 2 ^ 16 := sig_lt
  have hscale : -141 ≤ f24.scale x := le_scale
  obtain ⟨n, hn, hmag⟩ := exists_magnitude (m := f48) (k := f24.sig x) (j := f24.scale x) (hsig.trans (by decide))
    ((show 1 - (f48.bias : ℤ) - f48.f ≤ -141 by decide).trans hscale) hproper (hsize.trans (zpow_lt_zpow_right₀ one_lt_two (by decide)))
  refine ⟨n, hn, ?_, hmag⟩
  unfold widen
  rw [read_eq_readAs, hx]
  simp only [hnan, hinf, Bool.false_eq_true, if_false]
  rw [deliver_exact hproper (by decide) rfl (v := f24.value x) hmag.symm hn]
  rfl

/-- The product of two finite F24 values in F48 is exact. -/
theorem mul_widen_exact (hrm : md.rm.toNat ≤ 4) (hx : readAs f24 md.daz a = x) (hy : readAs f24 md.daz b = y)
    (hxnan : f24.isNan x = false) (hynan : f24.isNan y = false) (hxinf : f24.isInf x = false) (hyinf : f24.isInf y = false) :
    ∃ n < f48.top * 2 ^ f48.f, magnitude f48 n = size (f24.value x) * size (f24.value y) ∧
      f48.mul { md with ftz := false, daz := false } (widen f24 f48 md.daz a) (widen f24 f48 md.daz b) =
        { v := encoding f48 (f24.sign x != f24.sign y) n } := by
  have hproper : Proper f48 := proper_fmtOf (t := 7)
  obtain ⟨p, hp, hwx, hpx⟩ := widen_finite hx hxnan hxinf
  obtain ⟨q, hq, hwy, hqy⟩ := widen_finite hy hynan hyinf
  have hxlt := size_value_lt (proper_fmtOf (t := 6)) hxnan hxinf
  have hylt := size_value_lt (proper_fmtOf (t := 6)) hynan hyinf
  have hsig : (mulDyadic (f24.value x) (f24.value y)).m < 2 ^ 32 := Nat.mul_lt_mul'' (c := 2 ^ 16) (d := 2 ^ 16) sig_lt sig_lt
  have hscale : -282 ≤ (mulDyadic (f24.value x) (f24.value y)).e :=
    add_le_add (show -141 ≤ f24.scale x from le_scale) (show -141 ≤ f24.scale y from le_scale)
  obtain ⟨n, hn, hmag⟩ := exists_magnitude (m := f48) (hsig.trans (by decide))
    ((show 1 - (f48.bias : ℤ) - f48.f ≤ -282 by decide).trans hscale) hproper
    (show size (mulDyadic (f24.value x) (f24.value y)) < _ by
      rw [size_mulDyadic]
      refine (mul_lt_mul'' hxlt hylt (size_nonneg _) (size_nonneg _)).trans ?_
      rw [← zpow_add₀ two_ne_zero]
      exact zpow_lt_zpow_right₀ one_lt_two (by decide))
  refine ⟨n, hn, hmag.trans size_mulDyadic, ?_⟩
  have hread : ∀ w, readAs f48 false w = w := fun w => by simp [readAs]
  rw [hwx, hwy, mul_eq]
  simp only [hread]
  rw [nanOf_pair (by simp [isNan_encoding_eq_false hp, isNan_encoding_eq_false hq]), Option.getD_none]
  simp only [isInf_encoding_eq_false hp, isInf_encoding_eq_false hq, Bool.false_eq_true, false_and, and_false, or_self, if_false]
  have hsize : size (mulDyadic (f48.value (encoding f48 (f24.sign x) p)) (f48.value (encoding f48 (f24.sign y) q))) = magnitude f48 n := by
    rw [size_mulDyadic, size_value, size_value, unsigned_encoding (hp.trans infinity_lt), unsigned_encoding (hq.trans infinity_lt), hpx, hqy, hmag]
    exact size_mulDyadic.symm
  have hsign : (mulDyadic (f48.value (encoding f48 (f24.sign x) p)) (f48.value (encoding f48 (f24.sign y) q))).s = (f24.sign x != f24.sign y) :=
    congrArg₂ bne (sign_encoding (hp.trans infinity_lt)) (sign_encoding (hq.trans infinity_lt))
  rw [deliver_exact (md := { rm := md.rm }) hproper hrm rfl hsize hn, hsign]

/-- The widening product of two finite F24 values is their product, with its sign and no flag. -/
theorem mulw_exact (hrm : md.rm.toNat ≤ 4) (hx : readAs f24 md.daz a = x) (hy : readAs f24 md.daz b = y)
    (hxnan : f24.isNan x = false) (hynan : f24.isNan y = false) (hxinf : f24.isInf x = false) (hyinf : f24.isInf y = false) :
    let o := floatElem .mulw f24 md a b c
    number f48 o.v = number f24 x * number f24 y ∧ f48.sign o.v = (f24.sign x != f24.sign y) ∧ o.v < 2 ^ 48 ∧ o.fl = 0 := by
  obtain ⟨n, hn, hmag, hmul⟩ := mul_widen_exact hrm hx hy hxnan hynan hxinf hyinf
  have hfit := hn.trans infinity_lt
  intro o
  have ho : o = { v := encoding f48 (f24.sign x != f24.sign y) n } := hmul
  rw [ho]
  refine ⟨?_, sign_encoding hfit, fits_encoding hfit, rfl⟩
  rw [number_encoding hfit, hmag, number_eq, number_eq, signedSize, signedSize, show (f24.value x).s = f24.sign x from rfl,
    show (f24.value y).s = f24.sign y from rfl]
  cases f24.sign x <;> cases f24.sign y <;> simp

end

end Sys2Proof.Proofs

/-! ### Scalar floating-point instructions (R67, R68, R327, R329) -/

namespace Sys2Proof.Proofs
open Sys2Proof Sys2Proof.Machine

/-! #### Element operations by their type -/

section

variable {t : BitVec 4} {md : FMode} {a b c : ℕ}

/-- An operation whose result depends on the format, neither a move, nor a selection, nor a conversion. -/
def computes : ElemOp → Bool
  | .sel | .mov | .cvt _ _ => false
  | _ => true

theorem elemOp_of_isFloat {op : ElemOp} {sat : Bool} (ht : isFloat t = true) (hop : computes op = true) :
    elemOp op t sat md a b c = floatElem op (fmtOf t) md a b c := by
  unfold elemOp
  split
  · nomatch hop
  · nomatch hop
  · nomatch hop
  · exact if_pos ht

theorem isFloat_iff : isFloat t = true ↔ t = 6 ∨ t = 7 := by simp [isFloat]

theorem typeBits_of_isFloat (ht : isFloat t = true) : typeBits t = (fmtOf t).e + (fmtOf t).f + 1 := by
  rcases isFloat_iff.mp ht with rfl | rfl <;> rfl

theorem fits_of_isFloat (ht : isFloat t = true) (ha : a < 2 ^ typeBits t) : Fits (fmtOf t) a := by
  rwa [typeBits_of_isFloat ht] at ha

end

/-- The widening product of two finite F24 values (R277, R291). -/
theorem elemOp_mulw_exact {t : BitVec 4} {md : FMode} {a b c : ℕ} (hrm : md.rm.toNat ≤ 4) (h6 : t = 6)
    (hxinf : (fmtOf t).isInf (readAs (fmtOf t) md.daz a) = false) (hyinf : (fmtOf t).isInf (readAs (fmtOf t) md.daz b) = false)
    (hnan : ¬ ((fmtOf t).isNan (readAs (fmtOf t) md.daz a) = true ∨ (fmtOf t).isNan (readAs (fmtOf t) md.daz b) = true)) :
    let o := elemOp .mulw t false md a b c
    number f48 o.v = number (fmtOf t) (readAs (fmtOf t) md.daz a) * number (fmtOf t) (readAs (fmtOf t) md.daz b) ∧
    f48.sign o.v = ((fmtOf t).sign (readAs (fmtOf t) md.daz a) != (fmtOf t).sign (readAs (fmtOf t) md.daz b)) ∧ o.v < 2 ^ 48 ∧ o.fl = 0 := by
  obtain ⟨hx, hy⟩ := not_or.mp hnan
  subst h6
  rw [elemOp_of_isFloat rfl rfl]
  exact mulw_exact hrm rfl rfl (eq_false_of_ne_true hx) (eq_false_of_ne_true hy) hxinf hyinf

/-! #### Operands and results in F registers -/

section

variable {s u w : State} {c : Core} {d a b e : Reg} {p : Bool} {rms : BitVec 3}

/-- An F24 operand is boxed where bits 47:24 of its register are all ones (R67, R68). -/
theorem fOperand_eq : fOperand w c a p = if p then (getFr w c a).toNat
    else if (getFr w c a).toNat / 2 ^ 24 = 0xFFFFFF then (getFr w c a).toNat % 2 ^ 24 else f24.defaultNan := by
  have hhigh : bits (getFr w c a) 24 24 = (0xFFFFFF : BitVec 24) ↔ (getFr w c a).toNat / 2 ^ 24 = 0xFFFFFF := by
    have hlt := (getFr w c a).isLt
    rw [← BitVec.toNat_inj, bits, BitVec.extractLsb'_toNat, Nat.shiftRight_eq_div_pow, Nat.mod_eq_of_lt (by omega)]
    rfl
  have hlow : (bits (getFr w c a) 0 24).toNat = (getFr w c a).toNat % 2 ^ 24 := by
    rw [bits, BitVec.extractLsb'_toNat, Nat.shiftRight_zero]
  unfold fOperand unboxed
  simp only [hhigh, hlow]

theorem boxed_eq (v : ℕ) : boxed v = BitVec.ofNat 48 (0xFFFFFF000000 + v % 2 ^ 24) := by
  have hlt : v % 2 ^ 24 < 2 ^ 24 := Nat.mod_lt _ (by decide)
  apply BitVec.eq_of_toNat_eq
  rw [boxed, BitVec.toNat_append, BitVec.toNat_ofNat, BitVec.toNat_ofNat, Nat.shiftLeft_eq, Nat.mul_comm, ← Nat.two_pow_add_eq_or_of_lt hlt,
    Nat.mod_eq_of_lt (b := 2 ^ 48) (by omega)]
  rfl

theorem orStw_false {fl : FFlags} : orStw w c fl false = setStw w c ((ctxOf w c).stw ||| fl.setWidth 48) := by
  simp [orStw, ofBool]

theorem setFOut_eq {o : Out} : setFOut w c d p o = setFr (setStw w c ((ctxOf w c).stw ||| o.fl.setWidth 48)) c d
    (if p then BitVec.ofNat 48 o.v else BitVec.ofNat 48 (0xFFFFFF000000 + o.v % 2 ^ 24)) := by
  rw [setFOut, orStw_false, boxed_eq]

theorem rmsOk_of_ne (h5 : rms ≠ 5) (h6 : rms ≠ 6) : rmsOk rms = true := by simpa [rmsOk] using ⟨h5, h6⟩

/-- A scalar operation that issues has the result of the element operation, boxed where it is an F24 one, and its flags. -/
theorem runFloat_issues {i : Instr} {cost : ℕ} {op : ElemOp} (h : IssuesLazy .plain (some cost) s u w c) (hl : i.wellFormed = true) :
    runFloat c i cost op d a b e p rms s = .next (completes (setFOut w c d p (fResult w c op a b e p rms)) c) :=
  Laws.runIns_done_lazy h hl (by simp) rfl rfl

theorem execFcmp_issues {pred : BitVec 3} (h : IssuesLazy .plain (some 2) s u w c) (hl : (Instr.fcmp c d a b pred p rms).wellFormed = true) :
    exec (.fcmp c d a b pred p rms) s = .next (completes (setG (orStw w c (fResult w c (.cmp pred) a b a p rms).fl false) c d
      (BitVec.ofNat 48 (fResult w c (.cmp pred) a b a p rms).v)) c) :=
  Laws.runIns_done_lazy h hl (by simp) rfl rfl

end

/-- Settles O14: each element operation by its clause, each scalar instruction by the element operation that it runs. -/
theorem floatResults : Obligations.FloatResults := by
  unfold Obligations.FloatResults
  refine ⟨fun t md a b c pr ht hrm ha hb hc => ?_, fun s u w cr d a b e p rms pred h5 h6 => ?_⟩
  · have hm : Proper (fmtOf t) := proper_fmtOf
    have hfa := fits_of_isFloat ht ha
    have hfb := fits_of_isFloat ht hb
    have hfc := fits_of_isFloat ht hc
    have hout : ∀ op, computes op = true → floatElem op (fmtOf t) md a b c = elemOp op t false md a b c :=
      fun op h => (elemOp_of_isFloat ht h).symm
    have hadd := hout .add rfl ▸ adds_add (md := md) (a := a) (c := c) hm hrm hfb
    have hsub := hout .sub rfl ▸ adds_sub (md := md) (a := a) (c := c) hm hrm hfb
    have hmulnan := hout .mul rfl ▸ firstNan_mul (md := md) (a := a) (b := b) (c := c) hm
    have hdivnan := hout .div rfl ▸ firstNan_div (md := md) (a := a) (b := b) (c := c) hm
    have hrootnan := hout .sqrt rfl ▸ firstNan_sqrt (md := md) (a := a) (b := b) (c := c) hm
    have hmul := hout .mul rfl ▸ multiplies_mul (md := md) (a := a) (b := b) (c := c) hm hrm
    have hdiv := hout .div rfl ▸ divides_div (md := md) (a := a) (b := b) (c := c) hm hrm
    have hroot := hout .sqrt rfl ▸ roots_sqrt (md := md) (a := a) (b := b) (c := c) hm hrm
    have hfused := fused_elements (md := md) (a := a) (b := b) hm hrm hfc
    rw [hout .fma rfl, hout .fms rfl, hout .fnma rfl, hout .fnms rfl] at hfused
    obtain ⟨hfma, hfms, hfnma, hfnms⟩ := hfused
    have hchoose := chooses_elements (md := md) (a := a) (b := b) (c := c) hm
    rw [hout .min rfl, hout .max rfl] at hchoose
    obtain ⟨hcmpnan, hcmp, hcmpfl⟩ := hout (.cmp pr) rfl ▸ compares_compare (md := md) (pr := pr) (c := c) hfa hfb
    have hneg : elemOp .neg t false md a b c = { v := encoding (fmtOf t) (!(fmtOf t).sign a) (unsigned (fmtOf t) a) } :=
      (hout .neg rfl).symm.trans (congrArg (Out.mk · 0 false) (negate_eq hfa))
    have habs : elemOp .abs t false md a b c = { v := unsigned (fmtOf t) a } :=
      (hout .abs rfl).symm.trans (congrArg (Out.mk · 0 false) (abs_eq_unsigned hfa))
    exact ⟨hadd, hsub, fun hnan => ⟨hmulnan hnan, hdivnan hnan⟩, fun hnan => ⟨(hmul hnan).1, (hmul hnan).2.1, (hmul hnan).2.2, hdiv hnan⟩,
      hrootnan, hroot, hfma, hfms, hfnma, hfnms, hchoose.1, hchoose.2, hcmpnan, hcmp, hcmpfl, hneg, habs, rfl, rfl,
      elemOp_mulw_exact hrm⟩
  · have hr := rmsOk_of_ne h5 h6
    intro stw md arg out box flags issues gives
    have hgives : ∀ {i : Instr} {cost : ℕ} {op : ElemOp}, issues cost → i.wellFormed = true → runFloat cr i cost op d a b e p rms s =
        .next (completes (setFr (flags op) cr d (box (out op).v)) cr) := fun h hl => by
      rw [runFloat_issues h hl, setFOut_eq, fResult, fOperand_eq, fOperand_eq, fOperand_eq]
      rfl
    refine ⟨fun h hea => ?_, fun h hea => ?_, fun h hba hea => ?_, fun h hea => ?_, fun h hba hea => ?_, fun h => ?_⟩
    · subst hea
      exact ⟨hgives h hr, hgives h hr, hgives h hr⟩
    · subst hea
      exact hgives h hr
    · subst hba hea
      exact hgives h hr
    · subst hea
      refine ⟨hgives h hr, hgives h hr, fun hpred => ?_⟩
      rw [execFcmp_issues h (by simpa [Instr.wellFormed, hr] using hpred), orStw_false, fResult, fOperand_eq, fOperand_eq]
      rfl
    · subst hba hea
      exact ⟨hgives h hr, hgives h hr, hgives h hr⟩
    · exact ⟨hgives h hr, hgives h hr, hgives h hr, hgives h hr⟩

end Sys2Proof.Proofs

/-! ### Conversions (R78 to R81, R284, R285, R328, R369, R370) -/

namespace Sys2Proof.Proofs
open Sys2Proof Sys2Proof.Machine

/-! #### Integers -/

section

variable {w : ℕ} {i : ℤ}

theorem wrapTo_cast : (wrapTo w i : ℤ) = i % 2 ^ w := Int.toNat_of_nonneg (Int.emod_nonneg _ (by positivity))

theorem wrapTo_lt : wrapTo w i < 2 ^ w := by
  have h : (wrapTo w i : ℤ) < 2 ^ w := wrapTo_cast ▸ Int.emod_lt_of_pos _ (by positivity)
  exact_mod_cast h

theorem minOf_le_maxOf {signed : Bool} : minOf w signed ≤ maxOf w signed := by
  have h : (1 : ℤ) ≤ 2 ^ w ∧ (1 : ℤ) ≤ 2 ^ (w - 1) := ⟨one_le_pow₀ (by decide), one_le_pow₀ (by decide)⟩
  unfold minOf maxOf
  split_ifs <;> omega

/-- An exact integer is wrapped, or clamped with SAT status (R290). -/
theorem reduced_reduceInt {t : BitVec 4} {sat : Bool} : Reduced t sat i (reduceInt t sat i) := by
  have hmod : ∀ j : ℤ, (wrapTo (typeBits t) j : ℤ) % 2 ^ typeBits t = j % 2 ^ typeBits t := fun j => by rw [wrapTo_cast, Int.emod_emod]
  have hle := minOf_le_maxOf (w := typeBits t) (signed := isSigned t)
  change _ ∧ _ ∧ (_ ↔ sat = true ∧ (i < minOf (typeBits t) (isSigned t) ∨ maxOf (typeBits t) (isSigned t) < i)) ∧
    _ = (if sat = true ∧ i < minOf (typeBits t) (isSigned t) then minOf (typeBits t) (isSigned t)
      else if sat = true ∧ maxOf (typeBits t) (isSigned t) < i then maxOf (typeBits t) (isSigned t) else i) % 2 ^ typeBits t
  unfold reduceInt
  dsimp only
  split_ifs with hlo hhi
  · exact ⟨rfl, wrapTo_lt, iff_of_true rfl ⟨hlo.1, .inl hlo.2⟩, hmod _⟩
  · exact ⟨rfl, wrapTo_lt, iff_of_true rfl ⟨hhi.1, .inr hhi.2⟩, hmod _⟩
  · exact ⟨rfl, wrapTo_lt, iff_of_false (by decide) fun h => h.2.elim (fun h' => hlo ⟨h.1, h'⟩) fun h' => hhi ⟨h.1, h'⟩, hmod _⟩

theorem valOf_eq {t : BitVec 4} {a : ℕ} (ha : a < 2 ^ typeBits t) :
    valOf t a = if isSigned t = true ∧ 2 ^ (typeBits t - 1) ≤ a then (a : ℤ) - 2 ^ typeBits t else a := by
  simp only [valOf, intOf, Nat.mod_eq_of_lt ha]

end

/-! #### Between integers and floating values -/

section

variable {m n : Fmt} {md : FMode} {x a : ℕ}

/-- An integer is delivered in a format, zero as +0 (R284). -/
theorem delivered_intToFloat (hm : Proper m) (hrm : md.rm.toNat ≤ 4) {i : ℤ} : Delivered m md i false (intToFloat m md i) := by
  have hexact : signedSize ⟨decide (i < 0), i.natAbs, 0⟩ = i := by rw [signedSize_natAbs, zpow_zero, mul_one]
  rw [← hexact]
  refine delivered_signedSize hm hrm fun h0 => ?_
  rw [Int.natAbs_eq_zero.mp h0]
  rfl

/-- A value rounded to an integer (R285). -/
theorem roundAt_integer (v : Machine.Dyadic) (rm : BitVec 3) : roundAt rm v 0 =
    (if roundsUp rm v.s (⌊size v⌋.toNat % 2 == 1) (⌊size v⌋.toNat : ℚ) (⌊size v⌋.toNat + 1) (excess v)
      then ⌊size v⌋.toNat + 1 else ⌊size v⌋.toNat,
      decide (¬ size v = ⌊size v⌋.toNat)) := by
  obtain ⟨k, hlo, hhi, hround⟩ := roundAt_eq v rm 0
  rw [zpow_zero, mul_one] at hlo
  rw [zpow_zero, mul_one] at hhi
  have hk : ⌊size v⌋.toNat = k := by
    rw [show ⌊size v⌋ = (k : ℤ) from Int.floor_eq_iff.mpr ⟨by exact_mod_cast hlo, by exact_mod_cast hhi⟩, Int.toNat_natCast]
  have hrest : (0 < excess v k) ↔ ¬ size v = k := by
    rw [excess, sub_pos]
    exact ⟨fun h => h.ne', fun h => lt_of_le_of_ne hlo (Ne.symm h)⟩
  rw [hround, hk]
  simp only [zpow_zero, mul_one, hrest]

theorem floatToInt_eq {w : ℕ} {signed : Bool} (ha : m.read md.daz a = x) : floatToInt m w signed md a =
    if m.isNan x then { v := 0, fl := flagNV }
    else if m.isInf x then { v := wrapTo w (if m.sign x then minOf w signed else maxOf w signed), fl := flagNV }
    else
      let r := roundAt md.rm (m.value x) 0
      let i : ℤ := if m.sign x then -(r.1 : ℤ) else r.1
      if i < minOf w signed then { v := wrapTo w (minOf w signed), fl := flagNV }
      else if maxOf w signed < i then { v := wrapTo w (maxOf w signed), fl := flagNV }
      else { v := wrapTo w i, fl := if r.2 then flagNX else 0 } := by
  subst ha
  rfl

/-- `o` is a floating value rounded to an integer between `lo` and `hi`, or clamped (R285, R370). -/
def Truncates (m : Fmt) (rm : BitVec 3) (w : ℕ) (lo hi : ℤ) (x : ℕ) (o : Out) : Prop :=
  let v := |number m x|
  let k := ⌊v⌋.toNat
  let r : ℤ := if roundsUp rm (m.sign x) (k % 2 == 1) k (k + 1) (fun q => v - q) then k + 1 else k
  let i := if m.sign x then -r else r
  (m.isNan x = true → o = { v := 0, fl := 16 }) ∧
  (m.isInf x = true → o = { v := ((if m.sign x then lo else hi) % 2 ^ w).toNat, fl := 16 }) ∧
  (m.isNan x = false → m.isInf x = false →
    (i < lo → o = { v := (lo % 2 ^ w).toNat, fl := 16 }) ∧ (hi < i → o = { v := (hi % 2 ^ w).toNat, fl := 16 }) ∧
    (lo ≤ i → i ≤ hi → o = { v := (i % 2 ^ w).toNat, fl := if v = k then 0 else 1 }))

theorem truncates_floatToInt {w : ℕ} {signed : Bool} :
    Truncates m md.rm w (minOf w signed) (maxOf w signed) (readAs m md.daz a) (floatToInt m w signed md a) := by
  rw [floatToInt_eq read_eq_readAs]
  generalize readAs m md.daz a = x
  have hv : |number m x| = size (m.value x) := by rw [number_eq, abs_signedSize]
  have hle := minOf_le_maxOf (w := w) (signed := signed)
  unfold Truncates
  rw [hv, roundAt_integer]
  intro v k r i
  have hi : (if m.sign x = true then
      -((if roundsUp md.rm (m.value x).s (k % 2 == 1) (k : ℚ) (k + 1) (excess (m.value x)) = true then k + 1 else k : ℕ) : ℤ)
      else (if roundsUp md.rm (m.value x).s (k % 2 == 1) (k : ℚ) (k + 1) (excess (m.value x)) = true then k + 1 else k : ℕ)) = i := by
    simp only [i, r, Nat.cast_ite, Nat.cast_succ]
    rfl
  dsimp only
  rw [hi]
  refine ⟨fun hnan => if_pos hnan, fun hinf => ?_, fun hnan hinf => ?_⟩
  · rw [if_neg fun hnan => by simp [not_isInf_of_isNan hnan] at hinf, if_pos hinf]
    rfl
  · rw [if_neg (Bool.eq_false_iff.mp hnan), if_neg (Bool.eq_false_iff.mp hinf)]
    refine ⟨fun h => if_pos h, fun h => ?_, fun h h' => ?_⟩
    · rw [if_neg (by omega), if_pos h]
      rfl
    · rw [if_neg (by omega), if_neg (by omega)]
      by_cases hk : size (m.value x) = k
      · rw [if_neg (by simp [k, v, ← hk]), if_pos hk]
        rfl
      · rw [if_pos (decide_eq_true hk), if_neg hk]
        rfl

/-! #### Between formats -/

theorem readAs_of_isNan {daz : Bool} (hm : Proper m) (h : m.isNan (readAs m daz a) = true) : readAs m daz a = a := by
  unfold readAs at h ⊢
  split_ifs at h ⊢
  · rw [isNan_encoding_eq_false (Nat.mul_pos (top_pos hm) (by positivity))] at h
    nomatch h
  · rfl

theorem convertFloat_eq (ha : m.read md.daz a = x) : convertFloat m n md a =
    if m.isNan x then convertNan m n x else if m.isInf x then { v := n.inf (m.sign x) } else n.deliver md (m.value x) := by
  subst ha
  rfl

/-- A fraction with more or fewer bits: padded, or cut (R80). -/
theorem fraction_scaled (q e f : ℕ) : (if e ≤ f then q * 2 ^ (f - e) else q / 2 ^ (e - f)) = q * 2 ^ f / 2 ^ e := by
  split_ifs with h
  · rw [← Nat.mul_div_cancel (q * 2 ^ (f - e)) (show 0 < 2 ^ e by positivity), Nat.mul_assoc, ← pow_add, Nat.sub_add_cancel h]
  · rw [← Nat.mul_div_mul_right q _ (show 0 < 2 ^ f by positivity), ← pow_add, Nat.sub_add_cancel (by omega)]

/-- `o` is a floating value in another format, rounded once; a NaN keeps its sign, and its fraction is quieted and padded or cut (R80, R285). -/
def Converts (m n : Fmt) (md : FMode) (x a : ℕ) (o : Out) : Prop :=
  (m.isNan x = true → o = { v := encoding n (m.sign x) (n.top * 2 ^ n.f + ((a ||| 2 ^ (m.f - 1)) % 2 ^ m.f) * 2 ^ n.f / 2 ^ m.f),
                            fl := if m.isSnan x then 16 else 0 }) ∧
  (m.isInf x = true → o = { v := encoding n (m.sign x) (n.top * 2 ^ n.f) }) ∧
  (m.isNan x = false → m.isInf x = false → Delivered n md (number m x) (m.sign x) o)

theorem converts_convertFloat (hm : Proper m) (hn : Proper n) (hrm : md.rm.toNat ≤ 4) :
    Converts m n md (readAs m md.daz a) a (convertFloat m n md a) := by
  rw [convertFloat_eq read_eq_readAs]
  refine ⟨fun hnan => ?_, fun hinf => ?_, fun hnan hinf => ?_⟩
  · rw [if_pos hnan]
    have hsame := readAs_of_isNan hm hnan
    rw [hsame] at hnan ⊢
    rw [convertNan, quiet_eq hm hnan, Fmt.frac, fraction_scaled, pack_eq_encoding, nanFlag_single]
  · rw [if_neg fun hnan => by simp [not_isInf_of_isNan hnan] at hinf, if_pos hinf, inf_eq_encoding]
  · rw [if_neg (Bool.eq_false_iff.mp hnan), if_neg (Bool.eq_false_iff.mp hinf), number_eq]
    exact delivered_signedSize hn hrm fun _ => rfl

end

/-! #### Conversions of elements by their types -/

section

variable {t tt : BitVec 4} {zero sat : Bool} {md : FMode} {a : ℕ}

/-- The mode of a conversion: RTZ where it truncates, and no flushing into a host format (R81, R284, R285). -/
def conversionMode (zero : Bool) (tt : BitVec 4) (md : FMode) : FMode :=
  { rm := if zero then 1 else md.rm, ftz := md.ftz && !decide (tt = 10 ∨ tt = 11), daz := md.daz && !decide (tt = 10 ∨ tt = 11) }

theorem conversionMode_rm (hrm : md.rm.toNat ≤ 4) : (conversionMode zero tt md).rm.toNat ≤ 4 := by
  unfold conversionMode
  cases zero
  · exact hrm
  · exact show (1 : BitVec 3).toNat ≤ 4 by decide

/-- The mode of the model for another target. -/
theorem conversionMode_eq (h : ¬ (tt = 10 ∨ tt = 11)) : (if zero then { md with rm := 1 } else md) = conversionMode zero tt md := by
  rw [conversionMode, decide_eq_false h, Bool.not_false, Bool.and_true, Bool.and_true]
  cases zero <;> rfl

theorem conversionMode_host (h : tt = 10 ∨ tt = 11) :
    ({ (if zero then { md with rm := 1 } else md) with ftz := false, daz := false } : FMode) = conversionMode zero tt md := by
  rw [conversionMode, decide_eq_true h, Bool.not_true, Bool.and_false, Bool.and_false]
  cases zero <;> rfl

theorem isInt_facts : ∀ y : BitVec 4, isInt y = true → y ≠ 8 ∧ ¬ (y = 10 ∨ y = 11) := by decide

theorem floating_facts : ∀ y : BitVec 4, y ∈ ([6, 7, 10, 11] : List (BitVec 4)) → y ≠ 8 ∧ isInt y = false := by decide

theorem convertElem_bit (ha : a < 2 ^ typeBits 8) : convertElem 8 tt zero sat md a = { v := a } := by
  rw [convertElem, if_pos rfl, Nat.mod_eq_of_lt (show a < 2 from ha)]

theorem convertElem_to_bit (ht : t ≠ 8) (ha : a < 2 ^ typeBits t) : convertElem t 8 zero sat md a = { v := if a = 0 then 0 else 1 } := by
  rw [convertElem, if_neg ht, if_pos rfl, Nat.mod_eq_of_lt ha]

theorem convertElem_ints (ht : isInt t = true) (htt : isInt tt = true) :
    convertElem t tt zero sat md a = reduceInt tt (sat && decide (typeBits tt ≤ typeBits t)) (valOf t a) := by
  rw [convertElem, if_neg (isInt_facts t ht).1, if_neg (isInt_facts tt htt).1, if_pos ⟨ht, htt⟩]

theorem convertElem_int_to_float (ht : isInt t = true) (htt : tt ≠ 8) (hint : isInt tt = false) (hhost : ¬ (tt = 10 ∨ tt = 11)) :
    convertElem t tt zero sat md a = intToFloat (fmtOf tt) (conversionMode zero tt md) (valOf t a) := by
  rw [convertElem, if_neg (isInt_facts t ht).1, if_neg htt, if_neg (by simp [hint]), if_pos ht, conversionMode_eq hhost]

theorem convertElem_float_to_int (ht : t ≠ 8) (hint : isInt t = false) (htt : isInt tt = true) :
    convertElem t tt zero sat md a = floatToInt (fmtOf t) (typeBits tt) (isSigned tt) (conversionMode zero tt md) a := by
  rw [convertElem, if_neg ht, if_neg (isInt_facts tt htt).1, if_neg (by simp [hint]), if_neg (by simp [hint]), if_pos htt,
    conversionMode_eq (isInt_facts tt htt).2]

theorem convertElem_floats (ht : t ≠ 8) (hint : isInt t = false) (htt : tt ≠ 8) (hint' : isInt tt = false) :
    convertElem t tt zero sat md a = convertFloat (fmtOf t) (fmtOf tt) (conversionMode zero tt md) a := by
  rw [convertElem, if_neg ht, if_neg htt, if_neg (by simp [hint]), if_neg (by simp [hint]), if_neg (by simp [hint'])]
  by_cases hhost : tt = 10 ∨ tt = 11
  · rw [if_pos hhost, conversionMode_host hhost]
  · rw [if_neg hhost, conversionMode_eq hhost]

/-- No integer is converted to a host format (R284). -/
theorem not_host_of_cvtPair : ∀ t tt : BitVec 4, cvtPair t tt = true → isInt t = true → ¬ (tt = 10 ∨ tt = 11) := by decide

end

/-! #### Scalar moves and conversions (R328) -/

section

variable {s u w : State} {c : Core} {d a : Reg} {p un h : Bool} {rms : BitVec 3}

theorem execGtof_issues (hi : IssuesLazy .plain (some 1) s u w c) (hr : rmsOk rms = true) :
    exec (.gtof c d a p rms) s = .next (completes (setFr w c d (getG w c a)) c) := Laws.runIns_done_lazy hi hr (by simp) rfl rfl

theorem execFtog_issues (hi : IssuesLazy .plain (some 1) s u w c) (hr : rmsOk rms = true) :
    exec (.ftog c d a p rms) s = .next (completes (setG w c d (getFr w c a)) c) := Laws.runIns_done_lazy hi hr (by simp) rfl rfl

variable (hi : IssuesLazy .plain (some 2) s u w c)
include hi

theorem execCvtif_issues (hr : rmsOk rms = true) : exec (.cvtif c d a p rms un) s =
    .next (completes (setFOut w c d p (convertElem (iType un) (fType p) false false (modeOf w c rms) (getG w c a).toNat)) c) :=
  Laws.runIns_done_lazy hi hr (by simp) rfl rfl

theorem execCvtff_issues (hr : rmsOk rms = true) : exec (.cvtff c d a p rms) s =
    .next (completes (setFOut w c d p (convertElem (fType !p) (fType p) false false (modeOf w c rms) (fOperand w c a !p))) c) :=
  Laws.runIns_done_lazy hi hr (by simp) rfl rfl

theorem execCvtfi_issues (hr : rmsOk rms = true) : exec (.cvtfi c d a p rms un) s =
    (let r := convertElem (fType p) (iType un) false false (modeOf w c rms) (fOperand w c a p)
     .next (completes (setG (orStw w c r.fl false) c d (BitVec.ofNat 48 r.v)) c)) :=
  Laws.runIns_done_lazy hi hr (by simp) rfl rfl

theorem execCvtfh_issues (hr : (Instr.cvtfh c d a p rms h).wellFormed = true) : exec (.cvtfh c d a p rms h) s =
    (let r := convertElem (fType p) (hType h) false false (modeOf w c rms) (fOperand w c a p)
     let z := orStw w c r.fl false
     .next (completes (if h then setPair z c d (BitVec.ofNat 96 r.v) else setG z c d (BitVec.ofNat 48 r.v)) c)) :=
  Laws.runIns_done_lazy hi hr (by simp) rfl rfl

theorem execCvthf_issues (hr : (Instr.cvthf c d a p rms h).wellFormed = true) : exec (.cvthf c d a p rms h) s =
    (let x := if h then (getPair w c a).toNat % 2 ^ 64 else (getG w c a).toNat % 2 ^ 32
     .next (completes (setFOut w c d p (convertElem (hType h) (fType p) false false (modeOf w c rms) x)) c)) :=
  Laws.runIns_done_lazy hi hr (by simp) rfl rfl

omit hi

/-- The even register of a pair takes the low half, the next the high half (R310). -/
theorem setPair_ofNat {v : ℕ} : setPair w c d (BitVec.ofNat 96 v) =
    setG (setG w c d (BitVec.ofNat 48 v)) c (d.val + 1) (BitVec.ofNat 48 (v % 2 ^ 96 / 2 ^ 48)) := by
  have hlow : bits (BitVec.ofNat 96 v) 0 48 = BitVec.ofNat 48 v := by
    apply BitVec.eq_of_toNat_eq
    rw [bits, BitVec.extractLsb'_toNat, Nat.shiftRight_zero, BitVec.toNat_ofNat, BitVec.toNat_ofNat]
    exact Nat.mod_mod_of_dvd _ (pow_dvd_pow 2 (by decide))
  have hhigh : bits (BitVec.ofNat 96 v) 48 48 = BitVec.ofNat 48 (v % 2 ^ 96 / 2 ^ 48) := by
    apply BitVec.eq_of_toNat_eq
    rw [bits, BitVec.extractLsb'_toNat, BitVec.toNat_ofNat, BitVec.toNat_ofNat, Nat.shiftRight_eq_div_pow]
  rw [setPair, hlow, hhigh]

theorem getPair_toNat : (getPair w c a).toNat = (getG w c a).toNat + (getG w c (a.val + 1)).toNat * 2 ^ 48 := by
  rw [getPair, BitVec.toNat_append, Nat.shiftLeft_eq, Nat.mul_comm, ← Nat.two_pow_add_eq_or_of_lt (getG w c a).isLt, Nat.add_comm]

end

/-- Settles O15: a conversion by the kinds of its two types, each instruction by the conversion that it runs. -/
theorem floatConversions : Obligations.FloatConversions := by
  unfold Obligations.FloatConversions
  refine ⟨fun t tt zero sat md a hpair hrm ha => ?_, fun s u w c d a p un hst rms h5 h6 => ?_⟩
  · have hmode := conversionMode_rm (zero := zero) (tt := tt) hrm
    intro o m n host mode value x neg floating
    refine ⟨fun ht => ?_, fun htt => ?_, fun ht htt => ?_, fun ht htt => ?_, fun ht htt => ?_, fun ht htt => ?_⟩
    · subst ht
      exact convertElem_bit ha
    · subst htt
      have ht : t ≠ 8 := by rintro rfl; exact absurd hpair (by decide)
      exact convertElem_to_bit ht ha
    · have ho : o = reduceInt tt (sat && decide (typeBits tt ≤ typeBits t)) value := (convertElem_ints ht htt).trans (by rw [valOf_eq ha])
      rw [ho]
      exact reduced_reduceInt
    · obtain ⟨h8, hint⟩ := floating_facts tt htt
      have ho : o = intToFloat n mode value :=
        (convertElem_int_to_float ht h8 hint (not_host_of_cvtPair t tt hpair ht)).trans (by rw [valOf_eq ha]; rfl)
      rw [ho]
      exact delivered_intToFloat proper_fmtOf hmode
    · obtain ⟨h8, hint⟩ := floating_facts t ht
      have ho : o = floatToInt m (typeBits tt) (isSigned tt) mode a := convertElem_float_to_int h8 hint htt
      rw [ho]
      exact truncates_floatToInt
    · obtain ⟨h8, hint⟩ := floating_facts t ht
      obtain ⟨h8', hint'⟩ := floating_facts tt htt
      have ho : o = convertFloat m n mode a := convertElem_floats h8 hint h8' hint'
      rw [ho]
      exact converts_convertFloat proper_fmtOf proper_fmtOf hmode
  · have hr := rmsOk_of_ne h5 h6
    intro stw md x pair arg box fl int host flags toF toG
    refine ⟨fun h => ⟨execGtof_issues h hr, execFtog_issues h hr⟩,
      fun h => ⟨?_, ?_, ?_, fun hh => ?_, fun hh heven => ?_, fun hh => ?_, fun hh heven => ?_⟩⟩
    · refine (execCvtif_issues h hr).trans ?_
      rw [setFOut_eq]
      rfl
    · refine (execCvtfi_issues h hr).trans ?_
      dsimp only
      rw [orStw_false, fOperand_eq]
      rfl
    · refine (execCvtff_issues h hr).trans ?_
      rw [setFOut_eq, fOperand_eq]
      cases p <;> rfl
    · subst hh
      refine (execCvtfh_issues h (by simp [Instr.wellFormed, hr])).trans ?_
      dsimp only
      rw [orStw_false, fOperand_eq]
      rfl
    · subst hh
      refine (execCvtfh_issues h (by simp [Instr.wellFormed, hr, pairOk, heven])).trans ?_
      dsimp only
      rw [orStw_false, fOperand_eq, if_pos rfl, setPair_ofNat]
      rfl
    · subst hh
      refine (execCvthf_issues h (by simp [Instr.wellFormed, hr])).trans ?_
      dsimp only
      rw [setFOut_eq]
      rfl
    · subst hh
      refine (execCvthf_issues h (by simp [Instr.wellFormed, hr, pairOk, heven])).trans ?_
      dsimp only
      rw [setFOut_eq, if_pos rfl, getPair_toNat]
      rfl

end Sys2Proof.Proofs

/-! ### The memory frame: L2 answers for every ply of its lines (R7, R346, R348) -/

namespace Sys2Proof.Proofs
open Sys2Proof Sys2Proof.Machine

/-- The state after an access, where it completes. -/
def Got.state? {α : Type} : Got α → Option State
  | .ok _ s => some s
  | _ => none

theorem Got.state?_eq_some {α : Type} {g : Got α} {t : State} : Got.state? g = some t ↔ ∃ x, g = .ok x t := by
  cases g <;> simp [Got.state?]

/-- The first word of the deep store (R33). -/
def deepWord : Nat := 0x100000000

/-- The first line of the deep store, as a scalar core's store to a word of it leaves it in L2 (R346, R348). -/
def dirtyLine : L2Line := { line := deepWord, words := List.replicate 8 {}, dirty := true }

/-- Frame 0 is open to the normal world of partition 0, and L2 holds its first line dirty. -/
def soiledDeep : State :=
  { State.reset with
    frames := Tab.empty.insert 0 { owner := 0, rights := 0x03F }
    store := { State.reset.store with l2 := Tab.empty.insert (l2Key deepWord 0) dirtyLine } }

/-- A pump at work for the normal world of partition 0, whose accesses go beside the caches (R347). -/
def pumpWho : Who := { code := 0, safety := false, sup := true, master := 0 }

theorem l2Find_soiledDeep {k : Nat} {l : L2Line} (h : soiledDeep.store.l2Find k = some l) : l = dirtyLine := by
  unfold StoreSt.l2Find at h
  split at h
  · next way _ =>
    have hfind : (if l2Key k way = l2Key deepWord 0 then some dirtyLine else none) = some l :=
      (Laws.find_insert Tab.empty _ _ _).symm.trans h
    split_ifs at hfind
    exact (Option.some.inj hfind).symm
  · nomatch h

theorem l2Dirty_soiledDeep {k : Nat} {x : StoredWord} (h : soiledDeep.store.l2Dirty k = some x) : x = {} := by
  obtain ⟨l, hfind, hword⟩ := Option.bind_eq_some_iff.mp h
  rw [l2Find_soiledDeep hfind] at hword
  exact List.eq_of_mem_replicate (List.mem_of_getElem? hword)

/-- Its stored words are free of errors, at their targets and as the masters meet them. -/
theorem sound_soiledDeep (k : Nat) :
    ((cellAt soiledDeep k).err = 0 ∧ (cellAt soiledDeep k).fold = 0 ∧ (cellAt soiledDeep k).poison = false) ∧
    ((memAt soiledDeep k).err = 0 ∧ (memAt soiledDeep k).fold = 0 ∧ (memAt soiledDeep k).poison = false) := by
  refine ⟨blank_sound k, ?_⟩
  unfold memAt
  split_ifs
  · cases hdirty : soiledDeep.store.l2Dirty k with
    | none => exact blank_sound k
    | some x => rw [l2Dirty_soiledDeep hdirty]; exact ⟨rfl, rfl, rfl⟩
  · exact blank_sound k

/-- The pump's store of 1 to ply 0 of the word shows at the address of its ply 1 too: L2's copy has changed, and L2 answers for both. -/
theorem store_shows_at_next_ply :
    (Got.state? (storePliesAt soiledDeep pumpWho deepWord 1 1 0)).map (memAt · (deepWord + 1)) = some { data := 1 } := by decide

theorem next_ply_before_store : memAt soiledDeep (deepWord + 1) = {} := by decide

/-- Refutes O35: the statement lets `k` be any ply address, not only that of the ply 0 by which a word is named, and leaves out of the frame only
the latter. L2 answers for every address of a line that it holds (R346), so the word under ply 1 changes with a store to ply 0 of the same word
in a dirty line (R348). -/
theorem not_memoryFrame : ¬ Obligations.MemoryFrame := by
  unfold Obligations.MemoryFrame
  intro h
  obtain ⟨t, hstate, hafter⟩ := Option.map_eq_some_iff.mp store_shows_at_next_ply
  obtain ⟨⟨⟩, hstore⟩ := Got.state?_eq_some.mp hstate
  have beside : ∀ i, i < 1 → viaCaches soiledDeep pumpWho (deepWord + i) = false := fun i _ => rfl
  have outside : ∀ i, i < 1 → deepWord + 1 ≠ wordBase (remapped soiledDeep (deepWord + i)) := by decide
  have hsame := ((h soiledDeep t pumpWho deepWord 1 1 0 sound_soiledDeep (by decide)).1 (.inl beside)).1 hstore (deepWord + 1) (by decide) outside
  rw [hafter, next_ply_before_store] at hsame
  exact absurd hsame (by decide)

end Sys2Proof.Proofs

/-! ### The registers of the deep store and error injection (R102 to R106, R131, R167, R168) -/

namespace Sys2Proof.Proofs
open Sys2Proof Sys2Proof.Machine

section
variable {s t : State} {w : Writer} {a : Auth} {r q : Rg} {v : Reg24} {e : Reject} {l : List (Bool × Reject)} {n : Nat}

/-! #### Judging a write (R650) -/

theorem judge_nil : judge [] t = .ok t := rfl

theorem judge_cons {b : Bool} : judge ((b, e) :: l) t = if b then .error e else judge l t := by
  cases b <;> rfl

theorem rd_grantRegisters : rd (grantRegisters s w) q = rd s q := by
  obtain ⟨_, h⟩ := grantRegisters_frame s w
  rw [h]
  rfl

theorem rdF_grantRegisters {lo len : Nat} : rdF (grantRegisters s w) q lo len = rdF s q lo len := congrArg (bits · lo len) rd_grantRegisters

/-- The block of the deep store, the frame table and integrity judges the writes of its registers (R35). -/
theorem putBlock_store (h : r.index < 0x3000) : putBlock s a r v = writeStoreBlock s a r v := if_pos h

/-- A rejection outside the firmware block posts its reason and nothing else (R21, R588). -/
theorem postReject_store (h : r.index < 0x3000) : postReject s r e = post s (statusOf r).1 (statusOf r).2 e := if_neg (by omega)

theorem safe_of_supervisor (hw : a.safety = true) (hp : a.sup = true) : a.safe = true := by simp [Auth.safe, hw, hp]

theorem not_safe_of_normal (hb : a.boot = false) (hw : a.safety = false) : a.safe = false := by simp [Auth.safe, hb, hw]

/-! #### DS_CH_CFG (R105, R106, R131) -/

theorem dsChCfg_index (hn : n < 128) : 0x2000 ≤ (Rg.dsChCfg n).index ∧ (Rg.dsChCfg n).index < 0x2080 := by
  simp only [Rg.index]
  omega

theorem ofIndex_dsChCfg (hn : n < 128) : Rg.ofIndex (Rg.dsChCfg n).index = some (.dsChCfg n) := by
  obtain ⟨hlo, hhi⟩ := dsChCfg_index hn
  calc Rg.ofIndex (Rg.dsChCfg n).index
    _ = rgStore (Rg.dsChCfg n).index := (if_neg (by omega)).trans (if_pos (by omega))
    _ = some (.dsChCfg ((Rg.dsChCfg n).index - 0x2000)) := if_pos hhi
    _ = some (.dsChCfg n) := congrArg (some ∘ Rg.dsChCfg) (Nat.add_sub_cancel_left ..)

theorem putBlock_dsChCfg (hn : n < 128) : putBlock s a (.dsChCfg n) v =
    if a.safe = false then .error .notPermitted
    else if n = 127 ∧ bits v 0 2 ≠ (0 : BitVec 2) then .error .reservedCode
    else .ok (if bits v 0 2 = (0 : BitVec 2) ∨ rdF s (.dsChCfg n) 0 2 < bits v 0 2 then wrB (store s (.dsChCfg n) v) (.dsChStat n) 2 false
      else store s (.dsChCfg n) v) := by
  have hlt := (dsChCfg_index hn).2
  rw [putBlock_store (by omega)]
  simp only [writeStoreBlock, writeDsChCfg, judge_cons, judge_nil, Bool.not_eq_true', Bool.and_eq_true, beq_iff_eq, bne_iff_ne]

theorem dsChCfg_accepted (hn : n < 128) (hw : Reaches s w (Rg.dsChCfg n).index) (h : putBlock (grantRegisters s w) (authOf s w) (.dsChCfg n) v = .ok t) :
    exec (.dsChCfg w ⟨n, hn⟩ v) s = .next t := registerWrite_accepted (ofIndex_dsChCfg hn) hw h

theorem dsChCfg_rejected (hn : n < 128) (hw : Reaches s w (Rg.dsChCfg n).index)
    (h : putBlock (grantRegisters s w) (authOf s w) (.dsChCfg n) v = .error e) :
    exec (.dsChCfg w ⟨n, hn⟩ v) s = .next (post (grantRegisters s w) .dsCmd 0 e) := by
  have hlt := (dsChCfg_index hn).2
  have hstatus : statusOf (.dsChCfg n) = (.dsCmd, 0) := if_pos (by omega)
  have hpost : postReject (grantRegisters s w) (.dsChCfg n) e = post (grantRegisters s w) .dsCmd 0 e := by
    rw [postReject_store (by omega), hstatus]
  exact hpost ▸ registerWrite_rejected (ofIndex_dsChCfg hn) hw h

/-- A reservation is in force once the tags that other transactions hold leave room for it (R105). -/
theorem exec_reservationActive {c : Fin 128} (haux : s.pwr.aux = true) : exec (.reservationActive c) s =
    .next (if reservedTags s c ≠ 0 ∧ ((flights s c).filter (fun q => (masterWho s q.master).code != 8)).length + reservedTags s c ≤ 1024 then
      wrB s (.dsChStat c) 2 true else s) := congrArg Host.Outcome.next (if_pos haux)

/-! #### ECC_INJ_CTL (R167, R168) -/

/-- The fields of a value written to ECC_INJ_CTL name an injection, and the armed address a word (R167, R168). -/
def InjectionSound (there : Nat) (v : Reg24) : Prop :=
  let mode := (bits v 0 3).toNat
  let ba := (bits v 3 7).toNat
  let bb := (bits v 10 7).toNat
  mode < 6 ∧ ba < 88 ∧ bb < 88 ∧ (mode = 2 → ba ≠ bb) ∧ (mode = 3 → ba ≠ bb ∧ bb ≠ (ba + 1) % 88) ∧ plyInWord there = 0

theorem injectAddr_grantRegisters : injectAddr (grantRegisters s w) = injectAddr s := by
  simp only [injectAddr, rdF_grantRegisters, rd_grantRegisters]

/-- The reason against the fields, where the armed word may be altered. -/
def badInjection (there : Nat) (v : Reg24) : Bool :=
  6 ≤ (bits v 0 3 : BitVec 3).toNat || 88 ≤ (bits v 3 7 : BitVec 7).toNat || 88 ≤ (bits v 10 7 : BitVec 7).toNat ||
    ((bits v 0 3 == (2 : BitVec 3) || bits v 0 3 == (3 : BitVec 3)) && (bits v 3 7 : BitVec 7).toNat == (bits v 10 7 : BitVec 7).toNat) ||
    (bits v 0 3 == (3 : BitVec 3) && (bits v 10 7 : BitVec 7).toNat == ((bits v 3 7 : BitVec 7).toNat + 1) % 88) || plyInWord there != 0

theorem badInjection_eq_false_iff {there : Nat} : badInjection there v = false ↔ InjectionSound there v := by
  have hmode (m : BitVec 3) : (bits v 0 3 = m) ↔ (bits v 0 3 : BitVec 3).toNat = m.toNat := BitVec.toNat_inj.symm
  simp only [badInjection, InjectionSound, Bool.or_eq_false_iff, Bool.and_eq_false_iff, decide_eq_false_iff_not, beq_eq_false_iff_ne, bne_eq_false_iff_eq,
    ne_eq, hmode, show (2 : BitVec 3).toNat = 2 from rfl, show (3 : BitVec 3).toNat = 3 from rfl]
  generalize (bits v 0 3 : BitVec 3).toNat = m
  generalize (bits v 3 7 : BitVec 7).toNat = x
  generalize (bits v 10 7 : BitVec 7).toNat = y
  constructor
  · rintro ⟨⟨⟨⟨⟨hm, hx⟩, hy⟩, heq⟩, hnext⟩, hply⟩
    exact ⟨by omega, by omega, by omega, by omega, by omega, hply⟩
  · rintro ⟨hm, hx, hy, htwo, hthree, hply⟩
    exact ⟨⟨⟨⟨⟨by omega, by omega⟩, by omega⟩, by omega⟩, by omega⟩, hply⟩

theorem injectable_cistern {b : Nat} (h : regionOf b = some (.cistern n)) : injectable b = true := by
  unfold injectable
  rw [h]

theorem storeOwner_cistern {b : Nat} (h : regionOf b = some (.cistern n)) : storeOwner s b = rdF s (.cisOwner n) 0 4 := by
  unfold storeOwner
  rw [h]

/-- The reasons against a write that arms a word of a cistern: who writes, the fields, whose the cistern is (R168). -/
theorem putBlock_eccInjCtl (h : regionOf (injectAddr s) = some (.cistern n)) : putBlock s a .eccInjCtl v =
    if a.safe = false then .error .notPermitted
    else if badInjection (injectAddr s) v then .error .reservedCode
    else if (rdF s (.cisOwner n) 0 4).toNat < 8 && codePart (rdF s (.cisOwner n) 0 4) == a.part then
      .ok (wrB (store s .eccInjCtl v) .eccInjCtl 17 (bits v 0 3 != (0 : BitVec 3)))
    else .error .notPermitted := by
  have hblock : putBlock s a .eccInjCtl v = writeEccInjCtl s a v := putBlock_store (by decide)
  have hjudge : writeEccInjCtl s a v = judge [(!a.safe, .notPermitted), (badInjection (injectAddr s) v || !injectable (injectAddr s), .reservedCode),
      (!((storeOwner s (injectAddr s)).toNat < 8 && codePart (storeOwner s (injectAddr s)) == a.part), .notPermitted)]
      (wrB (store s .eccInjCtl v) .eccInjCtl 17 (bits v 0 3 != (0 : BitVec 3))) := rfl
  rw [hblock, hjudge, injectable_cistern h, storeOwner_cistern h]
  simp only [judge_cons, judge_nil, Bool.not_true, Bool.or_false, Bool.not_eq_true', ← Bool.not_eq_true, ite_not]

end

/-- Settles O45: each register by what its block judges of a write, a reservation by the tags that are free. -/
theorem deepStoreRegisters : Obligations.DeepStoreRegisters := by
  intro s w c n v haux a new r g
  refine ⟨fun hw hworld hsup => ?_, fun hw hboot hworld => ?_, fun hres hroom => ?_, fun _ hroom => ?_, fun hw _ hworld hsup => ?_⟩
  · have hblock := putBlock_dsChCfg (s := g) (a := a) (v := v) c.isLt
    rw [safe_of_supervisor hworld hsup, if_neg (by decide), rdF_grantRegisters] at hblock
    refine ⟨fun hc hlt => ?_, fun hc hne hle => ?_, fun hc hne => ?_⟩
    · rw [if_neg (fun h => hc h.1), if_pos (.inr hlt)] at hblock
      exact dsChCfg_accepted c.isLt hw hblock
    · rw [if_neg (fun h => hc h.1), if_neg (fun h => h.elim hne (BitVec.not_lt.mpr hle))] at hblock
      exact dsChCfg_accepted c.isLt hw hblock
    · rw [if_pos ⟨hc, hne⟩] at hblock
      exact dsChCfg_rejected c.isLt hw hblock
  · exact dsChCfg_rejected c.isLt hw ((putBlock_dsChCfg c.isLt).trans (if_pos (not_safe_of_normal hboot hworld)))
  · rw [exec_reservationActive haux, if_pos ⟨hres, hroom⟩]
  · rw [exec_reservationActive haux, if_neg (fun h => by omega)]
  · intro mode ba bb there sound hcistern
    have hthere : injectAddr g = there := injectAddr_grantRegisters
    have hblock := putBlock_eccInjCtl (s := g) (a := a) (v := v) (hthere.symm ▸ hcistern)
    have hbad : badInjection there v = false ↔ sound := badInjection_eq_false_iff
    rw [safe_of_supervisor hworld hsup, if_neg (by decide), rdF_grantRegisters, hthere] at hblock
    refine ⟨fun hs ho hp => ?_, fun hs => ?_, fun hs ho hp => ?_⟩
    · have hown : codePart (rdF s (.cisOwner n) 0 4) = a.part := (if_pos ho).trans hp.symm
      have harm : (bits v 0 3 != (0 : BitVec 3)) = decide (mode ≠ 0) := by
        rw [Bool.eq_iff_iff, bne_iff_ne, decide_eq_true_iff]
        exact not_congr BitVec.toNat_inj.symm
      rw [hbad.mpr hs, if_neg (by decide), if_pos (by simp [ho, hown]), harm] at hblock
      exact registerWrite_accepted rfl hw hblock
    · rw [if_pos (by simpa using mt hbad.mp hs)] at hblock
      exact registerWrite_rejected rfl hw hblock
    · have hother : codePart (rdF s (.cisOwner n) 0 4) ≠ a.part := fun h => hp (h.symm.trans (if_pos ho))
      rw [hbad.mpr hs, if_neg (by decide), if_neg (by simp [hother])] at hblock
      exact registerWrite_rejected rfl hw hblock

end Sys2Proof.Proofs

/-! ### The end of a move: ply addresses between the deep store and the sump channel (R33, R109, R124, R346) -/

namespace Sys2Proof.Proofs
open Sys2Proof Sys2Proof.Machine

/-- The first sump frame whose entry a command may change (R108, R122). -/
def sumpFrame : Nat := 2080768 + 1536

/-- A ply address in no region (R33): `frameOf`, carried on past the end of the deep store, gives it the number of `sumpFrame`, whose words lie
in the sump channel. Lines begin at multiples of 48 plies from the base of a region, so beyond every region not where a number begins. -/
def strayPly : Nat := 0x100000000 + 0xC000 * sumpFrame

/-- A dirty line of L2 that holds `strayPly`. -/
def strayLine : L2Line := { line := lineOf strayPly, words := List.replicate 8 { data := 1 }, dirty := true }

/-- The address has the number of the frame, word 0 of its line has another. -/
theorem frameOf_strayPly : frameOf strayPly = sumpFrame ∧ frameOf strayLine.line ≠ sumpFrame := by decide

/-- SET_OWNER of the frame to the safety world of partition 0, zeroing it. -/
def zeroingMove : FtCmd := { op := 1, frame := sumpFrame, owner := 1, rights := 0xFC0, zero := true }

/-- In RUN, with core 0 running bank 4; command set 0 moves the frame, and L2 holds `strayLine`. -/
def movingSump : State :=
  let s := wrB (wr (wr State.reset .modStat 6) (.capStat 0) 16) (.ftCmd 0) 0 true
  { s with
    frames := Tab.empty.insert sumpFrame { owner := 0xF, rights := 0, moving := true }
    store := { s.store with ftRun := Tab.empty.insert 0 zeroingMove, l2 := Tab.empty.insert (l2Key strayPly 0) strayLine } }

theorem reaches_movingSump : Reaches movingSump (.scalar 0) (Rg.ftOp 0).index := by
  unfold Reaches
  decide

/-- The end of the move takes the lines that its frame number names out of L2; the line stays and answers for `strayPly` (R348). -/
theorem strayPly_after_move : (after (exec (.frameMoveComplete 0) movingSump)).map (memAt · strayPly) = some { data := 1 } := by decide

/-- Refutes O47: the words that a zeroing move leaves zero are given as every address below the sump channel that has the frame's number. Between
the deep store and the sump channel no region lies (R33), but addresses there have numbers of sump frames, and a dirty line of L2 there, which the
statement's states do not leave out, stays when its word 0 has another number. -/
theorem not_frameCommands : ¬ Obligations.FrameCommands := by
  unfold Obligations.FrameCommands
  intro h
  obtain ⟨-, -, -, hends⟩ := h movingSump (.scalar 0) 0 zeroingMove sumpFrame reaches_movingSump
  obtain ⟨hmove, -⟩ := hends rfl rfl rfl ⟨rfl, rfl⟩
  obtain ⟨t, hexec, -, -, -, -, -, -, hzero⟩ := hmove rfl rfl (by decide)
  obtain ⟨hnumber, -⟩ := frameOf_strayPly
  have hzeroed : memAt t strayPly = {} := hzero rfl strayPly (by decide) (by decide) hnumber rfl
  have hstays : some (memAt t strayPly) = some { data := 1 } :=
    (congrArg (fun o => (after o).map (memAt · strayPly)) hexec).symm.trans strayPly_after_move
  rw [hzeroed] at hstays
  exact absurd hstays (by decide)

end Sys2Proof.Proofs

/-! ### The error log: what an entry writes and what it spares (R163, R164, R166, R348) -/

namespace Sys2Proof.Proofs
open Sys2Proof Sys2Proof.Machine

section
variable {st st' : StoreSt} {s t u : State} {a k key n : Nat} {w : StoredWord} {r : Rg} {e : LogEntry}

/-! #### L2 after a write to another line (R348) -/

/-- Dirty copies are looked up in L2 alone. -/
theorem l2Dirty_congr (h : st'.l2 = st.l2) : st'.l2Dirty k = st.l2Dirty k := by
  simp only [StoreSt.l2Dirty, StoreSt.l2Find, StoreSt.l2Way, h]

/-- First-level copies that go leave L2 and the scrubber. -/
theorem l1Drop_frame (st : StoreSt) (a keep : Nat) : ∃ l1, st.l1Drop a keep = { st with l1 := l1 } :=
  Laws.foldl_keeps (P := fun t : StoreSt => ∃ l1, t = { st with l1 := l1 }) _ _
    (fun t c ht => by
      obtain ⟨l1, rfl⟩ := ht
      dsimp only
      split <;> exact ⟨_, rfl⟩) _ ⟨st.l1, rfl⟩

theorem overwritten_frame (st : StoreSt) (a : Nat) (w : StoredWord) : ∃ l1 l2, st.overwritten a w = { st with l1 := l1, l2 := l2 } := by
  have hput : ∃ l2, st.putL2 a w = { st with l2 := l2 } := by
    unfold StoreSt.putL2
    split
    · exact ⟨_, rfl⟩
    · split <;> exact ⟨_, rfl⟩
  obtain ⟨l2, hl2⟩ := hput
  obtain ⟨l1, hl1⟩ := l1Drop_frame (st.putL2 a w) a 4
  exact ⟨l1, l2, by rw [StoreSt.overwritten, hl1, hl2]⟩

/-- A way that holds the line of an address before a write to another line holds it after, and holds the same. -/
theorem find_l2_putL2 (h : lineOf k ≠ lineOf a) (j : Nat) :
    ((st.putL2 a w).l2.find j).filter (fun l => l.line == lineOf k) = (st.l2.find j).filter (fun l => l.line == lineOf k) := by
  unfold StoreSt.putL2
  split
  · rfl
  next way hway =>
    split
    · rfl
    next l hl =>
      have hline : l.line = lineOf a := by simpa [hl] using List.find?_some hway
      rw [Laws.find_insert]
      split
      next hj => simp [hj, hl, Option.filter, hline, h.symm]
      · rfl

theorem l2Find_eq_filter : st.l2Find k = (st.l2Way k).bind (fun way => (st.l2.find (l2Key k way)).filter (fun l => l.line == lineOf k)) := by
  unfold StoreSt.l2Find
  cases hway : st.l2Way k with
  | none => rfl
  | some way =>
    have hany : (st.l2.find (l2Key k way)).any (fun l => l.line == lineOf k) = true := by simpa using List.find?_some hway
    obtain ⟨l, hl, hline⟩ := (Option.any_eq_true ..).mp hany
    rw [Option.bind_some, hl, Option.filter_some, if_pos hline]
    exact hl

/-- A write to a line leaves the dirty copies of every other line. -/
theorem l2Dirty_overwritten (h : lineOf k ≠ lineOf a) : (st.overwritten a w).l2Dirty k = st.l2Dirty k := by
  have hany (x : Option L2Line) : x.any (fun l => l.line == lineOf k) = (x.filter (fun l => l.line == lineOf k)).isSome :=
    Option.isSome_filter.symm
  have hput : (st.putL2 a w).l2Find k = st.l2Find k := by
    rw [l2Find_eq_filter, l2Find_eq_filter]
    simp only [StoreSt.l2Way, hany, find_l2_putL2 h]
  obtain ⟨l1, hl1⟩ := l1Drop_frame (st.putL2 a w) a 4
  calc (st.overwritten a w).l2Dirty k
    _ = (st.putL2 a w).l2Dirty k := l2Dirty_congr (by rw [StoreSt.overwritten, hl1])
    _ = st.l2Dirty k := by rw [StoreSt.l2Dirty, StoreSt.l2Dirty, hput]

/-! #### What the log spares -/

/-- The indices of the registers that an entry of the error log may write: HEAD, the lost entries, the wrap, the channel of the log. -/
def logRegisters : List Nat := [Rg.eccLogHead.index, Rg.eccLogLost.index, Rg.eccStat.index, (Rg.eccUe 127).index]

/-- `t` is `s` but for what an entry of the error log may change: words of the sump, `logRegisters`, and state that neither a stored
word below the sump nor the scrubber shows. -/
structure LogSpares (s t : State) : Prop where
  rd : ∀ q : Rg, q.index ∉ logRegisters → rd t q = rd s q
  cellAt : ∀ k, k < sumpBase → cellAt t k = cellAt s k
  l2Dirty : ∀ k, k < sumpBase → t.store.l2Dirty k = s.store.l2Dirty k
  scrub : t.store.scrub = s.store.scrub
  scrubClock : t.store.scrubClock = s.store.scrubClock

theorem LogSpares.refl (s : State) : LogSpares s s := ⟨fun _ _ => rfl, fun _ _ => rfl, fun _ _ => rfl, rfl, rfl⟩

theorem LogSpares.trans (h : LogSpares s t) (h' : LogSpares t u) : LogSpares s u where
  rd q hq := (h'.rd q hq).trans (h.rd q hq)
  cellAt k hk := (h'.cellAt k hk).trans (h.cellAt k hk)
  l2Dirty k hk := (h'.l2Dirty k hk).trans (h.l2Dirty k hk)
  scrub := h'.scrub.trans h.scrub
  scrubClock := h'.scrubClock.trans h.scrubClock

theorem LogSpares.memAt (h : LogSpares s t) (hk : k < sumpBase) : memAt t k = memAt s k := by
  unfold Machine.memAt
  rw [h.cellAt k hk, h.l2Dirty k hk]

theorem LogSpares.scrubOf (h : LogSpares s t) : scrubOf t n = scrubOf s n := by
  unfold Machine.scrubOf
  rw [h.scrub]

/-- A write of one of the log's registers. -/
theorem LogSpares.wr {v : Reg24} (h : LogSpares s t) (hr : r.index ∈ logRegisters) : LogSpares s (wr t r v) :=
  h.trans ⟨fun _ hq => Laws.rd_wr_ne _ _ _ _ fun he => hq (he ▸ hr), fun _ _ => rfl, fun _ _ => rfl, rfl, rfl⟩

theorem lineOf_le : lineOf a ≤ a := (Nat.sub_le ..).trans (Nat.sub_le ..)

theorem regionOf_eq_sump : regionOf a = some .sump ↔ sumpBase ≤ a ∧ a < 0x1C30000000 := by
  unfold regionOf
  rw [show sumpBase = 0x1C00000000 from rfl]
  split_ifs <;> simp only [Option.some.injEq, reduceCtorEq, false_iff, true_iff] <;> omega

/-- The lines of the sump lie in the sump (R346). -/
theorem sumpBase_le_lineOf (hlo : sumpBase ≤ a) (hhi : a < 0x1C30000000) : sumpBase ≤ lineOf a := by
  have hregion : regionOf a = some .sump := regionOf_eq_sump.mpr ⟨hlo, hhi⟩
  rw [show sumpBase = 0x1C00000000 from rfl] at hlo ⊢
  simp only [lineOf, wordBase, wordIndex, plyOffset, hregion, Region.base, show sumpBase = 0x1C00000000 from rfl]
  omega

theorem LogSpares.sumpStore (h : LogSpares s t) (hlo : sumpBase ≤ key) (hhi : key < 0x1C30000000) : LogSpares s (sumpStore t key w) := by
  unfold Machine.sumpStore
  split
  · exact h.wr (by decide)
  · obtain ⟨l1, l2, hframe⟩ := overwritten_frame t.store key w
    have hline (j : Nat) (hj : j < sumpBase) : lineOf j ≠ lineOf key :=
      (lineOf_le.trans_lt hj |>.trans_le (sumpBase_le_lineOf hlo hhi)).ne
    exact h.trans ⟨fun _ _ => rfl, fun j hj => Laws.get_put_ne _ _ _ _ _ _ (hj.trans_le hlo).ne,
      fun j hj => l2Dirty_overwritten (hline j hj), by rw [hframe], by rw [hframe]⟩

/-- The place of the next entry of the error log (R163). -/
def logHead (s : State) : Nat := sumpBase + 6 * (2097152 + 2 * (rdF s .eccLogHead 0 15).toNat)

theorem logHead_bounds : sumpBase ≤ logHead s ∧ logHead s + 6 < 0x1C30000000 := by
  have hhead := (rdF s .eccLogHead 0 15).isLt
  rw [logHead, show sumpBase = 0x1C00000000 from rfl]
  omega

/-- The state once the two words of an entry stand at HEAD. -/
def logPlaced (s : State) (e : LogEntry) : State :=
  sumpStore (sumpStore s (logHead s) { data := (e.words s.clock).1 }) (logHead s + 6) { data := (e.words s.clock).2 }

/-- The state once the entry is counted too, or waits for the flash, before HEAD moves on (R166). -/
def logEntered (s : State) (e : LogEntry) : State :=
  let t := logPlaced s e
  { t with
    store := { t.store with logCount := if limitedType e.type then t.store.logCount + 1 else t.store.logCount }
    flash := if limitedType e.type then t.flash else { t.flash with unflushed := e.words s.clock :: t.flash.unflushed } }

theorem log_eq (s : State) (e : LogEntry) : log s e =
    if limitedType e.type ∧ 1024 ≤ s.store.logCount then bumpF s .eccLogLost 0 24 1
    else if (rdF s .eccLogHead 0 15).toNat = 32767 then
      wrB (bumpF (wrF (logEntered s e) .eccLogHead 0 (0 : BitVec 15)) .eccLogHead 15 9 1) .eccStat 1 true
    else wrF (logEntered s e) .eccLogHead 0 (BitVec.ofNat 15 ((rdF s .eccLogHead 0 15).toNat + 1)) := rfl

theorem logEntered_spares : LogSpares s (logEntered s e) := by
  obtain ⟨hlo, hhi⟩ := logHead_bounds (s := s)
  have hfirst : LogSpares s (Machine.sumpStore s (logHead s) { data := (e.words s.clock).1 }) :=
    (LogSpares.refl s).sumpStore hlo ((Nat.le_add_right ..).trans_lt hhi)
  have hplaced : LogSpares s (logPlaced s e) := hfirst.sumpStore (hlo.trans (Nat.le_add_right ..)) hhi
  exact hplaced.trans ⟨fun _ _ => rfl, fun _ _ => rfl, fun _ _ => rfl, rfl, rfl⟩

/-- An entry of the error log spares the rest. -/
theorem log_spares (s : State) (e : LogEntry) : LogSpares s (log s e) := by
  rw [log_eq]
  split_ifs
  · exact (LogSpares.refl s).wr (by decide)
  · exact ((logEntered_spares.wr (by decide)).wr (by decide)).wr (by decide)
  · exact logEntered_spares.wr (by decide)

/-- A word of the sump after the device wrote one there. -/
theorem cellAt_sumpStore (hkey : 0x60000000 ≤ key) (hsump : rdB s (.dsChStat 127) 1 = false) :
    cellAt (sumpStore s key w) k = if k = key then w else cellAt s k := by
  unfold sumpStore cellAt
  rw [hsump, if_neg (by decide)]
  dsimp only
  split
  next hk => rw [hk, Laws.blank_high hkey, Laws.get_put_same]
  next hk => exact Laws.get_put_ne _ _ _ _ _ _ hk

/-- Where the interval has room and the sump channel works, the two words of an entry stand at HEAD (R163, R164, R166). -/
theorem cellAt_log (hroom : limitedType e.type = true → s.store.logCount < 1024) (hsump : rdB s (.dsChStat 127) 1 = false) :
    cellAt (log s e) (logHead s) = { data := (e.words s.clock).1 } ∧ cellAt (log s e) (logHead s + 6) = { data := (e.words s.clock).2 } := by
  obtain ⟨hlo, hhi⟩ := logHead_bounds (s := s)
  have hhigh : 0x60000000 ≤ logHead s := le_trans (by decide) hlo
  have hspares : LogSpares s (sumpStore s (logHead s) { data := (e.words s.clock).1 }) :=
    (LogSpares.refl s).sumpStore hlo ((Nat.le_add_right ..).trans_lt hhi)
  have hsump' : rdB (sumpStore s (logHead s) { data := (e.words s.clock).1 }) (.dsChStat 127) 1 = false :=
    (congrArg (bit · 1) (hspares.rd _ (by decide))).trans hsump
  have hmem : (log s e).mem = (logPlaced s e).mem := by
    rw [log_eq, if_neg fun h => (hroom h.1).not_ge h.2]
    split <;> rfl
  have hcell (j : Nat) : cellAt (log s e) j = cellAt (logPlaced s e) j := congrArg (fun m => m.get j (blank j)) hmem
  simp only [hcell, logPlaced, cellAt_sumpStore (hhigh.trans (Nat.le_add_right ..)) hsump', cellAt_sumpStore hhigh hsump]
  simp

end

end Sys2Proof.Proofs

/-! ### Words in error: corrected, or left as poisoned (R140, R143, R144, R163 to R166) -/

namespace Sys2Proof.Proofs
open Sys2Proof Sys2Proof.Machine

section
variable {s : State} {key j n i : Nat} {w : StoredWord} {m : Byte} {located : BitVec 88} {c q : Rg} {e : LogEntry}

/-! #### How a word whose address check holds is decoded (R140, R141) -/

/-- No bit is in error where none is counted. -/
theorem eq_zero_of_popCount {k : Nat} {v : BitVec k} (h : popCount v = 0) : v = 0 := by
  refine BitVec.eq_of_getLsbD_eq fun b hb => ?_
  have hclear : ¬ v.getLsbD b = true := List.countP_eq_zero.mp h b (List.mem_range.mpr hb)
  simpa using hclear

theorem decodeWord_ce (hpoison : w.poison = false) (hfold : w.fold = 0) (herr : popCount w.err = 1 ∨ popCount w.err = 2) :
    decodeWord w = .ce w.err := by
  have hcheck : popCount w.fold = 0 := hfold ▸ popCount_zero
  unfold decodeWord
  rw [hpoison, hcheck, if_neg (by decide), if_neg (by omega), if_pos ⟨rfl, by omega⟩]

theorem decodeWord_ue (hpoison : w.poison = false) (hfold : w.fold = 0) (herr : popCount w.err = 3) : decodeWord w = .ue := by
  have hcheck : popCount w.fold = 0 := hfold ▸ popCount_zero
  unfold decodeWord
  rw [hpoison, hcheck, herr]
  rfl

/-- The bits in error located, the stored data is back. -/
theorem corrected_err : w.corrected w.err = { data := w.data } := by
  simp [StoredWord.corrected, StoredWord.raw]

/-! #### A stored word rewritten, counted and logged (R143, R144, R473) -/

/-- A stored word takes a value, a counter counts it, and an entry of the error log tells of it. -/
def rewritten (s : State) (key : Nat) (w : StoredWord) (c : Rg) (e : LogEntry) : State := log (bumpF (setMem s key w) c 0 24 1) e

theorem cellAt_rewritten (hj : j < sumpBase) : cellAt (rewritten s key w c e) j = if j = key then w else cellAt s j :=
  ((log_spares _ e).cellAt j hj).trans (Laws.cellAt_setMem s key j w)

theorem memAt_rewritten_same (hcache : cacheable key = false) (hkey : key < sumpBase) : memAt (rewritten s key w c e) key = w := by
  rw [memAt_of_not_cacheable hcache, cellAt_rewritten hkey, if_pos rfl]

theorem memAt_rewritten_ne (hj : j < sumpBase) (hne : j ≠ key) : memAt (rewritten s key w c e) j = memAt s j := by
  have hcell : cellAt (bumpF (setMem s key w) c 0 24 1) j = cellAt s j := Laws.cellAt_setMem_ne s w hne
  have hmem : memAt (bumpF (setMem s key w) c 0 24 1) j = memAt s j := by
    unfold memAt
    rw [hcell]
    rfl
  exact ((log_spares _ e).memAt hj).trans hmem

theorem rd_rewritten_counter (hc : c.index ∉ logRegisters) : rd (rewritten s key w c e) c = bumpField (rd s c) 0 24 1 :=
  ((log_spares _ e).rd c hc).trans (Laws.rd_wr_same ..)

theorem rd_rewritten_ne (hq : q.index ∉ logRegisters) (hne : q.index ≠ c.index) : rd (rewritten s key w c e) q = rd s q :=
  ((log_spares _ e).rd q hq).trans (Laws.rd_wr_ne _ _ _ _ hne)

theorem scrubOf_rewritten : scrubOf (rewritten s key w c e) n = scrubOf s n := (log_spares (bumpF (setMem s key w) c 0 24 1) e).scrubOf

theorem scrubClock_rewritten : (rewritten s key w c e).store.scrubClock = s.store.scrubClock :=
  (log_spares (bumpF (setMem s key w) c 0 24 1) e).scrubClock

/-- The entry stands at the HEAD that the log had before. -/
theorem cellAt_rewritten_logHead (hhead : c.index ≠ Rg.eccLogHead.index) (hstat : c.index ≠ (Rg.dsChStat 127).index)
    (hroom : s.store.logCount < 1024) (hsump : rdB s (.dsChStat 127) 1 = false) :
    cellAt (rewritten s key w c e) (logHead s) = { data := (e.words s.clock).1 } ∧
      cellAt (rewritten s key w c e) (logHead s + 6) = { data := (e.words s.clock).2 } := by
  have hplace : logHead (bumpF (setMem s key w) c 0 24 1) = logHead s :=
    congrArg (fun v : Reg24 => sumpBase + 6 * (2097152 + 2 * (bits v 0 15).toNat)) (Laws.rd_wr_ne _ _ _ _ hhead.symm)
  have hchannel : rdB (bumpF (setMem s key w) c 0 24 1) (.dsChStat 127) 1 = false :=
    (congrArg (bit · 1) (Laws.rd_wr_ne _ _ _ _ hstat.symm)).trans hsump
  exact hplace ▸ cellAt_log (e := e) (fun _ => hroom) hchannel

/-! #### Reads outside the frames (R140, R143, R144) -/

theorem readTarget_eq_decodeRead (hkey : inFrames key = false) : readTarget s key m = decodeRead s .target key m (cellAt s key) := by
  unfold readTarget failedAt
  rw [hkey, Bool.false_and, if_neg (by decide), tableWord_of_not_inFrames hkey]

theorem readWord_eq_decodeRead (hkey : cacheable key = false) : readWord s key m = decodeRead s .target key m (cellAt s key) := by
  unfold readWord
  rw [hkey]
  exact readTarget_eq_decodeRead (not_inFrames_of_not_cacheable hkey)

/-- The state after a correction: the word corrected, counted and logged (R143). -/
def afterCe (s : State) (key : Nat) (m : Byte) (w : StoredWord) (located : BitVec 88) : State :=
  rewritten s key (w.corrected located) (.eccCe (unitOf key)) (errorEntry (if popCount located ≤ 1 then 1 else 2) (unitOf key) m key w located)

/-- The state after an uncorrectable read: the word poisoned, counted and logged (R144). -/
def afterUe (s : State) (key : Nat) (m : Byte) (w : StoredWord) : State :=
  rewritten s key .poisoned (.eccUe (unitOf key)) (errorEntry 3 (unitOf key) m key w 0)

theorem decodeRead_ce (hkey : inFrames key = false) (hw : decodeWord w = .ce located) :
    decodeRead s .target key m w = ({ data := (w.corrected located).data, poison := false }, afterCe s key m w located) := by
  have hstate : readCe s .target key m w located = afterCe s key m w located := if_neg fun h => by simp [hkey] at h
  unfold decodeRead
  rw [hw]
  dsimp only
  rw [hstate]

theorem decodeRead_ue (hkey : inFrames key = false) (hw : decodeWord w = .ue) :
    decodeRead s .target key m w = markedWord (afterUe s key m w) := by
  have hstate : readUe s .target key m w = afterUe s key m w := if_neg fun h => by simp [hkey] at h
  unfold decodeRead
  rw [hw]
  dsimp only
  rw [hstate]

/-! #### Marked words: their data is drawn, and nothing else moves (log 17) -/

theorem rd_markedWord : rd (markedWord s).2 q = rd s q := rfl

theorem cellAt_markedWord : cellAt (markedWord s).2 j = cellAt s j := rfl

theorem memAt_markedWord : memAt (markedWord s).2 j = memAt s j := rfl

/-! #### Words of cisterns -/

/-- Word `i` of cistern `n`. -/
theorem regionOf_cisternWord (hn : n < 16) (hi : i < 524288) : regionOf (0x10000000 + n * 0x300000 + 6 * i) = some (.cistern n) :=
  (regionOf_eq_cistern hn).mpr (by omega)

theorem cistern_lt_sumpBase (hn : n < 16) (h : regionOf key = some (.cistern n)) : key < sumpBase := by
  have hkey := ((regionOf_eq_cistern hn).mp h).2
  rw [show sumpBase = 0x1C00000000 from rfl]
  omega

theorem unitOf_cistern (h : regionOf key = some (.cistern n)) : unitOf key = 128 + n := by
  unfold unitOf
  rw [h]

/-- The counters of a cistern are none of the registers that the log writes. -/
theorem cisternCounters_spared (hn : n < 16) : (Rg.eccCe (128 + n)).index ∉ logRegisters ∧ (Rg.eccUe (128 + n)).index ∉ logRegisters := by
  simp only [logRegisters, Rg.index, List.mem_cons, List.not_mem_nil, or_false]
  omega

/-- A correctable word of a cistern is delivered, corrected and logged as one or two bits in error (R140, R143). -/
theorem readWord_cistern_ce (hn : n < 16) (h : regionOf key = some (.cistern n)) (hw : memAt s key = w) (hpoison : w.poison = false)
    (hfold : w.fold = 0) (herr : popCount w.err = 1 ∨ popCount w.err = 2) :
    readWord s key m = ({ data := w.data, poison := false }, rewritten s key { data := w.data } (.eccCe (128 + n))
      (errorEntry (if popCount w.err = 1 then 1 else 2) (128 + n) m key w w.err)) := by
  have hcache : cacheable key = false := cacheable_cistern hn h
  have htype : (if popCount w.err ≤ 1 then 1 else 2 : Byte) = if popCount w.err = 1 then 1 else 2 := by
    rcases herr with herr | herr <;> rw [herr] <;> rfl
  rw [readWord_eq_decodeRead hcache, ← memAt_of_not_cacheable hcache, hw,
    decodeRead_ce (not_inFrames_of_not_cacheable hcache) (decodeWord_ce hpoison hfold herr), afterCe, corrected_err, unitOf_cistern h, htype]

/-- An uncorrectable word of a cistern is delivered with the mark, poisoned and logged (R140, R144). -/
theorem readWord_cistern_ue (hn : n < 16) (h : regionOf key = some (.cistern n)) (hw : memAt s key = w) (hpoison : w.poison = false)
    (hfold : w.fold = 0) (herr : popCount w.err = 3) :
    readWord s key m = markedWord (rewritten s key .poisoned (.eccUe (128 + n)) (errorEntry 3 (128 + n) m key w 0)) := by
  have hcache : cacheable key = false := cacheable_cistern hn h
  rw [readWord_eq_decodeRead hcache, ← memAt_of_not_cacheable hcache, hw,
    decodeRead_ue (not_inFrames_of_not_cacheable hcache) (decodeWord_ue hpoison hfold herr), afterUe, unitOf_cistern h]

end

/-- Settles O37: a word of a cistern lies beside the caches and the frames, and its read ends by the number of its bits in error. -/
theorem errorsOnRead : Obligations.ErrorsOnRead := by
  intro s n i m hn hi key w r t at' logged hpoison hfold
  have hregion : regionOf key = some (.cistern n) := regionOf_cisternWord hn hi
  have hcache : cacheable key = false := cacheable_cistern hn hregion
  have hkey : key < sumpBase := cistern_lt_sumpBase hn hregion
  obtain ⟨hce, hue⟩ := cisternCounters_spared hn
  refine ⟨fun herr => ?_, fun herr => ?_, fun herr => ?_⟩
  · have hcell : cellAt s key = w := (memAt_of_not_cacheable hcache).symm
    exact readWord_sound hcache (hcell.trans (eq_data_of_sound (w := w) herr hfold hpoison))
  · have hread : r = _ := readWord_cistern_ce (w := w) hn hregion rfl hpoison hfold herr
    have hstate : t = _ := congrArg Prod.snd hread
    refine ⟨congrArg Prod.fst hread, ?_, ?_, fun hroom hsump => ?_, fun k hk hne => ?_⟩ <;> rw [hstate]
    · exact memAt_rewritten_same hcache hkey
    · exact rd_rewritten_counter hce
    · exact cellAt_rewritten_logHead (by simp only [Rg.index]; omega) (by simp only [Rg.index]; omega) hroom hsump
    · exact memAt_rewritten_ne hk hne
  · have hread : r = _ := readWord_cistern_ue (w := w) hn hregion rfl hpoison hfold herr
    have hstate : t = _ := congrArg Prod.snd hread
    refine ⟨congrArg (fun x : Word × State => x.1.poison) hread, ?_, ?_, fun hroom hsump => ?_, fun k hk hne => ?_⟩ <;> rw [hstate]
    · exact memAt_markedWord.trans (memAt_rewritten_same hcache hkey)
    · exact rd_markedWord.trans (rd_rewritten_counter hue)
    · rw [cellAt_markedWord, cellAt_markedWord]
      exact cellAt_rewritten_logHead (by simp only [Rg.index]; omega) (by simp only [Rg.index]; omega) hroom hsump
    · exact memAt_markedWord.trans (memAt_rewritten_ne hk hne)

end Sys2Proof.Proofs

/-! ### Scrubbing, laps, the error log's interval and flush, and control-store repair (R153, R155 to R166, R473, R474, R572) -/

namespace Sys2Proof.Proofs
open Sys2Proof Sys2Proof.Machine

section
variable {s : State} {key j k n i : Nat} {u : Fin 158} {x : ScrubSt} {w : StoredWord} {m : Byte} {scalar : Bool}

/-! #### The commands (R549) -/

theorem exec_scrubStep (haux : s.pwr.aux = true) : exec (.scrubStep u) s = .next (scrubStep s u) := congrArg Host.Outcome.next (if_pos haux)

theorem exec_lapOverdue (haux : s.pwr.aux = true) : exec (.lapOverdue u) s = .next (lapIsOverdue s u) := congrArg Host.Outcome.next (if_pos haux)

theorem exec_logIntervalEnd (haux : s.pwr.aux = true) :
    exec .logIntervalEnd s = .next { s with store := { s.store with logCount := 0 } } := congrArg Host.Outcome.next (if_pos haux)

theorem exec_logFlush (haux : s.pwr.aux = true) : exec .logFlush s = .next (flushLog s) := congrArg Host.Outcome.next (if_pos haux)

theorem exec_controlStoreRepair (haux : s.pwr.aux = true) : exec (.controlStoreRepair scalar k) s = .next (repairStore s scalar k) :=
  congrArg Host.Outcome.next (if_pos haux)

/-! #### The scrubber's place in a unit, and the lap's end (R157 to R161) -/

theorem scrubOf_setScrub_same : scrubOf (setScrub s n x) n = x := Laws.get_put_same ..

theorem scrubOf_report : scrubOf (report s) n = scrubOf s n := by
  obtain ⟨_, _, h⟩ := report_frame s
  rw [h]
  rfl

theorem memAt_report : memAt (report s) j = memAt s j := by
  obtain ⟨_, _, h⟩ := report_frame s
  rw [h]
  rfl

theorem memAt_setScrub : memAt (setScrub s n x) j = memAt s j := rfl

/-- No lap number is 0 mod 4,096 (R159). -/
theorem nextLap_mod_ne_zero : nextLap n % 4096 ≠ 0 := by
  unfold nextLap
  split <;> omega

theorem memAt_lapEnd : memAt (lapEnd s n) j = memAt s j := memAt_report

theorem scrubOf_lapEnd : scrubOf (lapEnd s n) n = { pos := 0, lap := nextLap (scrubOf s n).lap, began := s.store.scrubClock } :=
  scrubOf_report.trans scrubOf_setScrub_same

theorem rd_lapEnd_lapnum : rd (lapEnd s n) (.scrLapnum n) = BitVec.ofNat 24 (scrubOf s n).lap := rd_report.trans (Laws.rd_wr_same ..)

theorem rd_lapEnd_laptime :
    rd (lapEnd s n) (.scrLaptime n) = BitVec.ofNat 24 (Nat.min (lapTicks s (scrubOf s n) / 40000) 8388607) := by
  have hindex : (Rg.scrLaptime n).index ≠ (Rg.scrLapnum n).index := by
    simp only [Rg.index]
    omega
  exact rd_report.trans ((Laws.rd_wr_ne _ _ _ _ hindex).trans (Laws.rd_wr_same ..))

/-! #### A step in a cistern (R155) -/

theorem unitWords_cistern (hn : n < 16) : unitWords (128 + n) = 524288 := by
  unfold unitWords
  rw [if_neg (by omega), if_pos (by omega)]

theorem unitKey_cistern (hn : n < 16) : unitKey (128 + n) i = some (0x10000000 + n * 0x300000 + 6 * i) := by
  unfold unitKey
  rw [if_neg (by omega), if_neg (by omega), if_pos (by omega), Nat.add_sub_cancel_left]

theorem scrubWord_cistern (hn : n < 16) (hkey : unitKey (128 + n) i = some key) : scrubWord s (128 + n) i = (readTarget s key 0xFF).2 := by
  unfold scrubWord
  rw [if_neg (by omega), if_neg (by omega), if_neg (by omega), hkey]

/-- A cistern has no frames whose laps would be noted (R160). -/
theorem scrubAdvance_cistern (hn : n < 16) : scrubAdvance s (128 + n) =
    let t := setScrub s (128 + n) { scrubOf s (128 + n) with pos := (scrubOf s (128 + n)).pos + 1 }
    if 524288 ≤ (scrubOf s (128 + n)).pos + 1 then lapEnd t (128 + n) else t := by
  have hframe (t : State) (i lap : Nat) : frameLap t (128 + n) i lap = t := by
    unfold frameLap
    rw [if_neg (by omega), if_neg (by omega)]
  unfold scrubAdvance
  simp only [hframe, unitWords_cistern hn]

/-- A step that the unit takes, but in the checkpoint store. -/
theorem scrubStep_scrubbed (hs : scrubbed s n = true) (hn : n ≠ 157) : scrubStep s n = scrubAdvance (scrubWord s n (scrubOf s n).pos) n := by
  unfold scrubStep
  rw [if_neg (by simp [hs])]
  simp [hn]

/-- What reading a cistern word that is not uncorrectable leaves: the word corrected, the scrubber where it was. -/
theorem readTarget_cistern_correctable (hn : n < 16) (h : regionOf key = some (.cistern n)) (hw : memAt s key = w) (hfold : w.fold = 0)
    (hpoison : w.poison = false) (herr : popCount w.err ≤ 2) :
    ∃ t, (readTarget s key m).2 = t ∧ memAt t key = { data := w.data } ∧ (∀ j, scrubOf t j = scrubOf s j) ∧
      t.store.scrubClock = s.store.scrubClock ∧ ∀ u, rd t (.scrLapnum u) = rd s (.scrLapnum u) := by
  have hcache : cacheable key = false := cacheable_cistern hn h
  have hread : readTarget s key m = readWord s key m :=
    (readTarget_eq_decodeRead (not_inFrames_of_not_cacheable hcache)).trans (readWord_eq_decodeRead hcache).symm
  rw [hread]
  by_cases hzero : popCount w.err = 0
  · have hsound : w = { data := w.data } := eq_data_of_sound (eq_zero_of_popCount hzero) hfold hpoison
    have hcell : cellAt s key = { data := w.data } := ((memAt_of_not_cacheable hcache).symm.trans hw).trans hsound
    exact ⟨s, by rw [readWord_sound hcache hcell], hw.trans hsound, fun _ => rfl, rfl, fun _ => rfl⟩
  · rw [readWord_cistern_ce hn h hw hpoison hfold (by omega)]
    refine ⟨_, rfl, memAt_rewritten_same hcache (cistern_lt_sumpBase hn h), fun _ => scrubOf_rewritten, scrubClock_rewritten, fun u => ?_⟩
    refine rd_rewritten_ne ?_ ?_
    all_goals
      simp only [logRegisters, Rg.index, List.mem_cons, List.not_mem_nil, or_false]
      omega

/-! #### A lap past its limit (R161, R540) -/

theorem bit_reported_report {b : Nat} : bit (report s).can.reported b = bit (health s) b := rfl

/-- Bit `b` of a number written as its bits. -/
theorem testBit_foldr_bits (l : List Bool) (b : Nat) : (l.foldr (fun b n => cond b 1 0 + 2 * n) 0).testBit b = l.getD b false := by
  induction l generalizing b with
  | nil => simp
  | cons a l ih =>
    rw [List.foldr_cons]
    cases b with
    | zero => cases a <;> simp [Nat.testBit_zero, Nat.add_mod]
    | succ b =>
      rw [Nat.testBit_succ, List.getD_cons_succ, ← ih]
      congr 1
      cases a <;> simp only [cond] <;> omega

/-- Bit 2 of the health bits tells of an overdue lap. -/
theorem bit_health_overdue : bit (health s) 2 = (List.range 158).any (fun u => rdB s (.scrLaptime u) 23) := by
  unfold bit health
  rw [BitVec.getLsbD_ofNat, testBit_foldr_bits]
  rfl

theorem scrLaptime_spared (u : Nat) : (Rg.scrLaptime u).index ∉ logRegisters := by
  simp only [logRegisters, Rg.index, List.mem_cons, List.not_mem_nil, or_false]
  omega

/-- The alarm of a lap past its limit: OVERDUE of its unit, and bit 2 of the health reported (R161, R540, R541). -/
theorem lapIsOverdue_alarm (hwords : unitWords n ≠ 0) (hunit : n < 158) (hs : scrubbed s n = true) (hlimit : lapLimit s n ≠ 0)
    (honce : rdB s (.scrLaptime n) 23 = false) :
    rdB (lapIsOverdue s n) (.scrLaptime n) 23 = true ∧ bit (lapIsOverdue s n).can.reported 2 = true := by
  have hset (e : LogEntry) : rdB (log (wrB s (.scrLaptime n) 23 true) e) (.scrLaptime n) 23 = true := by
    unfold rdB
    rw [(log_spares _ e).rd _ (scrLaptime_spared n), rd_wrB_same, bit_setBit]
    rfl
  unfold lapIsOverdue
  rw [if_neg (by simp [hwords, hlimit, honce, hs]), bit_reported_report, bit_health_overdue]
  exact ⟨(congrArg (bit · 23) rd_report).trans (hset _), List.any_eq_true.mpr ⟨n, List.mem_range.mpr hunit, hset _⟩⟩

theorem lapIsOverdue_once (h : rdB s (.scrLaptime n) 23 = true) : lapIsOverdue s n = s := if_pos (.inr (.inr (.inl h)))

/-! #### Control-store repair (R473, R474) -/

/-- What a master meets at a word: a dirty copy in L2, or the target's word (R348). -/
theorem memAt_eq_getD : memAt s key = (if cacheable key then s.store.l2Dirty key else none).getD (cellAt s key) := by
  unfold memAt
  split <;> rfl

/-- A word free of errors, of a channel that works, is read without the mark, and nothing moves. -/
theorem readWord_free_of_errors (herr : (memAt s key).err = 0) (hfold : (memAt s key).fold = 0) (hpoison : (memAt s key).poison = false)
    (hfailed : failedAt s key = false) : ∃ v, readWord s key m = ({ data := v, poison := false }, s) := by
  have hsound := eq_data_of_sound herr hfold hpoison
  rw [memAt_eq_getD] at hsound
  unfold readWord
  split
  next w hw =>
    rw [hw, Option.getD_some] at hsound
    exact ⟨_, by rw [hsound]; exact decodeRead_sound⟩
  next hw =>
    rw [hw, Option.getD_none] at hsound
    unfold readTarget
    rw [hfailed, if_neg (by decide)]
    split
    · exact ⟨_, by rw [hsound]; exact decodeRead_sound⟩
    · exact ⟨_, by rw [hsound]; exact decodeRead_sound⟩

/-- The key of word `k` of a control store, and the number of its scrub unit. -/
def storeKey (scalar : Bool) (k : Nat) : Nat := (if scalar then 0x58000000 else 0x50000000) + 6 * k

def storeUnit (scalar : Bool) : Nat := if scalar then 147 else 146

theorem storeKey_lt_sumpBase (hk : k < if scalar then 8192 else 43691) : storeKey scalar k < sumpBase := by
  rw [storeKey, show sumpBase = 0x1C00000000 from rfl]
  split at hk <;> split <;> omega

/-- The copies that supply a word are read: whether one is uncorrectable, and the state after (R474). -/
def readSources (s : State) (scalar : Bool) (k : Nat) (m : Byte) : Bool × State :=
  (sourceWord s scalar k).2.foldl (fun x c =>
    let y := readWord x.2 (sourceAddr scalar k c) m
    (x.1 || y.1.poison, y.2)) (false, s)

/-- A repair rewrites the word with the content of its sources, or as poisoned. -/
theorem repair_eq (s : State) (scalar : Bool) (k : Nat) (m : Byte) : ∃ e, repair s scalar k m =
    rewritten (readSources s scalar k m).2 (storeKey scalar k)
      (if (readSources s scalar k m).1 then .poisoned else { data := (sourceWord s scalar k).1 }) (.eccUe (storeUnit scalar)) e := ⟨_, rfl⟩

/-- Sources free of errors supply their content, and nothing moves. -/
theorem readSources_free_of_errors (h : ∀ c ∈ (sourceWord s scalar k).2, (memAt s (sourceAddr scalar k c)).err = 0 ∧
    (memAt s (sourceAddr scalar k c)).fold = 0 ∧ (memAt s (sourceAddr scalar k c)).poison = false ∧ failedAt s (sourceAddr scalar k c) = false) :
    readSources s scalar k m = (false, s) := by
  unfold readSources
  generalize (sourceWord s scalar k).2 = l at h
  induction l with
  | nil => rfl
  | cons c l ih =>
    obtain ⟨herr, hfold, hpoison, hfailed⟩ := h c List.mem_cons_self
    obtain ⟨v, hread⟩ := readWord_free_of_errors (m := m) herr hfold hpoison hfailed
    rw [List.foldl_cons]
    dsimp only
    rw [hread]
    exact ih fun d hd => h d (List.mem_cons_of_mem _ hd)

theorem readSources_single {c : Nat × Nat × List Byte} (h : (sourceWord s scalar k).2 = [c]) :
    (readSources s scalar k m).1 = (readWord s (sourceAddr scalar k c) m).1.poison := by
  unfold readSources
  rw [h]
  exact Bool.false_or _

/-- A word that its store can decode no more is repaired (R473). -/
theorem repairStore_uncorrectable (hk : k < if scalar then 8192 else 43691)
    (h : decodeWord (cellAt s (storeKey scalar k)) = .ue ∨ decodeWord (cellAt s (storeKey scalar k)) = .ace) :
    repairStore s scalar k = repair s scalar k 0xFF := by
  unfold repairStore
  rw [if_pos hk]
  unfold storeKey at h
  rcases h with h | h <;> rw [h]

theorem repairStore_clean (h : decodeWord (cellAt s (storeKey scalar k)) = .clean) : repairStore s scalar k = s := by
  unfold repairStore
  unfold storeKey at h
  rw [h]
  exact ite_self s

/-- A repair from sources free of errors: their content, counted as uncorrectable. -/
theorem repairStore_supplied (hk : k < if scalar then 8192 else 43691)
    (hbad : decodeWord (cellAt s (storeKey scalar k)) = .ue ∨ decodeWord (cellAt s (storeKey scalar k)) = .ace)
    (h : ∀ c ∈ (sourceWord s scalar k).2, (memAt s (sourceAddr scalar k c)).err = 0 ∧ (memAt s (sourceAddr scalar k c)).fold = 0 ∧
      (memAt s (sourceAddr scalar k c)).poison = false ∧ failedAt s (sourceAddr scalar k c) = false) :
    cellAt (repairStore s scalar k) (storeKey scalar k) = { data := (sourceWord s scalar k).1 } ∧
      rd (repairStore s scalar k) (.eccUe (storeUnit scalar)) = bumpField (rd s (.eccUe (storeUnit scalar))) 0 24 1 := by
  obtain ⟨e, hrepair⟩ := repair_eq s scalar k 0xFF
  have hcounter : (Rg.eccUe (storeUnit scalar)).index ∉ logRegisters := by cases scalar <;> decide
  rw [repairStore_uncorrectable hk hbad, hrepair, readSources_free_of_errors h]
  exact ⟨(cellAt_rewritten (storeKey_lt_sumpBase hk)).trans (if_pos rfl), rd_rewritten_counter hcounter⟩

/-- A repair whose one source is uncorrectable too (R474). -/
theorem repairStore_poisoned {c : Nat × Nat × List Byte} (hk : k < if scalar then 8192 else 43691)
    (hbad : decodeWord (cellAt s (storeKey scalar k)) = .ue ∨ decodeWord (cellAt s (storeKey scalar k)) = .ace)
    (hone : (sourceWord s scalar k).2 = [c]) (hsource : (readWord s (sourceAddr scalar k c) 0xFF).1.poison = true) :
    cellAt (repairStore s scalar k) (storeKey scalar k) = .poisoned := by
  obtain ⟨e, hrepair⟩ := repair_eq s scalar k 0xFF
  rw [repairStore_uncorrectable hk hbad, hrepair, readSources_single hone, hsource]
  exact (cellAt_rewritten (storeKey_lt_sumpBase hk)).trans (if_pos rfl)

/-- Without copies the mask ROM alone supplies a word (R473). -/
theorem sourceWord_rom (h : s.fw.copies = []) :
    sourceWord s scalar k = (if scalar then scalarBits k (Config.scalarRom k) else romWord k, []) := by
  unfold sourceWord
  rw [h]
  rfl

/-! #### A step of a cistern's unit (R155, R159, R161) -/

/-- A step corrects the word it reads and moves on; that of the last word ends the lap. -/
theorem scrubStep_cistern (hn : n < 16) (hs : scrubbed s (128 + n) = true) (hx : scrubOf s (128 + n) = x) (hpos : x.pos < 524288)
    (hkey : 0x10000000 + n * 0x300000 + 6 * x.pos = key) (hw : memAt s key = w) (hfold : w.fold = 0) (hpoison : w.poison = false)
    (herr : popCount w.err ≤ 2) :
    memAt (scrubStep s (128 + n)) key = { data := w.data } ∧
    (x.pos + 1 < 524288 → scrubOf (scrubStep s (128 + n)) (128 + n) = { x with pos := x.pos + 1 } ∧
      rd (scrubStep s (128 + n)) (.scrLapnum (128 + n)) = rd s (.scrLapnum (128 + n))) ∧
    (x.pos + 1 = 524288 → scrubOf (scrubStep s (128 + n)) (128 + n) = { pos := 0, lap := nextLap x.lap, began := s.store.scrubClock } ∧
      rd (scrubStep s (128 + n)) (.scrLapnum (128 + n)) = BitVec.ofNat 24 x.lap ∧
      rd (scrubStep s (128 + n)) (.scrLaptime (128 + n)) = BitVec.ofNat 24 (Nat.min (lapTicks s x / 40000) 8388607)) := by
  have hregion : regionOf key = some (.cistern n) := hkey ▸ regionOf_cisternWord hn hpos
  obtain ⟨t, hread, hmem, hscrub, hclock, hlap⟩ := readTarget_cistern_correctable (m := 0xFF) hn hregion hw hfold hpoison herr
  rw [scrubStep_scrubbed hs (by omega), hx, scrubWord_cistern hn (hkey ▸ unitKey_cistern hn), hread, scrubAdvance_cistern hn, hscrub, hx]
  dsimp only
  have hticks : lapTicks (setScrub t (128 + n) { x with pos := x.pos + 1 }) { x with pos := x.pos + 1 } = lapTicks s x := by
    unfold lapTicks
    rw [← hclock]
    rfl
  by_cases hlast : 524288 ≤ x.pos + 1
  · rw [if_pos hlast]
    refine ⟨memAt_lapEnd.trans (memAt_setScrub.trans hmem), fun h => absurd h (by omega), fun _ => ⟨?_, ?_, ?_⟩⟩
    · rw [scrubOf_lapEnd, scrubOf_setScrub_same, ← hclock]
      rfl
    · rw [rd_lapEnd_lapnum, scrubOf_setScrub_same]
    · rw [rd_lapEnd_laptime, scrubOf_setScrub_same, hticks]
  · rw [if_neg hlast]
    exact ⟨memAt_setScrub.trans hmem, fun _ => ⟨scrubOf_setScrub_same, hlap _⟩, fun h => absurd h (by omega)⟩

end

/-- Settles O46: each command by the lemma about it, the repair for the store and the word that it names. -/
theorem integrityCommands : Obligations.IntegrityCommands := by
  intro s n u k haux cu x key cell
  refine ⟨fun hs => ?_, fun hs hpos hfold hpoison herr => ?_, fun hwords hs hlimit honce => ?_, fun h => ?_, exec_logIntervalEnd haux,
    ⟨_, exec_logFlush haux, rfl, rfl, rfl, rfl, rfl, rfl, rfl, rfl⟩, fun scalar hk => ?_⟩
  · rw [exec_scrubStep haux]
    exact congrArg Host.Outcome.next (if_pos (by simp [hs]))
  · obtain ⟨hmem, hnext, hend⟩ := scrubStep_cistern (x := x) (key := key) (w := cell) n.isLt hs rfl hpos rfl rfl hfold hpoison herr
    refine ⟨_, exec_scrubStep haux, hmem, hnext, fun hlast => ?_⟩
    obtain ⟨hscrub, hnum, htime⟩ := hend hlast
    exact ⟨congrArg ScrubSt.pos hscrub, (congrArg ScrubSt.lap hscrub) ▸ nextLap_mod_ne_zero, hnum, htime⟩
  · exact ⟨_, exec_lapOverdue haux, lapIsOverdue_alarm hwords u.isLt hs hlimit honce⟩
  · rw [exec_lapOverdue haux, lapIsOverdue_once h]
  · intro place unit whole read
    refine ⟨sourceWord_rom, fun hbad h => ?_, fun hbad c hone hsource => ?_, fun h => ?_⟩
    · exact ⟨_, exec_controlStoreRepair haux, repairStore_supplied hk hbad h⟩
    · exact ⟨_, exec_controlStoreRepair haux, repairStore_poisoned hk hbad hone hsource⟩
    · rw [exec_controlStoreRepair haux, repairStore_clean h]

end Sys2Proof.Proofs

/-! ### Cisterns and window zero: owners, power states, the remap (R178 to R192, R203) -/

namespace Sys2Proof.Proofs
open Sys2Proof Sys2Proof.Machine

section
variable {s t : State} {w : Writer} {a : Auth} {r : Rg} {v : Reg24} {e : Reject} {o new : OwnerCode} {n i j lo lo' len len' : Nat} {b : Bool}
  {p : Nat → Bool}

/-! #### The fields of a register after a write -/

theorem rdF_wrF_same {x : BitVec len} (h : lo + len ≤ 24) : rdF (wrF s r lo x) r lo len = x :=
  (congrArg (bits · lo len) rd_wrF_same).trans (bits_setBits_same _ _ _ h)

theorem rdF_wrF_apart {x : BitVec len} (h : lo' + len' ≤ lo ∨ lo + len ≤ lo') : rdF (wrF s r lo x) r lo' len' = rdF s r lo' len' :=
  (congrArg (bits · lo' len') rd_wrF_same).trans (bits_setBits_disjoint _ _ h)

theorem rdB_wrF_apart {x : BitVec len} (h : i < lo ∨ lo + len ≤ i) : rdB (wrF s r lo x) r i = rdB s r i :=
  (congrArg (bit · i) rd_wrF_same).trans ((bit_setBits ..).trans (if_neg (by omega)))

theorem rdF_wrB_apart (h : lo + len ≤ i ∨ i < lo) : rdF (wrB s r i b) r lo len = rdF s r lo len :=
  (congrArg (bits · lo len) rd_wrB_same).trans (bits_setBits_disjoint _ _ h)

theorem rdB_wrB_same (h : i < 24) : rdB (wrB s r i b) r i = b :=
  (congrArg (bit · i) rd_wrB_same).trans ((bit_setBit ..).trans (if_pos ⟨rfl, h⟩))

theorem rdB_wrB_apart (h : j ≠ i) : rdB (wrB s r i b) r j = rdB s r j :=
  (congrArg (bit · j) rd_wrB_same).trans ((bit_setBit ..).trans (if_neg fun hj => h hj.1))

theorem rdF_of_rd (h : rd t r = rd s r) : rdF t r lo len = rdF s r lo len := congrArg (bits · lo len) h

theorem rdB_of_rd (h : rd t r = rd s r) : rdB t r i = rdB s r i := congrArg (bit · i) h

/-! #### The registers of a cistern and of window zero (R204, R205) -/

theorem cisOwner_ne_cisStat : (Rg.cisOwner n).index ≠ (Rg.cisStat n).index := by
  simp only [Rg.index]
  omega

theorem cisPwr_ne_cisStat : (Rg.cisPwr n).index ≠ (Rg.cisStat n).index := by
  simp only [Rg.index]
  omega

theorem modStat_ne_cisStat (hn : n < 16) : Rg.modStat.index ≠ (Rg.cisStat n).index := by
  simp only [Rg.index]
  omega

theorem ofIndex_cisOwner (hn : n < 16) : Rg.ofIndex (Rg.cisOwner n).index = some (.cisOwner n) := by
  interval_cases n <;> rfl

theorem ofIndex_cisPwr (hn : n < 16) : Rg.ofIndex (Rg.cisPwr n).index = some (.cisPwr n) := by
  interval_cases n <;> rfl

theorem statusOf_cisOwner (hn : n < 16) : statusOf (.cisOwner n) = (.cisCmd n, 0) := by
  interval_cases n <;> rfl

theorem putBlock_cistern (hlo : 0x3000 ≤ r.index) (hhi : r.index < 0x3400) : putBlock s a r v = writeCisBlock s a r v :=
  (if_neg (by omega)).trans (if_pos hhi)

/-- A rejection outside the firmware block posts its reason and nothing else (R21, R588). -/
theorem postReject_cistern (h : r.index < 0x3400) : postReject s r e = post s (statusOf r).1 (statusOf r).2 e := if_neg (by omega)

theorem inHandover_grantRegisters : inHandover (grantRegisters s w) n = inHandover s n := rdB_of_rd rd_grantRegisters

theorem cisState_grantRegisters : cisState (grantRegisters s w) n = cisState s n := rdF_grantRegisters

theorem inTransition_grantRegisters : inTransition (grantRegisters s w) n = inTransition s n := congrArg (· == 3) cisState_grantRegisters

theorem cisOwnerOf_grantRegisters : cisOwnerOf (grantRegisters s w) n = cisOwnerOf s n := rdF_grantRegisters

theorem llState_grantRegisters : llState (grantRegisters s w) = llState s := rdF_grantRegisters

theorem grantRegisters_mem : (grantRegisters s w).mem = s.mem := by
  obtain ⟨_, h⟩ := grantRegisters_frame s w
  rw [h]

/-! #### CIS_OWNER (R178, R179) -/

theorem codePart_of_lt (h : o.toNat < 8) : codePart o = o.toNat / 2 := if_pos h

theorem putBlock_cisOwner (hn : n < 16) : putBlock s a (.cisOwner n) v =
    if a.safe = false then .error .notPermitted
    else if inHandover s n || inTransition s n || disablingBusy s a (cisOwnerOf s n) (cisHome s n) (bits v 0 4) then .error .busy
    else if n == 15 && llHolds s then .error .lifeline
    else if reservedCode (bits v 0 4) then .error .reservedCode
    else if mayOwn s a (cisOwnerOf s n) (cisHome s n) (bits v 0 4) = false then .error .notPermitted
    else .ok (startHandover (wrB s (.cisOwner n) 4 (bit v 4)) n (bits v 0 4) (bit v 4)) := by
  have hindex : (Rg.cisOwner n).index = 0x3000 + 4 * n := rfl
  rw [putBlock_cistern (by omega) (by omega)]
  simp only [writeCisBlock, writeCisOwner, judge_cons, judge_nil, Bool.not_eq_true']

theorem disablingBusy_of_ne {home : Nat} (h : llState s ≠ 4) : disablingBusy s a o home new = false := by
  rw [disablingBusy, beq_eq_false_iff_ne.mpr h, Bool.false_and, Bool.false_and]

theorem reservedCode_eq_false (h : new = 0xF ∨ new.toNat < 9) : reservedCode new = false := by
  obtain rfl | h := h
  · rfl
  · simp only [reservedCode, Bool.and_eq_false_iff, decide_eq_false_iff_not]
    omega

/-- Code of the owner's partition gives the resource to no one, or to a code of its own partition (R178). -/
theorem mayOwn_own {home : Nat} (hl : a.code ≠ 8) (ho : o.toNat < 8) (hp : o.toNat / 2 = a.part)
    (hnew : new = 0xF ∨ (new.toNat < 8 ∧ new.toNat / 2 = a.part)) : mayOwn s a o home new = true := by
  have howner : codePart o = a.part := (codePart_of_lt ho).trans hp
  have htarget : new = 0xF ∨ (new.toNat < 8 ∧ codePart new = a.part) := hnew.imp_right fun ⟨h, hp⟩ => ⟨h, (codePart_of_lt h).trans hp⟩
  unfold mayOwn
  rw [if_neg (by simpa [Auth.lifeline] using hl), if_pos (by simp [ho, howner])]
  rcases htarget with h | ⟨h, hp⟩
  · simp [h]
  · simp [h, hp]

/-- Code of another partition than the owner's gives it to no one (R178). -/
theorem mayOwn_foreign {home : Nat} (hl : a.code ≠ 8) (ho : o.toNat < 8) (hp : o.toNat / 2 ≠ a.part) : mayOwn s a o home new = false := by
  have howner : codePart o ≠ a.part := fun h => hp ((codePart_of_lt ho).symm.trans h)
  have hnone : (o == 0xF) = false := beq_eq_false_iff_ne.mpr fun h => absurd ho (by rw [h]; decide)
  have hlifeline : (o == 8) = false := beq_eq_false_iff_ne.mpr fun h => absurd ho (by rw [h]; decide)
  unfold mayOwn
  rw [if_neg (by simpa [Auth.lifeline] using hl), hnone, if_neg (by simp [howner]), hlifeline]
  rfl

theorem cisOwner_accepted {n : Fin 16} (hw : Reaches s w (Rg.cisOwner n).index)
    (h : putBlock (grantRegisters s w) (authOf s w) (.cisOwner n) v = .ok t) : exec (.cisOwner w n v) s = .next t :=
  registerWrite_accepted (ofIndex_cisOwner n.isLt) hw h

theorem cisOwner_rejected {n : Fin 16} (hw : Reaches s w (Rg.cisOwner n).index)
    (h : putBlock (grantRegisters s w) (authOf s w) (.cisOwner n) v = .error e) :
    exec (.cisOwner w n v) s = .next (post (grantRegisters s w) (.cisCmd n) 0 e) := by
  have hindex : (Rg.cisOwner n).index = 0x3000 + 4 * n := rfl
  have hpost : postReject (grantRegisters s w) (.cisOwner n) e = post (grantRegisters s w) (.cisCmd n) 0 e := by
    rw [postReject_cistern (by omega), statusOf_cisOwner n.isLt]
  exact hpost ▸ registerWrite_rejected (ofIndex_cisOwner n.isLt) hw h

/-- A write of safety supervisor code of a partition: BUSY before LIFELINE, that before the code and the owner (R178, R650). -/
theorem putBlock_cisOwner_granted (hn : n < 16) (hworld : a.safety = true) (hsup : a.sup = true) (hll : llState s ≠ 4) :
    putBlock (grantRegisters s w) a (.cisOwner n) v =
      if inHandover s n || inTransition s n then .error .busy
      else if n = 15 ∧ llState s ≠ 0 then .error .lifeline
      else if reservedCode (bits v 0 4) then .error .reservedCode
      else if mayOwn (grantRegisters s w) a (cisOwnerOf s n) (cisHome (grantRegisters s w) n) (bits v 0 4) = false then .error .notPermitted
      else .ok (startHandover (wrB (grantRegisters s w) (.cisOwner n) 4 (bit v 4)) n (bits v 0 4) (bit v 4)) := by
  rw [putBlock_cisOwner hn, safe_of_supervisor hworld hsup, disablingBusy_of_ne (llState_grantRegisters.trans_ne hll), inHandover_grantRegisters,
    inTransition_grantRegisters, cisOwnerOf_grantRegisters]
  simp [llHolds, llDisabled, llState_grantRegisters]

section
variable (hn : n < 16) (hworld : a.safety = true) (hsup : a.sup = true) (hll : llState s ≠ 4) (hhandover : inHandover s n = false)
  (htransition : inTransition s n = false) (h15 : n ≠ 15) (hcode : a.code ≠ 8) (ho : (cisOwnerOf s n).toNat < 8)
include hn hworld hsup hll hhandover htransition h15 hcode ho

/-- Code of the owner's partition hands the cistern over, to no one or within its partition. -/
theorem putBlock_cisOwner_own (hp : (cisOwnerOf s n).toNat / 2 = a.part)
    (hnew : bits v 0 4 = (0xF : OwnerCode) ∨ ((bits v 0 4 : OwnerCode).toNat < 8 ∧ (bits v 0 4 : OwnerCode).toNat / 2 = a.part)) :
    putBlock (grantRegisters s w) a (.cisOwner n) v =
      .ok (startHandover (wrB (grantRegisters s w) (.cisOwner n) 4 (bit v 4)) n (bits v 0 4) (bit v 4)) := by
  have hreserved : reservedCode (bits v 0 4) = false := reservedCode_eq_false (hnew.imp_right fun h => by omega)
  rw [putBlock_cisOwner_granted hn hworld hsup hll, hhandover, htransition, if_neg (by decide), if_neg fun h => h15 h.1, hreserved,
    if_neg (by decide), mayOwn_own hcode ho hp hnew, if_neg (by decide)]

/-- Code of another partition does not. -/
theorem putBlock_cisOwner_foreign (hp : (cisOwnerOf s n).toNat / 2 ≠ a.part) (hnew : (bits v 0 4 : OwnerCode).toNat < 9) :
    putBlock (grantRegisters s w) a (.cisOwner n) v = .error .notPermitted := by
  have hreserved : reservedCode (bits v 0 4) = false := reservedCode_eq_false (.inr hnew)
  rw [putBlock_cisOwner_granted hn hworld hsup hll, hhandover, htransition, if_neg (by decide), if_neg fun h => h15 h.1, hreserved,
    if_neg (by decide), mayOwn_foreign hcode ho hp, if_pos rfl]

end

/-- A handover starts: it is noted with its owner and SCRUB, and OWNER stays (R179). -/
theorem startHandover_starts : inHandover (startHandover s n o b) n = true ∧ cisOwnerOf (startHandover s n o b) n = cisOwnerOf s n ∧
    handoverOf (startHandover s n o b) n = { running := true, owner := o, scrub := b } :=
  ⟨rdB_wrB_same (by decide), rdF_of_rd (rd_wrB_ne cisOwner_ne_cisStat), Laws.get_put_same ..⟩

/-! #### CIS_PWR (R181, R182, R184 to R186) -/

theorem putBlock_cisPwr (hn : n < 16) : putBlock s a (.cisPwr n) v =
    if a.sup = false then .error .notPermitted
    else if bits v 0 2 == (3 : BitVec 2) then .error .reservedCode
    else if mayPower s a n = false then .error .notPermitted
    else .ok (requestPower s n (bits v 0 2)) := by
  have hindex : (Rg.cisPwr n).index = 0x3001 + 4 * n := rfl
  rw [putBlock_cistern (by omega) (by omega)]
  simp only [writeCisBlock, writeCisPwr, judge_cons, judge_nil, Bool.not_eq_true']

/-- Supervisor-level code of the owner may request a power state (R186). -/
theorem mayPower_owner (hsup : a.sup = true) (hcode : a.code = cisOwnerOf s n) (ho : (cisOwnerOf s n).toNat < 8) : mayPower s a n = true := by
  have hnone : cisOwnerOf s n ≠ 0xF := fun h => absurd ho (by rw [h]; decide)
  have hlifeline : cisOwnerOf s n ≠ 8 := fun h => absurd ho (by rw [h]; decide)
  unfold mayPower
  rw [if_neg hlifeline, if_neg hnone, hsup, hcode, beq_self_eq_true]
  rfl

theorem cisPwr_owner {n : Fin 16} (hw : Reaches s w (Rg.cisPwr n).index) (hsup : (authOf s w).sup = true)
    (hcode : (authOf s w).code = cisOwnerOf s n) (ho : (cisOwnerOf s n).toNat < 8) (hreq : bits v 0 2 ≠ (3 : BitVec 2)) :
    exec (.cisPwr w n v) s = .next (requestPower (grantRegisters s w) n (bits v 0 2)) := by
  have howner : cisOwnerOf (grantRegisters s w) n = cisOwnerOf s n := cisOwnerOf_grantRegisters
  refine registerWrite_accepted (ofIndex_cisPwr n.isLt) hw ?_
  rw [putBlock_cisPwr n.isLt, if_neg (by simp [hsup]), if_neg (by simpa using hreq),
    if_neg (by simp [mayPower_owner hsup (hcode.trans howner.symm) (howner ▸ ho)])]

section
variable {req target : BitVec 2}

theorem cisState_wrF_cisPwr : cisState (wrF s (.cisPwr n) 0 req) n = cisState s n := rdF_of_rd (rd_wrF_ne cisPwr_ne_cisStat.symm)

/-- What becomes of a request: it waits, names the state held, or starts (R184). -/
theorem requestPower_eq : requestPower s n req =
    if inTransition s n ∨ inHandover s n then queuePower (wrF s (.cisPwr n) 0 req) n req
    else if cisState s n = req then wrF s (.cisPwr n) 0 req
    else startPower (wrF s (.cisPwr n) 0 req) n req := rfl

/-- The start of a transition stops a lap timer, and writes STATE and TARGET (R157, R182). -/
theorem startPower_eq (s : State) (n : Nat) (target : BitVec 2) : ∃ store, startPower s n target =
    wrF (wrF { s with store := store } (.cisStat n) 0 (3 : BitVec 2)) (.cisStat n) 2 target := by
  unfold startPower
  dsimp only
  split
  · exact ⟨_, rfl⟩
  · exact ⟨s.store, rfl⟩

/-- A transition starts: STATE and TARGET tell of it, the request and the memory stay (R182). -/
theorem startPower_starts : cisState (startPower s n target) n = 3 ∧ rdF (startPower s n target) (.cisStat n) 2 2 = target ∧
    rdF (startPower s n target) (.cisPwr n) 0 2 = rdF s (.cisPwr n) 0 2 ∧ (startPower s n target).mem = s.mem := by
  obtain ⟨store, h⟩ := startPower_eq s n target
  rw [h]
  refine ⟨?_, rdF_wrF_same (by decide), rdF_of_rd ?_, rfl⟩
  · exact (rdF_wrF_apart (.inl (by decide))).trans (rdF_wrF_same (by decide))
  · rw [rd_wrF_ne cisPwr_ne_cisStat, rd_wrF_ne cisPwr_ne_cisStat]
    rfl

/-- A request waits in QUEUED, and STATE stays (R184). -/
theorem queuePower_waits : rdB (queuePower s n req) (.cisStat n) 6 = true ∧ rdF (queuePower s n req) (.cisStat n) 4 2 = req ∧
    cisState (queuePower s n req) n = cisState s n :=
  ⟨rdB_wrB_same (by decide), (rdF_wrB_apart (.inl (by decide))).trans (rdF_wrF_same (by decide)),
    (rdF_wrB_apart (.inl (by decide))).trans (rdF_wrF_apart (.inl (by decide)))⟩

end

/-! #### XB_CFG (R191) -/

theorem putBlock_xbCfg : putBlock s a .xbCfg v =
    if a.safe = false then .error .notPermitted
    else if inHandover s 0 || inTransition s 0 || rdB s .xbCfg 1 then .error .busy
    else if cisState s 0 != 0 then .error .power
    else if ((cisOwnerOf s 0).toNat < 8 && codePart (cisOwnerOf s 0) == a.part) = false then .error .notPermitted
    else .ok (if bit v 0 = rdB s .xbCfg 0 then s else wrB (store s .xbCfg v) .xbCfg 1 true) := by
  rw [putBlock_cistern (by decide) (by decide)]
  simp only [writeCisBlock, writeXbCfg, judge_cons, judge_nil, Bool.not_eq_true']

/-- A write of safety supervisor code while nothing of cistern 0 or of window zero is under way: POWER before the owner (R191, R650). -/
theorem putBlock_xbCfg_granted (hworld : a.safety = true) (hsup : a.sup = true) (hhandover : inHandover s 0 = false)
    (htransition : inTransition s 0 = false) (hremap : rdB s .xbCfg 1 = false) : putBlock (grantRegisters s w) a .xbCfg v =
      if cisState s 0 ≠ 0 then .error .power
      else if ¬ ((cisOwnerOf s 0).toNat < 8 ∧ codePart (cisOwnerOf s 0) = a.part) then .error .notPermitted
      else .ok (if bit v 0 = rdB s .xbCfg 0 then grantRegisters s w else wrB (store (grantRegisters s w) .xbCfg v) .xbCfg 1 true) := by
  have hrd {i : Nat} : rdB (grantRegisters s w) .xbCfg i = rdB s .xbCfg i := rdB_of_rd rd_grantRegisters
  rw [putBlock_xbCfg, safe_of_supervisor hworld hsup, hrd, hrd, hremap, inHandover_grantRegisters, hhandover, inTransition_grantRegisters,
    htransition, cisState_grantRegisters, cisOwnerOf_grantRegisters]
  simp

/-- A change of REMAP: the new value stands, and REMAP_BUSY is 1 (R191). -/
theorem remap_starts : rdB (wrB (store s .xbCfg v) .xbCfg 1 true) .xbCfg 0 = bit v 0 ∧
    rdB (wrB (store s .xbCfg v) .xbCfg 1 true) .xbCfg 1 = true :=
  ⟨(rdB_wrB_apart (by decide)).trans ((bit_store (by decide)).trans (if_pos (by decide))), rdB_wrB_same (by decide)⟩

/-- While REMAP_BUSY is 1 every access to window zero is held (R191). -/
theorem check_window_held {who : Who} {k : Nat} {kind : Kind} (hbusy : rdB s .xbCfg 1 = true) (hk : k < 262144) (hwho : who.exempt = false) :
    check s who k kind = .held := by
  have hregion : regionOf k = some .window := if_pos hk
  unfold check
  rw [hwho, if_neg (by decide), hregion]
  exact if_pos hbusy

/-! #### The end of a command, with nothing held or waiting (R32, R179, R526) -/

theorem settled_of_quiet (h : Quiet s) : settled s = s := by
  obtain ⟨hhosts, hrefused⟩ := h
  unfold settled
  rw [settleRefused_of_nil hrefused, serveHosts_of_nil hhosts]

theorem serveHeld_of_nil (h : s.store.held = []) : serveHeld s p = s := by
  unfold serveHeld
  rw [h, List.filter_nil, List.filter_nil, List.foldl_nil, ← h]

theorem cisternNext_of_none (hnext : (handoverOf s n).next = none) (hqueued : rdB s (.cisStat n) 6 = false) : cisternNext s n = s := by
  unfold cisternNext
  dsimp only
  rw [hnext]
  exact if_neg (by simp [hqueued])

/-- A command outside the instruction streams, on a device with power, whose end leaves nothing to settle. -/
theorem live_settled {u : State} (haux : s.pwr.aux = true) (hends : u = t) (h : Quiet t) : live s (settled u) = .next t := by
  rw [hends, settled_of_quiet h]
  exact congrArg Host.Outcome.next (if_pos haux)

/-! #### Words that are zeroed -/

theorem look_filter {α : Type} (l : List (Nat × α)) (p : Nat → Bool) (k : Nat) :
    Tab.look (l.filter fun x => p x.1) k = if p k then Tab.look l k else none := by
  induction l with
  | nil => simp [Tab.look]
  | cons x l ih =>
    rw [List.filter_cons]
    by_cases hk : k = x.1
    · subst hk
      split
      next => simp [Tab.look]
      next hx => simp [ih, hx]
    · split
      · simp [Tab.look, ih, hk]
      · simp [Tab.look, ih, hk]

theorem cellAt_zeroWords {key : Nat} : cellAt (zeroWords s p) key = if p key then blank key else cellAt s key := by
  have hlook := look_filter s.mem.entries (fun k => !p k) key
  unfold cellAt zeroWords Tab.get Tab.find Tab.keep
  dsimp only
  rw [hlook]
  cases p key <;> rfl

theorem blank_cistern {key : Nat} (hn : n < 16) (h : regionOf key = some (.cistern n)) : blank key = {} := by
  have hkey := (regionOf_eq_cistern hn).mp h
  unfold blank
  rw [if_neg (by omega), if_neg (by omega)]
  rfl

/-- The state with the content of a cistern lost where `c` holds. -/
def emptied (s : State) (n : Nat) (c : Prop) [Decidable c] : State := if c then zeroWords s (inCistern n) else s

section
variable {c : Prop} [Decidable c]

theorem emptied_frame : emptied s n c = { s with mem := (emptied s n c).mem } := by
  unfold emptied
  split <;> rfl

theorem rd_emptied : rd (emptied s n c) r = rd s r := by
  rw [emptied_frame]
  rfl

theorem held_emptied : (emptied s n c).store.held = s.store.held := by
  rw [emptied_frame]

theorem handoverOf_emptied : handoverOf (emptied s n c) n = handoverOf s n := by
  rw [emptied_frame]
  rfl

theorem quiet_emptied (h : Quiet s) : Quiet (emptied s n c) := by
  rw [emptied_frame]
  exact h

theorem emptied_mem_of_not (h : ¬ c) : (emptied s n c).mem = s.mem := congrArg State.mem (if_neg h)

/-- The words of a cistern whose content is lost are zero with valid check bits (R179, R182). -/
theorem memAt_of_emptied (hn : n < 16) (hc : c) (hmem : t.mem = (emptied s n c).mem) (hi : i < 524288) :
    memAt t (0x10000000 + n * 0x300000 + 6 * i) = {} := by
  have hregion := regionOf_cisternWord hn hi
  have hcell : cellAt t (0x10000000 + n * 0x300000 + 6 * i) = cellAt (zeroWords s (inCistern n)) (0x10000000 + n * 0x300000 + 6 * i) :=
    congrArg (fun m : Tab StoredWord => m.get _ (blank _)) (hmem.trans (congrArg State.mem (if_pos hc)))
  rw [memAt_of_not_cacheable (cacheable_cistern hn hregion), hcell, cellAt_zeroWords, if_pos (by simp [inCistern, hregion]),
    blank_cistern hn hregion]

end

/-! #### The end of a handover (R179) -/

/-- Handover `h` of a cistern takes effect: its owner is in force, HANDOVER gives way to the done bit, the reservations in the cistern are gone. -/
def ownerInForce (s : State) (n : Nat) (h : Handover) : State :=
  wrB (wrB (clearReservedIn (wrF (setHandover s n { next := h.next }) (.cisOwner n) 0 h.owner) (inCistern n)) (.cisStat n) 7 false) (.cisStat n) 8 true

section
variable {h : Handover}

theorem ownerInForce_mem : (ownerInForce s n h).mem = s.mem := by simp [ownerInForce, clearReservedIn, setHandover]

theorem ownerInForce_store : (ownerInForce s n h).store = s.store := by simp [ownerInForce, clearReservedIn, setHandover]

theorem quiet_ownerInForce (hq : Quiet s) : Quiet (ownerInForce s n h) := by
  simpa [Quiet, ownerInForce, clearReservedIn, setHandover] using hq

theorem ownerInForce_takes : cisOwnerOf (ownerInForce s n h) n = h.owner ∧ inHandover (ownerInForce s n h) n = false ∧
    rdB (ownerInForce s n h) (.cisStat n) 8 = true := by
  refine ⟨?_, (rdB_wrB_apart (by decide)).trans (rdB_wrB_same (by decide)), rdB_wrB_same (by decide)⟩
  have howner : rd (ownerInForce s n h) (.cisOwner n) = rd (wrF s (.cisOwner n) 0 h.owner) (.cisOwner n) :=
    (rd_wrB_ne cisOwner_ne_cisStat).trans (rd_wrB_ne cisOwner_ne_cisStat)
  exact (rdF_of_rd howner).trans (rdF_wrF_same (by decide))

/-- What waits at the cistern still waits (R184, R203). -/
theorem ownerInForce_waits : (handoverOf (ownerInForce s n h) n).next = h.next ∧
    rdB (ownerInForce s n h) (.cisStat n) 6 = rdB s (.cisStat n) 6 := by
  have hrecord : handoverOf (ownerInForce s n h) n = { next := h.next } := Laws.get_put_same ..
  have hstat : rd (wrF s (.cisOwner n) 0 h.owner) (.cisStat n) = rd s (.cisStat n) := rd_wrF_ne cisOwner_ne_cisStat.symm
  exact ⟨hrecord ▸ rfl, ((rdB_wrB_apart (by decide)).trans (rdB_wrB_apart (by decide))).trans (rdB_of_rd hstat)⟩

end

/-- The handover of a cistern has ended: scrubbed when SCRUB asks and the cistern is not OFF, and in effect. -/
def handedOver (s : State) (n : Nat) : State :=
  ownerInForce (emptied s n ((handoverOf s n).scrub ∧ cisState s n ≠ 2)) n (handoverOf s n)

theorem handedOver_ends : cisOwnerOf (handedOver s n) n = (handoverOf s n).owner ∧ inHandover (handedOver s n) n = false ∧
    rdB (handedOver s n) (.cisStat n) 8 = true := ownerInForce_takes

theorem handedOver_mem : (handedOver s n).mem = (emptied s n ((handoverOf s n).scrub ∧ cisState s n ≠ 2)).mem := ownerInForce_mem

theorem held_handedOver : (handedOver s n).store.held = s.store.held := (congrArg StoreSt.held ownerInForce_store).trans held_emptied

theorem quiet_handedOver (h : Quiet s) : Quiet (handedOver s n) := quiet_ownerInForce (quiet_emptied h)

theorem handedOver_waits : (handoverOf (handedOver s n) n).next = (handoverOf s n).next ∧
    rdB (handedOver s n) (.cisStat n) 6 = rdB s (.cisStat n) 6 := by
  obtain ⟨hnext, hqueued⟩ := ownerInForce_waits (s := emptied s n ((handoverOf s n).scrub ∧ cisState s n ≠ 2)) (n := n) (h := handoverOf s n)
  exact ⟨hnext, hqueued.trans (rdB_of_rd rd_emptied)⟩

theorem completeHandover_of_idle (h : (handoverOf s n).running = false) : completeHandover s n = s := if_neg (by simp [h])

/-- With nothing held and nothing waiting at the cistern, the end of a handover is all that happens. -/
theorem completeHandover_eq (hrun : (handoverOf s n).running = true) (hnext : (handoverOf s n).next = none)
    (hqueued : rdB s (.cisStat n) 6 = false) (hheld : s.store.held = []) : completeHandover s n = handedOver s n := by
  obtain ⟨hthen, hwaits⟩ := handedOver_waits (s := s) (n := n)
  calc completeHandover s n
    _ = cisternNext (serveHeld (handedOver s n) fun x => inCistern n (remapped (handedOver s n) x)) n := if_pos hrun
    _ = cisternNext (handedOver s n) n := by rw [serveHeld_of_nil (held_handedOver.trans hheld)]
    _ = handedOver s n := cisternNext_of_none (hthen.trans hnext) (hwaits.trans hqueued)

/-! #### The end of a power transition (R182 to R184, R188) -/

/-- `t` differs from `s` in the scrubber's places alone. -/
def OnlyScrub (s t : State) : Prop := ∃ scrub, t = { s with store := { s.store with scrub := scrub } }

theorem resumeLap_frame {u : Nat} : OnlyScrub s (resumeLap s u) := ⟨_, rfl⟩

theorem OnlyScrub.rd (h : OnlyScrub s t) : rd t r = rd s r := by
  obtain ⟨_, rfl⟩ := h
  rfl

theorem OnlyScrub.mem (h : OnlyScrub s t) : t.mem = s.mem := by
  obtain ⟨_, rfl⟩ := h
  rfl

theorem OnlyScrub.handoverOf (h : OnlyScrub s t) : handoverOf t n = handoverOf s n := by
  obtain ⟨_, rfl⟩ := h
  rfl

theorem OnlyScrub.held (h : OnlyScrub s t) : t.store.held = s.store.held := by
  obtain ⟨_, rfl⟩ := h
  rfl

theorem OnlyScrub.quiet (h : OnlyScrub s t) (hs : Quiet s) : Quiet t := by
  obtain ⟨_, rfl⟩ := h
  exact hs

section
variable {target : BitVec 2}

/-- A cistern is in the state that its transition was for, its content lost where that is OFF (R182). -/
def powered (s : State) (n : Nat) (target : BitVec 2) : State := wrF (emptied s n (target = 2)) (.cisStat n) 0 target

/-- The same with the lap timer, which goes on where that is ON (R157). -/
def powerReached (s : State) (n : Nat) (target : BitVec 2) : State :=
  if target = 0 then resumeLap (powered s n target) (128 + n) else powered s n target

theorem powerReached_frame : OnlyScrub (powered s n target) (powerReached s n target) := by
  unfold powerReached
  split
  · exact resumeLap_frame
  · exact ⟨_, rfl⟩

theorem held_powered : (powered s n target).store.held = s.store.held := held_emptied

theorem quiet_powered (h : Quiet s) : Quiet (powered s n target) := quiet_emptied h

theorem handoverOf_powered : handoverOf (powered s n target) n = handoverOf s n := handoverOf_emptied

/-- STATE is the state that the transition was for, the content is lost in OFF alone (R182), and what waits at the cistern still waits. -/
theorem powerReached_ends : cisState (powerReached s n target) n = target ∧ (powerReached s n target).mem = (emptied s n (target = 2)).mem ∧
    rdB (powerReached s n target) (.cisStat n) 6 = rdB s (.cisStat n) 6 := by
  refine ⟨(rdF_of_rd powerReached_frame.rd).trans (rdF_wrF_same (by decide)), powerReached_frame.mem, ?_⟩
  exact ((rdB_of_rd powerReached_frame.rd).trans (rdB_wrF_apart (.inr (by decide)))).trans (rdB_of_rd rd_emptied)

theorem mode_powerReached (hn : n < 16) : mode (powerReached s n target) = mode s :=
  rdF_of_rd ((powerReached_frame.rd.trans (rd_wrF_ne (modStat_ne_cisStat hn))).trans rd_emptied)

theorem completePower_of_settled (h : cisState s n ≠ 3) : completePower s n = s := if_neg (by simpa [inTransition] using h)

/-- The end of a transition, with the requests that it lets go on (R183, R184). -/
theorem completePower_of_transition (hstate : cisState s n = 3) (hheld : s.store.held = []) :
    completePower s n = cisternNext (powerReached s n (rdF s (.cisStat n) 2 2)) n := by
  have hpowered : (if rdF s (.cisStat n) 2 2 = (2 : BitVec 2) then zeroWords (wrF s (.cisStat n) 0 (rdF s (.cisStat n) 2 2)) (inCistern n)
      else wrF s (.cisStat n) 0 (rdF s (.cisStat n) 2 2)) = powered s n (rdF s (.cisStat n) 2 2) := by
    unfold powered emptied
    split <;> rfl
  unfold completePower
  dsimp only
  rw [if_pos (by simp [inTransition, hstate]), hpowered, serveHeld_of_nil (resumeLap_frame.held.trans (held_powered.trans hheld))]
  rfl

/-- With nothing held and nothing waiting at the cistern, the end of a transition is all that happens. -/
theorem completePower_eq (hstate : cisState s n = 3) (hnext : (handoverOf s n).next = none)
    (hqueued : rdB s (.cisStat n) 6 = false) (hheld : s.store.held = []) : completePower s n = powerReached s n (rdF s (.cisStat n) 2 2) := by
  obtain ⟨-, -, hwaits⟩ := powerReached_ends (s := s) (n := n) (target := rdF s (.cisStat n) 2 2)
  have hrecord := (powerReached_frame (s := s) (n := n) (target := rdF s (.cisStat n) 2 2)).handoverOf.trans handoverOf_powered
  rw [completePower_of_transition hstate hheld, cisternNext_of_none (hrecord ▸ hnext) (hwaits.trans hqueued)]

/-- In RUN the end of a transition holds no cistern at RETENTION (R559). -/
theorem powerEnds_of_run (h : mode (completePower s n) = 6) : powerEnds s n = completePower s n := by
  unfold powerEnds
  dsimp only
  rw [h]
  exact if_neg fun hready => absurd hready.1 (by decide)

/-- The end of a transition of a quiet device in RUN, with nothing held and nothing waiting at the cistern. -/
theorem powerEnds_eq (hn : n < 16) (hstate : cisState s n = 3) (hnext : (handoverOf s n).next = none) (hqueued : rdB s (.cisStat n) 6 = false)
    (hheld : s.store.held = []) (hrun : mode s = 6) : powerEnds s n = powerReached s n (rdF s (.cisStat n) 2 2) := by
  have hreached := completePower_eq hstate hnext hqueued hheld
  exact (powerEnds_of_run (hreached ▸ (mode_powerReached hn).trans hrun)).trans hreached

end

/-! #### The end of a remap (R191) -/

/-- `t` differs from `s` in the cores alone. -/
def OnlyCores (s t : State) : Prop := ∃ cores, t = { s with cores := cores }

/-- The copies leave the caches and the fetch buffers, and nothing else moves. -/
theorem forgetWindow_frame (s : State) :
    OnlyCores { s with store := s.store.forget (fun k => decide (k < 262144)) } (forgetWindow s) := by
  refine Laws.foldl_keeps (P := OnlyCores _) _ _ (fun t c ht => ?_) _ ⟨s.cores, rfl⟩
  obtain ⟨cores, rfl⟩ := ht
  exact ⟨_, rfl⟩

theorem completeRemap_of_idle (h : rdB s .xbCfg 1 = false) : completeRemap s = s := if_neg (by simp [h])

/-- The end of a remap of a quiet device, with nothing held. -/
theorem remapComplete_ends (haux : s.pwr.aux = true) (hbusy : rdB s .xbCfg 1 = true) (hheld : s.store.held = []) (hq : Quiet s) :
    exec .remapComplete s = .next (wrB (forgetWindow s) .xbCfg 1 false) := by
  obtain ⟨cores, h⟩ := forgetWindow_frame s
  have hcomplete : completeRemap s = wrB (forgetWindow s) .xbCfg 1 false :=
    (if_pos hbusy).trans (serveHeld_of_nil (by rw [h]; exact hheld))
  have hquiet : Quiet (wrB (forgetWindow s) .xbCfg 1 false) := by
    rw [h]
    exact hq
  exact live_settled haux hcomplete hquiet

end

/-- Settles O48: each write by what its block judges of it, each end by the state that it leaves with nothing held or waiting. -/
theorem cisternCommands : Obligations.CisternCommands := by
  intro s w n v haux a o new req h r g
  refine ⟨fun hw _ hcode hworld hsup hll => ?_, fun hrun hnext hqueued hheld hq => ?_, fun hrun hq => ?_, fun hw hsup hcode ho hreq => ?_,
    fun hstate hnext hqueued hheld hrun hq => ?_, fun hstate hrun hq => ?_, fun hw hworld hsup hhandover htransition hremap => ?_,
    remapComplete_ends haux, fun hremap hq => ?_⟩
  · have hblock := putBlock_cisOwner_granted (w := w) (a := a) (v := v) n.isLt hworld hsup hll
    refine ⟨fun hbusy => ?_, fun hhandover htransition => ⟨fun h15 hlife => ?_, fun h15 ho hp hnew => ?_, fun h15 ho hp hnew => ?_⟩⟩
    · rw [if_pos (by simpa using hbusy)] at hblock
      exact cisOwner_rejected hw hblock
    · rw [hhandover, htransition, if_neg (by decide), if_pos ⟨h15, hlife⟩] at hblock
      exact cisOwner_rejected hw hblock
    · obtain ⟨hruns, howner, hrecord⟩ := startHandover_starts (s := wrB g (.cisOwner n) 4 (bit v 4)) (n := n) (o := new) (b := bit v 4)
      have hkept : cisOwnerOf (wrB g (.cisOwner n) 4 (bit v 4)) n = o := (rdF_wrB_apart (.inl (by decide))).trans cisOwnerOf_grantRegisters
      exact ⟨_, cisOwner_accepted hw (putBlock_cisOwner_own n.isLt hworld hsup hll hhandover htransition h15 hcode ho hp hnew), hruns,
        howner.trans hkept, congrArg Handover.owner hrecord, congrArg Handover.scrub hrecord, grantRegisters_mem⟩
    · exact cisOwner_rejected hw (putBlock_cisOwner_foreign n.isLt hworld hsup hll hhandover htransition h15 hcode ho hp hnew)
  · obtain ⟨howner, hover, hdone⟩ := handedOver_ends (s := s) (n := n)
    exact ⟨_, live_settled haux (completeHandover_eq hrun hnext hqueued hheld) (quiet_handedOver hq), howner, hover, hdone,
      fun hscrub hoff k hk => memAt_of_emptied n.isLt ⟨hscrub, hoff⟩ handedOver_mem hk,
      fun hscrub => handedOver_mem.trans (emptied_mem_of_not fun hc => Bool.eq_false_iff.mp hscrub hc.1)⟩
  · exact live_settled haux (completeHandover_of_idle hrun) hq
  · have hexec := cisPwr_owner (v := v) hw hsup hcode ho hreq
    rw [requestPower_eq, inTransition_grantRegisters, inHandover_grantRegisters, cisState_grantRegisters] at hexec
    refine ⟨fun htransition hhandover hheld => ?_, fun htransition hhandover hother => ?_, fun hbusy => ?_⟩
    · rwa [if_neg (by simp [htransition, hhandover]), if_pos hheld] at hexec
    · rw [if_neg (by simp [htransition, hhandover]), if_neg hother] at hexec
      obtain ⟨hstate, htarget, hrequest, hmem⟩ := startPower_starts (s := wrF g (.cisPwr n) 0 req) (n := n) (target := req)
      exact ⟨_, hexec, hstate, htarget, hrequest.trans (rdF_wrF_same (by decide)), hmem.trans grantRegisters_mem⟩
    · rw [if_pos hbusy] at hexec
      obtain ⟨hqueued, hwaits, hstate⟩ := queuePower_waits (s := wrF g (.cisPwr n) 0 req) (n := n) (req := req)
      exact ⟨_, hexec, hqueued, hwaits, hstate.trans (cisState_wrF_cisPwr.trans cisState_grantRegisters)⟩
  · obtain ⟨hreached, hmem, -⟩ := powerReached_ends (s := s) (n := n) (target := rdF s (.cisStat n) 2 2)
    have hends := powerEnds_eq n.isLt hstate hnext hqueued hheld hrun
    exact ⟨_, live_settled haux hends (powerReached_frame.quiet (quiet_powered hq)), hreached, fun hoff k hk => memAt_of_emptied n.isLt hoff hmem hk, fun hon => hmem.trans (emptied_mem_of_not hon)⟩
  · have hidle : completePower s n = s := completePower_of_settled hstate
    exact live_settled haux ((powerEnds_of_run (hidle.symm ▸ hrun)).trans hidle) hq
  · have hblock := putBlock_xbCfg_granted (w := w) (v := v) hworld hsup hhandover htransition hremap
    refine ⟨fun hstate => ?_, fun hstate ho hp => ?_⟩
    · rw [if_pos hstate] at hblock
      exact registerWrite_rejected rfl hw hblock
    · rw [if_neg (by simp [hstate]), if_neg (by simpa using ⟨ho, (codePart_of_lt ho).trans hp⟩)] at hblock
      refine ⟨fun hsame => ?_, fun hchange => ?_⟩
      · rw [if_pos hsame] at hblock
        exact registerWrite_accepted rfl hw hblock
      · rw [if_neg hchange] at hblock
        obtain ⟨hnew, hbusy⟩ := remap_starts (s := g) (v := v)
        exact ⟨_, registerWrite_accepted rfl hw hblock, hnew, hbusy, fun who k kind hk hwho => check_window_held hbusy hk hwho⟩
  · exact live_settled haux (completeRemap_of_idle hremap) hq

end Sys2Proof.Proofs

/-! ### Integers: the limits of a type, and shifts, products and quotients within them (R50, R277, R280, R290, R294, R371) -/

namespace Sys2Proof.Proofs
open Sys2Proof Sys2Proof.Machine

/-! #### The integer that an encoding holds (R48, R50) -/

section

variable {w a b n : ℕ} {signed sat : Bool} {i j : ℤ}

theorem two_pow_eq_halves (hw : 0 < w) : (2 : ℤ) ^ w = 2 * 2 ^ (w - 1) := by rw [← pow_succ', Nat.sub_add_cancel hw]

theorem intOf_of_lt (ha : a < 2 ^ w) : intOf w signed a = if signed = true ∧ 2 ^ (w - 1) ≤ a then (a : ℤ) - 2 ^ w else a := by
  simp only [intOf, Nat.mod_eq_of_lt ha]

theorem intOf_unsigned (ha : a < 2 ^ w) : intOf w false a = a := by simp [intOf_of_lt ha]

/-- An encoding holds an integer between the limits of R50. -/
theorem intOf_range (hw : 0 < w) : minOf w signed ≤ intOf w signed a ∧ intOf w signed a ≤ maxOf w signed := by
  have hlt : ((a % 2 ^ w : ℕ) : ℤ) < 2 ^ w := by exact_mod_cast Nat.mod_lt a (by positivity)
  have hhalf := two_pow_eq_halves hw
  unfold intOf minOf maxOf
  generalize a % 2 ^ w = y at *
  cases signed
  · simp only [Bool.false_eq_true, false_and, if_false]
    omega
  · simp only [true_and, if_true]
    split_ifs with h <;> zify at h <;> omega

/-- The integer that an encoding holds is congruent to it. -/
theorem intOf_emod : intOf w signed a % 2 ^ w = a % 2 ^ w := by
  unfold intOf
  dsimp only
  split_ifs <;> push_cast <;> simp

/-- Between the limits of R50 no two integers are congruent. -/
theorem eq_of_emod_eq (hw : 0 < w) (hi : minOf w signed ≤ i ∧ i ≤ maxOf w signed) (hj : minOf w signed ≤ j ∧ j ≤ maxOf w signed)
    (h : i % 2 ^ w = j % 2 ^ w) : i = j := by
  have hhalf := two_pow_eq_halves hw
  have hnear : |i - j| < 2 ^ w := by
    rw [abs_lt]
    unfold minOf maxOf at hi hj
    cases signed <;> simp only [Bool.false_eq_true, if_false, if_true] at hi hj <;> omega
  exact sub_eq_zero.mp (Int.eq_zero_of_abs_lt_dvd (Int.ModEq.dvd h.symm) hnear)

/-- An integer between the limits is read back from its encoding. -/
theorem intOf_wrapTo (hw : 0 < w) (hi : minOf w signed ≤ i ∧ i ≤ maxOf w signed) : intOf w signed (wrapTo w i) = i :=
  eq_of_emod_eq hw (intOf_range hw) hi (by rw [intOf_emod, wrapTo_cast, Int.emod_emod])

theorem intOf_eq_zero_iff (ha : a < 2 ^ w) : intOf w signed a = 0 ↔ a = 0 := by
  have hpos : 0 < 2 ^ (w - 1) := by positivity
  rw [intOf_of_lt ha]
  split_ifs with h
  · zify at *
    omega
  · exact Int.natCast_eq_zero

/-- The integer that a word of a signed type holds is that of `BitVec.toInt`. -/
theorem intOf_toNat (x : BitVec w) : intOf w true x.toNat = x.toInt := by
  rcases Nat.eq_zero_or_pos w with rfl | hw
  · rw [intOf_of_lt x.isLt, Subsingleton.elim x 0]
    rfl
  · have hhalf := two_pow_eq_halves hw
    rw [intOf_of_lt x.isLt, BitVec.toInt_eq_toNat_cond]
    simp only [true_and]
    zify
    split_ifs <;> omega

theorem ofNat_wrapTo : BitVec.ofNat w (wrapTo w i) = BitVec.ofInt w i := by
  apply BitVec.eq_of_toNat_eq
  rw [BitVec.toNat_ofNat, BitVec.toNat_ofInt, Nat.mod_eq_of_lt wrapTo_lt, wrapTo]
  push_cast
  rfl

/-! #### Quotients and remainders (R280) -/

/-- A quotient lies between the limits, but for the negated lowest one. -/
theorem minOf_le_tdiv (hi : minOf w signed ≤ i ∧ i ≤ maxOf w signed) (hj : minOf w signed ≤ j) : minOf w signed ≤ i.tdiv j := by
  unfold minOf maxOf at *
  cases signed <;> simp only [Bool.false_eq_true, if_false, if_true] at *
  · exact Int.tdiv_nonneg hi.1 hj
  · have habs : (i.tdiv j).natAbs ≤ i.natAbs := by
      rw [Int.natAbs_tdiv]
      exact Nat.div_le_self _ _
    omega

theorem divInt_zero : divInt w signed sat a 0 = { v := 2 ^ w - 1, fl := flagDZ } := by
  have h : intOf w signed 0 = 0 := (intOf_eq_zero_iff (by positivity)).mpr rfl
  simp [divInt, h]

theorem divInt_of_ne (hb : b < 2 ^ w) (h0 : b ≠ 0) : divInt w signed sat a b =
    if sat = true ∧ maxOf w signed < (intOf w signed a).tdiv (intOf w signed b) then { v := wrapTo w (maxOf w signed), sat := true }
    else { v := wrapTo w ((intOf w signed a).tdiv (intOf w signed b)) } := by
  unfold divInt
  rw [if_neg (mt (intOf_eq_zero_iff hb).mp h0)]

theorem remInt_zero (ha : a < 2 ^ w) : remInt w signed a 0 = { v := a, fl := flagDZ } := by
  have h : intOf w signed 0 = 0 := (intOf_eq_zero_iff (by positivity)).mpr rfl
  simp [remInt, h, Nat.mod_eq_of_lt ha]

theorem remInt_of_ne (hb : b < 2 ^ w) (h0 : b ≠ 0) : remInt w signed a b = { v := wrapTo w ((intOf w signed a).tmod (intOf w signed b)) } := by
  unfold remInt
  rw [if_neg (mt (intOf_eq_zero_iff hb).mp h0)]

/-! #### Shifts (R294) -/

theorem shiftLeft_eq : shiftLeft w a n = a * 2 ^ n % 2 ^ w := by
  unfold shiftLeft
  split_ifs with h
  · rw [Nat.mod_eq_zero_of_dvd (Dvd.dvd.mul_left (pow_dvd_pow 2 h) a)]
  · rfl

theorem shiftRight_eq (ha : a < 2 ^ w) : shiftRight w a n = a / 2 ^ n := by
  unfold shiftRight
  split_ifs with h
  · rw [Nat.div_eq_of_lt (ha.trans_le (Nat.pow_le_pow_right (by decide) h))]
  · rw [Nat.mod_eq_of_lt ha]

/-- A shift by the width or more leaves the sign alone. -/
theorem ediv_two_pow_of_le (hi : -2 ^ w ≤ i ∧ i < 2 ^ w) (h : w ≤ n) : i / 2 ^ n = i / 2 ^ w := by
  have hpow : (2 : ℤ) ^ w ≤ 2 ^ n := pow_le_pow_right₀ (by decide) h
  rcases lt_or_ge i 0 with hneg | hpos
  · rw [Int.ediv_eq_neg_one_of_neg_of_le hneg (by omega), Int.ediv_eq_neg_one_of_neg_of_le hneg (by omega)]
  · rw [Int.ediv_eq_zero_of_lt hpos (by omega), Int.ediv_eq_zero_of_lt hpos (by omega)]

theorem shiftArith_eq (hw : 0 < w) : shiftArith w a n = wrapTo w (intOf w true a / 2 ^ n) := by
  unfold shiftArith
  split_ifs with h
  · have hrange := intOf_range (a := a) (signed := true) hw
    have hhalf := two_pow_eq_halves hw
    rw [ediv_two_pow_of_le ⟨?_, ?_⟩ h] <;> simp only [minOf, maxOf, if_true] at hrange <;> omega
  · rfl

end

end Sys2Proof.Proofs

/-! ### Carries, wide products, quotients and remainders of the scalar cores (R280, R310, R320) -/

namespace Sys2Proof.Proofs
open Sys2Proof Sys2Proof.Machine

/-! #### Values of 48 and 96 bits -/

section

variable {x y z : W48}

theorem truth_decide {p : Prop} [Decidable p] : truth (decide p) = if p then 1 else 0 := by simp [truth]

theorem toNat_and_one : (z &&& 1).toNat = z.toNat % 2 := by
  rw [BitVec.toNat_and]
  exact Nat.and_one_is_mod _

theorem add_carry_eq : x + y + (z &&& 1) = BitVec.ofNat 48 (x.toNat + y.toNat + z.toNat % 2) := by
  apply BitVec.eq_of_toNat_eq
  rw [BitVec.toNat_add, BitVec.toNat_add, toNat_and_one, BitVec.toNat_ofNat, Nat.mod_add_mod]

theorem sub_borrow_eq : x - y - (z &&& 1) = BitVec.ofInt 48 ((x.toNat : ℤ) - y.toNat - z.toNat % 2) := by
  have hx := x.isLt
  have hy := y.isLt
  apply BitVec.eq_of_toNat_eq
  rw [BitVec.toNat_sub, BitVec.toNat_sub, toNat_and_one, BitVec.toNat_ofInt]
  omega

theorem mul_eq_ofNat : x * y = BitVec.ofNat 48 (x.toNat * y.toNat) := by
  apply BitVec.eq_of_toNat_eq
  rw [BitVec.toNat_mul, BitVec.toNat_ofNat]

theorem signedProduct_eq : x.signExtend 96 * y.signExtend 96 = BitVec.ofInt 96 (x.toInt * y.toInt) := (BitVec.ofInt_mul _ _).symm

theorem unsignedProduct_eq : x.setWidth 96 * y.setWidth 96 = BitVec.ofNat 96 (x.toNat * y.toNat) := by
  rw [BitVec.ofNat_mul, BitVec.ofNat_toNat, BitVec.ofNat_toNat]

/-- The pair of an integer: its low half, and the high half with its sign (R310). -/
theorem setPair_ofInt {w : State} {c : Core} {d : Reg} {i : ℤ} : setPair w c d (BitVec.ofInt 96 i) =
    setG (setG w c d (BitVec.ofInt 48 i)) c (d.val + 1) (BitVec.ofInt 48 (i / 2 ^ 48)) := by
  have hnat : BitVec.ofInt 96 i = BitVec.ofNat 96 (i % 2 ^ 96).toNat := ofNat_wrapTo.symm
  have hlow : BitVec.ofNat 48 (i % 2 ^ 96).toNat = BitVec.ofInt 48 i := by
    apply BitVec.eq_of_toNat_eq
    rw [BitVec.toNat_ofNat, BitVec.toNat_ofInt]
    omega
  have hhigh : BitVec.ofNat 48 ((i % 2 ^ 96).toNat % 2 ^ 96 / 2 ^ 48) = BitVec.ofInt 48 (i / 2 ^ 48) := by
    apply BitVec.eq_of_toNat_eq
    rw [BitVec.toNat_ofNat, BitVec.toNat_ofInt]
    omega
  rw [hnat, setPair_ofNat, hlow, hhigh]

/-- The pair of an unsigned product (R310, R320). -/
theorem setPair_unsignedProduct {w : State} {c : Core} {d : Reg} : setPair w c d (x.setWidth 96 * y.setWidth 96) =
    setG (setG w c d (BitVec.ofNat 48 (x.toNat * y.toNat))) c (d.val + 1) (BitVec.ofNat 48 (x.toNat * y.toNat / 2 ^ 48)) := by
  rw [unsignedProduct_eq, setPair_ofNat, Nat.mod_eq_of_lt BitVec.toNat_mul_toNat_lt]

/-! #### Quotients and remainders of words -/

/-- The quotient of two words, with DZ and all ones for a zero divisor (R280). -/
theorem divInt_word {signed : Bool} :
    BitVec.ofNat 48 (divInt 48 signed false x.toNat y.toNat).v =
      (if y = 0 then BitVec.allOnes 48 else BitVec.ofInt 48 ((intOf 48 signed x.toNat).tdiv (intOf 48 signed y.toNat))) ∧
    (divInt 48 signed false x.toNat y.toNat).fl = if y = 0 then flagDZ else 0 := by
  by_cases h : y = 0
  · subst h
    exact ⟨congrArg (BitVec.ofNat 48 ·.v) divInt_zero, congrArg Out.fl divInt_zero⟩
  · rw [divInt_of_ne y.isLt (by simpa [BitVec.toNat_eq] using h), if_neg (by simp), if_neg h, if_neg h, ofNat_wrapTo]
    exact ⟨rfl, rfl⟩

/-- The remainder of two words, with DZ and the dividend for a zero divisor (R280). -/
theorem remInt_word {signed : Bool} :
    BitVec.ofNat 48 (remInt 48 signed x.toNat y.toNat).v =
      (if y = 0 then x else BitVec.ofInt 48 ((intOf 48 signed x.toNat).tmod (intOf 48 signed y.toNat))) ∧
    (remInt 48 signed x.toNat y.toNat).fl = if y = 0 then flagDZ else 0 := by
  by_cases h : y = 0
  · subst h
    exact ⟨(congrArg (BitVec.ofNat 48 ·.v) (remInt_zero x.isLt)).trans (by simp), congrArg Out.fl (remInt_zero x.isLt)⟩
  · rw [remInt_of_ne y.isLt (by simpa [BitVec.toNat_eq] using h), if_neg h, if_neg h, ofNat_wrapTo]
    exact ⟨rfl, rfl⟩

end

/-! #### The instructions -/

section

variable {s u : State} {c : Core} {d a b : Reg} {i : Instr} {f : State → Out} {v : W48}

/-- A divide or remainder that issues writes its result, and DZ where its divisor is zero. -/
theorem runDiv_issues (h : Issues .plain none s u c) (hl : i.wellFormed = true) {zero : Prop} [Decidable zero]
    (ho : BitVec.ofNat 48 (f u).v = v ∧ (f u).fl = if zero then flagDZ else 0) :
    runDiv c i d f s = .next (completes (setG (setStw u c ((ctxOf u c).stw ||| if zero then 8 else 0)) c d v) c) := by
  obtain ⟨hv, hfl⟩ := ho
  have hflag : BitVec.setWidth 48 (f u).fl = if zero then 8 else 0 := by
    rw [hfl]
    split_ifs <;> rfl
  have hrun : runDiv c i d f s = .next (completes (setG (orStw u c (f u).fl false) c d (BitVec.ofNat 48 (f u).v)) c) :=
    Laws.runIns_done h hl (by simp) rfl rfl
  rw [hrun, orStw_false, hv, hflag]

/-- A wide multiply that issues writes its product into the pair (R310). -/
theorem execMulw_issues (h : Issues .plain (some 3) s u c) (heven : d.val % 2 = 0) : exec (.mulw c d a b) s =
    .next (completes (setPair u c d ((getG u c a).signExtend 96 * (getG u c b).signExtend 96)) c) :=
  Laws.runIns_done h (by simpa [Instr.wellFormed, pairOk] using heven) (by simp) rfl rfl

theorem execMulwu_issues (h : Issues .plain (some 3) s u c) (heven : d.val % 2 = 0) : exec (.mulwu c d a b) s =
    .next (completes (setPair u c d ((getG u c a).setWidth 96 * (getG u c b).setWidth 96)) c) :=
  Laws.runIns_done h (by simpa [Instr.wellFormed, pairOk] using heven) (by simp) rfl rfl

end

/-- Settles O6: each instruction by its value of 48 or 96 bits, the divides and remainders by the integers that their words hold. -/
theorem wideArithmetic : Obligations.WideArithmetic := by
  unfold Obligations.WideArithmetic
  intro s u c d a b e x y z p q stw gives divides
  refine ⟨fun h => ⟨?_, ?_, ?_, ?_⟩, fun h => ?_, fun h heven => ⟨?_, ?_⟩, fun h => ⟨?_, ?_, ?_, ?_⟩⟩
  · exact (Laws.runAlu_issues h rfl).trans (by rw [add_carry_eq])
  · exact (Laws.runAlu_issues h rfl).trans (by rw [truth_decide, toNat_and_one])
  · exact (Laws.runAlu_issues h rfl).trans (by rw [sub_borrow_eq])
  · exact (Laws.runAlu_issues h rfl).trans (by rw [truth_decide, toNat_and_one])
  · exact (Laws.runAlu_issues h rfl).trans (by rw [mul_eq_ofNat])
  · rw [execMulw_issues h heven, signedProduct_eq, setPair_ofInt]
  · rw [execMulwu_issues h heven, setPair_unsignedProduct]
  · refine (runDiv_issues h rfl divInt_word).trans ?_
    rw [intOf_toNat, intOf_toNat]
  · refine (runDiv_issues h rfl divInt_word).trans ?_
    rw [intOf_unsigned (getG u c a).isLt, intOf_unsigned (getG u c b).isLt, ← Int.ofNat_tdiv, BitVec.ofInt_natCast]
  · refine (runDiv_issues h rfl remInt_word).trans ?_
    rw [intOf_toNat, intOf_toNat]
  · refine (runDiv_issues h rfl remInt_word).trans ?_
    rw [intOf_unsigned (getG u c a).isLt, intOf_unsigned (getG u c b).isLt, ← Int.ofNat_tmod, BitVec.ofInt_natCast]

end Sys2Proof.Proofs

/-! ### Words of stream and short-vector instructions (R266) -/

namespace Sys2Proof.Proofs
open Sys2Proof Sys2Proof.Machine

section

variable {n lo len : ℕ}

theorem bits_toNat (v : BitVec n) : (bits v lo len).toNat = v.toNat / 2 ^ lo % 2 ^ len := by
  rw [bits, BitVec.extractLsb'_toNat, Nat.shiftRight_eq_div_pow]

theorem bit_toNat {i : ℕ} (v : BitVec n) : (bit v i).toNat = v.toNat / 2 ^ i % 2 ^ 1 := by
  rw [bit, BitVec.getLsbD, Nat.toNat_testBit, pow_one]

theorem mod_two_pow_add : n % 2 ^ (lo + len) = n % 2 ^ lo + 2 ^ lo * (n / 2 ^ lo % 2 ^ len) := by rw [pow_add, Nat.mod_mul]

theorem toNat_bool_injective : Function.Injective Bool.toNat := by decide

/-- The fields of R266 leave out no bit of a word. -/
theorem eq_sum_fields (hn : n < 2 ^ 48) : 2 ^ 40 * (n / 2 ^ 40 % 2 ^ 8) + 2 ^ 35 * (n / 2 ^ 35 % 2 ^ 5) + 2 ^ 30 * (n / 2 ^ 30 % 2 ^ 5) +
    2 ^ 25 * (n / 2 ^ 25 % 2 ^ 5) + 2 ^ 20 * (n / 2 ^ 20 % 2 ^ 5) + 2 ^ 19 * (n / 2 ^ 19 % 2 ^ 1) + 2 ^ 15 * (n / 2 ^ 15 % 2 ^ 4) +
    2 ^ 13 * (n / 2 ^ 13 % 2 ^ 2) + 2 ^ 12 * (n / 2 ^ 12 % 2 ^ 1) + 2 ^ 5 * (n / 2 ^ 5 % 2 ^ 7) + n / 2 ^ 0 % 2 ^ 5 = n := by
  conv_rhs => rw [← Nat.mod_eq_of_lt hn, mod_two_pow_add (lo := 40) (len := 8), mod_two_pow_add (lo := 35) (len := 5),
    mod_two_pow_add (lo := 30) (len := 5), mod_two_pow_add (lo := 25) (len := 5), mod_two_pow_add (lo := 20) (len := 5),
    mod_two_pow_add (lo := 19) (len := 1), mod_two_pow_add (lo := 15) (len := 4), mod_two_pow_add (lo := 13) (len := 2),
    mod_two_pow_add (lo := 12) (len := 1), mod_two_pow_add (lo := 5) (len := 7)]
  rw [pow_zero, Nat.div_one]
  ring

end

section

variable {x : SIns} {w : W48}

/-- The fields of R266 do not overlap. -/
theorem word_toNat (x : SIns) : x.word.toNat =
    2 ^ 40 * x.opc.toNat + 2 ^ 35 * x.f.dst.toNat + 2 ^ 30 * x.f.sa.toNat + 2 ^ 25 * x.f.sb.toNat +
      2 ^ 20 * x.f.sc.toNat + 2 ^ 19 * x.f.ch.toNat + 2 ^ 15 * x.f.ot.toNat + 2 ^ 13 * x.f.msk.toNat + 2 ^ 12 * x.f.sat.toNat +
      2 ^ 5 * x.fn.toNat + x.f.mreg.toNat := by
  have hch := Bool.toNat_lt x.f.ch
  have hsat := Bool.toNat_lt x.f.sat
  rw [SIns.word, BitVec.toNat_ofNat]
  exact Nat.mod_eq_of_lt (by omega)

theorem word_ofWord : (SIns.ofWord w).word = w := by
  apply BitVec.eq_of_toNat_eq
  rw [word_toNat]
  simp only [SIns.ofWord, bits_toNat, bit_toNat]
  exact eq_sum_fields w.isLt

/-- The fields as they stand in the word. -/
theorem ofWord_word : SIns.ofWord x.word = x := by
  have h := word_toNat x
  have hch_lt := Bool.toNat_lt x.f.ch
  have hsat_lt := Bool.toNat_lt x.f.sat
  have hfield : ∀ {lo len : ℕ} (v : BitVec len), x.word.toNat / 2 ^ lo % 2 ^ len = v.toNat → bits x.word lo len = v :=
    fun v hv => BitVec.eq_of_toNat_eq ((bits_toNat _).trans hv)
  have hbit : ∀ {i : ℕ} (b : Bool), x.word.toNat / 2 ^ i % 2 ^ 1 = b.toNat → bit x.word i = b :=
    fun b hb => toNat_bool_injective ((bit_toNat _).trans hb)
  have hopc : bits x.word 40 8 = x.opc := hfield _ (by omega)
  have hfn : bits x.word 5 7 = x.fn := hfield _ (by omega)
  have hdst : bits x.word 35 5 = x.f.dst := hfield _ (by omega)
  have hsa : bits x.word 30 5 = x.f.sa := hfield _ (by omega)
  have hsb : bits x.word 25 5 = x.f.sb := hfield _ (by omega)
  have hsc : bits x.word 20 5 = x.f.sc := hfield _ (by omega)
  have hch : bit x.word 19 = x.f.ch := hbit _ (by omega)
  have hot : bits x.word 15 4 = x.f.ot := hfield _ (by omega)
  have hmsk : bits x.word 13 2 = x.f.msk := hfield _ (by omega)
  have hsat : bit x.word 12 = x.f.sat := hbit _ (by omega)
  have hmreg : bits x.word 0 5 = x.f.mreg := hfield _ (by omega)
  simp only [SIns.ofWord, hopc, hfn, hdst, hsa, hsb, hsc, hch, hot, hmsk, hsat, hmreg]

end

/-- Settles O21: the fields of a word do not overlap, so each is read back, and together they leave out no bit. -/
theorem streamWordsRoundTrip : Obligations.StreamWordsRoundTrip := ⟨fun _ => ofWord_word, fun _ => word_ofWord⟩

end Sys2Proof.Proofs

/-! ### Integer element operations, and short-vector instructions that are one of them on each lane (R276 to R280, R290, R294, R298, R371) -/

namespace Sys2Proof.Proofs
open Sys2Proof Sys2Proof.Machine

/-! #### Integer types -/

section

variable {t : BitVec 4} {sat : Bool} {md : FMode} {a b c : ℕ} {i : ℤ}

theorem elemOp_of_not_isFloat {op : ElemOp} (ht : isFloat t = false) (hop : computes op = true) : elemOp op t sat md a b c = intElem op t sat a b c := by
  unfold elemOp
  split
  · nomatch hop
  · nomatch hop
  · nomatch hop
  · exact if_neg (by simp [ht])

theorem not_isFloat_of_isInt : ∀ t : BitVec 4, isInt t = true → isFloat t = false := by decide

theorem typeBits_pos_of_isInt : ∀ t : BitVec 4, isInt t = true → 0 < typeBits t := by decide

/-- The next wider integer type: twice the bits, and as signed (R277). -/
theorem nextWider_facts : ∀ t : BitVec 4, t.toNat < 4 → typeBits (nextWider t) = 2 * typeBits t ∧ isSigned (nextWider t) = isSigned t := by decide

/-- An integer cut to the bits of a type, without saturation. -/
theorem reduced_wrapTo : Reduced t false i { v := wrapTo (typeBits t) i } := by
  have h := reduced_reduceInt (t := t) (sat := false) (i := i)
  simpa [reduceInt] using h

theorem abs_eq_ite : |i| = if i < 0 then -i else i := by
  split_ifs with h
  · exact abs_of_neg h
  · exact abs_of_nonneg (not_lt.mp h)

/-- A quotient is reduced to its type; only that of the lowest value by −1 exceeds it (R280). -/
theorem divInt_eq_reduceInt (hw : 0 < typeBits t) (hb : b < 2 ^ typeBits t) (h0 : b ≠ 0) :
    divInt (typeBits t) (isSigned t) sat a b = reduceInt t sat ((valOf t a).tdiv (valOf t b)) := by
  have hlow : minOf (typeBits t) (isSigned t) ≤ (valOf t a).tdiv (valOf t b) := minOf_le_tdiv (intOf_range hw) (intOf_range hw).1
  rw [divInt_of_ne hb h0, reduceInt]
  exact (if_neg (c := sat = true ∧ (valOf t a).tdiv (valOf t b) < minOf (typeBits t) (isSigned t)) fun h => absurd h.2 (not_lt.mpr hlow)).symm

/-- The product of two values of a type lies between the limits of one twice as wide (R277). -/
theorem mul_intOf_range {w : ℕ} {signed : Bool} (hw : 0 < w) : minOf (2 * w) signed ≤ intOf w signed a * intOf w signed b ∧
    intOf w signed a * intOf w signed b ≤ maxOf (2 * w) signed := by
  obtain ⟨ha, ha'⟩ := intOf_range (a := a) (signed := signed) hw
  obtain ⟨hb, hb'⟩ := intOf_range (a := b) (signed := signed) hw
  generalize intOf w signed a = x at *
  generalize intOf w signed b = y at *
  have hhalf := two_pow_eq_halves hw
  have hpow : (1 : ℤ) ≤ 2 ^ (w - 1) := one_le_pow₀ (by decide)
  have hdouble : (2 : ℤ) ^ (2 * w) = 2 ^ w * 2 ^ w := by rw [two_mul, pow_add]
  have hquad : (2 : ℤ) ^ (2 * w - 1) = 2 * (2 ^ (w - 1) * 2 ^ (w - 1)) := by
    rw [← pow_add, ← pow_succ']
    congr 1
    omega
  unfold minOf maxOf at *
  cases signed <;> simp only [Bool.false_eq_true, if_false, if_true] at *
  · rw [hdouble]
    constructor <;> nlinarith
  · rw [hquad]
    generalize (2 : ℤ) ^ (w - 1) = h at *
    constructor <;> nlinarith

/-- The predicate of a compare on two integers (R276). -/
def Orders (pr : BitVec 3) (x y : ℤ) : Prop :=
  match pr.toNat with
  | 0 => x = y
  | 1 => x ≠ y
  | 2 => x < y
  | 3 => x ≤ y
  | 4 => y < x
  | _ => y ≤ x

theorem predicate_int_iff {pr : BitVec 3} {x y : ℤ} (h : pr.toNat ≤ 5) : predicate pr (decide (x < y)) (decide (x = y)) = true ↔ Orders pr x y := by
  have hrat := predicate_iff pr (x : ℚ) y
  simp only [Int.cast_lt, Int.cast_inj] at hrat
  rw [hrat]
  unfold Relates Orders
  generalize pr.toNat = n at h
  interval_cases n <;> norm_cast

/-! #### Results by their type -/

theorem elemOp_eq_intElem {op : ElemOp} (ht : isInt t = true) (hop : computes op = true) : elemOp op t sat md a b c = intElem op t sat a b c :=
  elemOp_of_not_isFloat (not_isFloat_of_isInt t ht) hop

theorem reduced_of_intElem {op : ElemOp} {sat' : Bool} (ht : isInt t = true) (hop : computes op = true)
    (h : intElem op t sat a b c = reduceInt t sat' i) : Reduced t sat' i (elemOp op t sat md a b c) := by
  rw [elemOp_eq_intElem ht hop, h]
  exact reduced_reduceInt

theorem reduced_of_wrapTo {op : ElemOp} (ht : isInt t = true) (hop : computes op = true)
    (h : intElem op t sat a b c = { v := wrapTo (typeBits t) i }) : Reduced t false i (elemOp op t sat md a b c) := by
  rw [elemOp_eq_intElem ht hop, h]
  exact reduced_wrapTo

/-- The widening product is exact (R277). -/
theorem mulw_reduced (h4 : t.toNat < 4) : valOf (nextWider t) (elemOp .mulw t sat md a b c).v = valOf t a * valOf t b ∧
    Reduced (nextWider t) false (valOf t a * valOf t b) (elemOp .mulw t sat md a b c) := by
  have ht : isInt t = true := decide_eq_true (by omega)
  obtain ⟨hbits, hsigned⟩ := nextWider_facts t h4
  have hw := typeBits_pos_of_isInt t ht
  rw [elemOp_eq_intElem ht rfl]
  refine ⟨?_, reduced_wrapTo⟩
  refine intOf_wrapTo (by omega) ?_
  rw [hbits, hsigned]
  exact mul_intOf_range hw

theorem testBit_bitwise {j : ℕ} (hj : j < typeBits t) :
    (intElem .and t sat a b c).v.testBit j = (a.testBit j && b.testBit j) ∧ (intElem .or t sat a b c).v.testBit j = (a.testBit j || b.testBit j) ∧
    (intElem .xor t sat a b c).v.testBit j = (a.testBit j != b.testBit j) ∧ (intElem .andn t sat a b c).v.testBit j = (a.testBit j && !b.testBit j) := by
  simp [intElem, hj]

theorem bitwise_plain {op : ElemOp} (hop : op ∈ [ElemOp.and, .or, .xor, .andn]) (ha : a < 2 ^ typeBits t) (hb : b < 2 ^ typeBits t) :
    (intElem op t sat a b c).v < 2 ^ typeBits t ∧ (intElem op t sat a b c).fl = 0 ∧ (intElem op t sat a b c).sat = false := by
  simp only [List.mem_cons, List.not_mem_nil, or_false] at hop
  rcases hop with rfl | rfl | rfl | rfl
  · exact ⟨Nat.and_lt_two_pow _ hb, rfl, rfl⟩
  · exact ⟨Nat.or_lt_two_pow ha hb, rfl, rfl⟩
  · exact ⟨Nat.xor_lt_two_pow ha hb, rfl, rfl⟩
  · exact ⟨Nat.and_le_left.trans_lt ha, rfl, rfl⟩

end

/-! #### The instructions -/

section

variable {s u w : State} {c : Core} {i : Instr} {op : ElemOp} {f : StreamFields} {t : BitVec 4} {cost : Option Nat} {out : State → Nat → Out}

/-- A short-vector instruction that issues writes its lanes. -/
theorem runShort_issues (h : IssuesLazy .plain cost s u w c) (hl : i.wellFormed = true) :
    runShort c i f cost t out s = .next (completes (putLanes w c f t (out w)) c) :=
  Laws.runIns_done_lazy h hl (by simp) rfl rfl

/-- A lanewise instruction runs its element operation on each lane. -/
theorem exec_lanewise (h : i.lanewise? = some (op, f, t, cost)) (hc : i.core? = some c) :
    exec i s = runShort c i f cost t (shortElem op c f) s := by
  unfold Instr.lanewise? at h
  split at h
  all_goals simp only [Option.some.injEq, Prod.mk.injEq, reduceCtorEq] at h
  all_goals
    obtain ⟨rfl, rfl, rfl, rfl⟩ := h
    obtain rfl := Option.some.inj hc
    rfl

end

/-- Settles O27: each integer operation by its exact value, each instruction by the element operation that it runs on its lanes. -/
theorem lanewiseResults : Obligations.LanewiseResults := by
  unfold Obligations.LanewiseResults
  refine ⟨fun t sat md a b c pr => ?_, fun i op f t cost c s u w hop hc hl h => (exec_lanewise hop hc).trans (runShort_issues h hl)⟩
  intro w out gives val is low x y z signed holds ha hb hc
  refine ⟨fun ht => ?_, fun ht => ?_⟩
  · have hfloat : isFloat t = false := by
      rcases ht with ht | rfl
      · exact not_isFloat_of_isInt t ht
      · rfl
    have hout : ∀ op, computes op = true → intElem op t sat a b c = out op := fun op hop => (elemOp_of_not_isFloat hfloat hop).symm
    intro i hi
    refine ⟨?_, fun op hop => ?_⟩
    · rw [← hout .and rfl, ← hout .or rfl, ← hout .xor rfl, ← hout .andn rfl]
      exact testBit_bitwise hi
    · rw [← hout op (by revert op; decide)]
      exact bitwise_plain hop ha hb
  · have hw : 0 < typeBits t := typeBits_pos_of_isInt t ht
    have hx : valOf t a = x := valOf_eq ha
    have hy : valOf t b = y := valOf_eq hb
    have hz : valOf t c = z := valOf_eq hc
    have hsigned : intOf w true a = signed := (intOf_of_lt ha).trans (by simp only [true_and, signed])
    have hgives : ∀ {op o}, computes op = true → intElem op t sat a b c = o → out op = o := fun hop h => (elemOp_eq_intElem ht hop).trans h
    have hcmp : intElem (.cmp pr) t sat a b c = { v := if predicate pr (decide (x < y)) (decide (x = y)) then 1 else 0 } := by rw [← hx, ← hy]; rfl
    have hholds : pr.toNat ≤ 5 → (predicate pr (decide (x < y)) (decide (x = y)) = true ↔ holds) := predicate_int_iff
    rw [← hx, ← hy, ← hz, ← hsigned]
    refine ⟨reduced_of_intElem ht rfl rfl, reduced_of_intElem ht rfl rfl, reduced_of_intElem ht rfl rfl,
      reduced_of_intElem ht rfl (by rw [abs_eq_ite]; rfl), reduced_of_intElem ht rfl rfl, reduced_of_intElem ht rfl rfl,
      reduced_of_intElem ht rfl rfl, reduced_of_intElem ht rfl rfl, reduced_of_intElem ht rfl rfl, hgives rfl rfl, hgives rfl rfl, rfl, rfl,
      hgives rfl (congrArg (Out.mk · 0 false) shiftLeft_eq), hgives rfl (congrArg (Out.mk · 0 false) (shiftRight_eq ha)),
      reduced_of_wrapTo ht rfl (congrArg (Out.mk · 0 false) (shiftArith_eq hw)), reduced_of_wrapTo ht rfl rfl,
      fun h4 => ?_, fun hpr => ⟨fun h => ?_, fun h => ?_⟩, fun h0 => ?_, fun h0 => ⟨?_, ?_⟩⟩
    · obtain ⟨hval, hred⟩ := mulw_reduced (sat := sat) (md := md) (a := a) (b := b) (c := c) h4
      exact ⟨(valOf_eq hred.2.1).symm.trans hval, hred⟩
    · exact hgives rfl (hcmp.trans (by rw [if_pos ((hholds hpr).mpr h)]))
    · exact hgives rfl (hcmp.trans (by rw [if_neg (mt (hholds hpr).mp h)]))
    · subst h0
      exact ⟨hgives rfl divInt_zero, hgives rfl (remInt_zero ha)⟩
    · exact reduced_of_intElem ht rfl (divInt_eq_reduceInt hw hb h0)
    · refine reduced_of_wrapTo ht rfl ((remInt_of_ne hb h0).trans ?_)
      rw [Int.tmod_def]
      rfl

end Sys2Proof.Proofs

/-! ### S registers, and what writing lanes leaves (R295 to R298, R303) -/

namespace Sys2Proof.Proofs
open Sys2Proof Sys2Proof.Machine

/-! #### S registers -/

section

variable {s : State} {c : Core} {k n v : ℕ} {fl : FFlags} {sat : Bool}

theorem ctxOf_setFr {x : W48} : ctxOf (setFr s c n x) c = (ctxOf s c).setFr n x := Laws.ctxOf_setCtx_same _ _ _

theorem getFr_setFr {x : W48} {m : ℕ} : getFr (setFr s c n x) c m = if m = n then x else getFr s c m := by
  rw [getFr, ctxOf_setFr, Laws.fr_setFr]
  rfl

theorem ctxOf_orStw : ctxOf (orStw s c fl sat) c = { ctxOf s c with stw := (ctxOf s c).stw ||| fl.setWidth 48 ||| (ofBool 48 sat <<< 5) } :=
  Laws.ctxOf_setCtx_same _ _ _

/-- The four F registers of an S register (R295). -/
theorem setSReg_eq : setSReg s c k v = setFr (setFr (setFr (setFr s c (4 * k) (BitVec.ofNat 48 (v / 2 ^ 0))) c (4 * k + 1) (BitVec.ofNat 48 (v / 2 ^ 48)))
    c (4 * k + 2) (BitVec.ofNat 48 (v / 2 ^ 96))) c (4 * k + 3) (BitVec.ofNat 48 (v / 2 ^ 144)) := rfl

theorem sReg_eq : sReg s c k = (getFr s c (4 * k)).toNat * 2 ^ 0 + (getFr s c (4 * k + 1)).toNat * 2 ^ 48 +
    (getFr s c (4 * k + 2)).toNat * 2 ^ 96 + (getFr s c (4 * k + 3)).toNat * 2 ^ 144 := rfl

theorem sReg_setSReg_same (hv : v < 2 ^ 192) : sReg (setSReg s c k v) c k = v := by
  have hread : ∀ j < 4, getFr (setSReg s c k v) c (4 * k + j) = BitVec.ofNat 48 (v / 2 ^ (48 * j)) := by
    intro j hj
    interval_cases j <;> simp [setSReg_eq, getFr_setFr]
  have h0 := hread 0 (by decide)
  have h1 := hread 1 (by decide)
  have h2 := hread 2 (by decide)
  have h3 := hread 3 (by decide)
  simp only [sReg_eq, Nat.add_zero] at h0 ⊢
  rw [h0, h1, h2, h3]
  simp only [BitVec.toNat_ofNat]
  omega

theorem getFr_setSReg_ne (h : n / 4 ≠ k) : getFr (setSReg s c k v) c n = getFr s c n := by
  rw [setSReg_eq, getFr_setFr, if_neg (by omega), getFr_setFr, if_neg (by omega), getFr_setFr, if_neg (by omega), getFr_setFr, if_neg (by omega)]

theorem sReg_setSReg_ne {r : ℕ} (h : r ≠ k) : sReg (setSReg s c k v) c r = sReg s c r := by
  rw [sReg_eq, getFr_setSReg_ne (by omega), getFr_setSReg_ne (by omega), getFr_setSReg_ne (by omega), getFr_setSReg_ne (by omega), sReg_eq]

theorem sReg_orStw : sReg (orStw s c fl sat) c k = sReg s c k := by
  simp only [sReg_eq, getFr, ctxOf_orStw]
  rfl

/-- A write of an S register leaves the rest of the context. -/
theorem ctxOf_setSReg : (ctxOf (setSReg s c k v) c).stw = (ctxOf s c).stw ∧ (ctxOf (setSReg s c k v) c).g = (ctxOf s c).g ∧
    (ctxOf (setSReg s c k v) c).m = (ctxOf s c).m ∧ (ctxOf (setSReg s c k v) c).pc = (ctxOf s c).pc := by
  simp [setSReg_eq, ctxOf_setFr]

/-- It leaves memory and the control registers. -/
theorem setSReg_mem_regs : (setSReg s c k v).mem = s.mem ∧ (setSReg s c k v).regs = s.regs := by simp [setSReg_eq]

end

/-! #### Lanes (R296) -/

section

variable {t : BitVec 4} {b i v : ℕ} {l : List ℕ}

/-- The lanes of a type fill an S register. -/
theorem lanes_fill : ∀ t : BitVec 4, lanesOf t ≠ 0 → typeBits t * lanesOf t = 192 ∧ 0 < typeBits t := by decide

theorem laneAt_lt : laneAt t v i < 2 ^ typeBits t := Nat.mod_lt _ (by positivity)

/-- Digit `i` of a number written in base `b`. -/
theorem ofDigits_div_pow_mod (hl : ∀ x ∈ l, x < b) : Nat.ofDigits b l / b ^ i % b = l.getD i 0 := by
  induction l generalizing i with
  | nil => simp
  | cons x l ih =>
    have hx : x < b := hl x List.mem_cons_self
    rw [Nat.ofDigits_cons]
    cases i with
    | zero => rw [pow_zero, Nat.div_one, Nat.add_mul_mod_self_left, Nat.mod_eq_of_lt hx, List.getD_cons_zero]
    | succ i =>
      rw [pow_succ', ← Nat.div_div_eq_div_mul, Nat.add_mul_div_left _ _ (Nat.zero_lt_of_lt hx), Nat.div_eq_of_lt hx, Nat.zero_add,
        List.getD_cons_succ, ih fun y hy => hl y (List.mem_cons_of_mem _ hy)]

theorem laneAt_ofDigits (hl : ∀ x ∈ l, x < 2 ^ typeBits t) : laneAt t (Nat.ofDigits (2 ^ typeBits t) l) i = l.getD i 0 := by
  rw [laneAt, pow_mul, ofDigits_div_pow_mod hl]

end

/-! #### Writing lanes (R298, R303) -/

section

variable {s : State} {c : Core} {f : StreamFields} {t : BitVec 4} {out : ℕ → Out} {k n : ℕ}

/-- What a lane takes: its result, or what its mask leaves of it (R298). -/
def laneTaken (s : State) (c : Core) (f : StreamFields) (t : BitVec 4) (out : ℕ → Out) (k : ℕ) : ℕ :=
  if laneOn s c f k then (out k).v % 2 ^ typeBits t else if f.msk = 2 then 0 else sLane s c t f.dst k

theorem laneTaken_lt : laneTaken s c f t out k < 2 ^ typeBits t := by
  unfold laneTaken
  split_ifs
  · exact Nat.mod_lt _ (by positivity)
  · positivity
  · exact laneAt_lt

/-- Lanes packed from lane 0 upwards into the register that takes them. -/
theorem putLanes_eq : putLanes s c f t out = setSReg (orStw s c (laneFlags s c f (lanesOf t) out) (laneSat s c f (lanesOf t) out)) c f.dst.toNat
    (Nat.ofDigits (2 ^ typeBits t) ((List.range (lanesOf t)).map (laneTaken s c f t out))) := by
  rw [Nat.ofDigits_eq_foldr]
  simp only [mul_comm (2 ^ typeBits t)]
  rfl

theorem laneTaken_all {x : ℕ} (hx : x ∈ (List.range (lanesOf t)).map (laneTaken s c f t out)) : x < 2 ^ typeBits t := by
  obtain ⟨k, -, rfl⟩ := List.mem_map.mp hx
  exact laneTaken_lt

theorem lanes_lt (ht : lanesOf t ≠ 0) : Nat.ofDigits (2 ^ typeBits t) ((List.range (lanesOf t)).map (laneTaken s c f t out)) < 2 ^ 192 := by
  obtain ⟨hfill, hpos⟩ := lanes_fill t ht
  have h := Nat.ofDigits_lt_base_pow_length (Nat.one_lt_two_pow hpos.ne') fun x hx => laneTaken_all (s := s) (c := c) (f := f) (out := out) hx
  rwa [List.length_map, List.length_range, ← pow_mul, hfill] at h

theorem laneAt_putLanes (ht : lanesOf t ≠ 0) (hk : k < lanesOf t) :
    laneAt t (sReg (putLanes s c f t out) c f.dst.toNat) k = laneTaken s c f t out k := by
  rw [putLanes_eq, sReg_setSReg_same (lanes_lt ht), laneAt_ofDigits fun x => laneTaken_all]
  simp [hk]

theorem sReg_putLanes_ne {r : ℕ} (h : r ≠ f.dst.toNat) : sReg (putLanes s c f t out) c r = sReg s c r := by
  rw [putLanes_eq, sReg_setSReg_ne h, sReg_orStw]

theorem putLanes_mem_regs : (putLanes s c f t out).mem = s.mem ∧ (putLanes s c f t out).regs = s.regs := by
  rw [putLanes_eq, setSReg_mem_regs.1, setSReg_mem_regs.2]
  exact ⟨rfl, rfl⟩

theorem bit_foldl_or {α : Type} {p : α → Bool} {g : α → FFlags} {l : List α} {x : FFlags} {i : ℕ} :
    bit (l.foldl (fun y a => if p a then y ||| g a else y) x) i = (bit x i || l.any fun a => p a && bit (g a) i) := by
  induction l generalizing x with
  | nil => simp
  | cons a l ih =>
    rw [List.foldl_cons, ih, List.any_cons, ← Bool.or_assoc]
    congr 1
    cases h : p a <;> simp [bit_or]

theorem bit_laneFlags {i : ℕ} : bit (laneFlags s c f n out) i = (List.range n).any fun k => laneOn s c f k && bit (out k).fl i := by
  rw [laneFlags, bit_foldl_or]
  simp [bit]

/-- Flags and SAT status as STW takes them (R64, R303). -/
theorem bit_stw_orStw {fl : FFlags} {sat : Bool} {i : ℕ} :
    bit (ctxOf (orStw s c fl sat) c).stw i = (bit (ctxOf s c).stw i || (decide (i < 5) && bit fl i) || (i == 5 && sat)) := by
  have hfl : bit (fl.setWidth 48) i = (decide (i < 5) && bit fl i) := by
    unfold bit
    by_cases hi : i < 5
    · simp [hi, show i < 48 by omega]
    · simp [hi, BitVec.getLsbD_of_ge fl i (by omega)]
  have hsat : bit (ofBool 48 sat <<< 5) i = (i == 5 && sat) := by
    cases sat
    · simp [bit, ofBool]
    · refine (BitVec.getLsbD_twoPow 5 i).trans ?_
      simp [beq_eq_decide, eq_comm]
  rw [ctxOf_orStw, bit_or, bit_or, hfl, hsat]

theorem ctxOf_putLanes : (∀ i, bit (ctxOf (putLanes s c f t out) c).stw i = (bit (ctxOf s c).stw i ||
      (decide (i < 5) && (List.range (lanesOf t)).any fun k => laneOn s c f k && bit (out k).fl i) ||
      (i == 5 && (List.range (lanesOf t)).any fun k => laneOn s c f k && (out k).sat))) ∧
    (ctxOf (putLanes s c f t out) c).g = (ctxOf s c).g ∧ (ctxOf (putLanes s c f t out) c).m = (ctxOf s c).m ∧
    (ctxOf (putLanes s c f t out) c).pc = (ctxOf s c).pc := by
  obtain ⟨hstw, hg, hm, hpc⟩ := ctxOf_setSReg (s := orStw s c (laneFlags s c f (lanesOf t) out) (laneSat s c f (lanesOf t) out)) (c := c)
    (k := f.dst.toNat) (v := Nat.ofDigits (2 ^ typeBits t) ((List.range (lanesOf t)).map (laneTaken s c f t out)))
  rw [putLanes_eq, hstw, hg, hm, hpc]
  refine ⟨fun i => ?_, ?_, ?_, ?_⟩
  · rw [bit_stw_orStw, bit_laneFlags]
    rfl
  · rw [ctxOf_orStw]
  · rw [ctxOf_orStw]
  · rw [ctxOf_orStw]

end

end Sys2Proof.Proofs

/-! ### Dot products (R63, R281, R300) -/

namespace Sys2Proof.Proofs
open Sys2Proof Sys2Proof.Machine

/-! #### Exact sums of many terms -/

section

variable {α β M : Type} [AddMonoid M]

/-- What is added step by step, as `g` sees it, comes to the sum of the terms. -/
theorem foldl_eq_sum {g : β → M} {h : α → M} {step : β → α → β} (hstep : ∀ b x, g (step b x) = g b + h x) (l : List α) (b : β) :
    g (l.foldl step b) = g b + (l.map h).sum := by
  induction l generalizing b with
  | nil => simp
  | cons x l ih => rw [List.foldl_cons, ih, hstep, List.map_cons, List.sum_cons, add_assoc]

theorem signedSize_addDyadic (rm : BitVec 3) (a b : Machine.Dyadic) : signedSize (addDyadic rm a b) = signedSize a + signedSize b := by
  obtain ⟨ha, hb, hadd⟩ | ⟨-, ⟨hsum, hadd⟩ | ⟨-, hadd⟩⟩ := addDyadic_cases rm a b
  · rw [hadd, signedSize_eq_zero.mpr ha, signedSize_eq_zero.mpr hb, signedSize_eq_zero.mpr rfl, add_zero]
  · rw [hadd, hsum, signedSize_eq_zero.mpr rfl]
  · exact hadd

end

/-! #### Operands that are neither infinite nor NaN -/

section

variable {m : Fmt} {md : FMode} {daz : Bool} {x n : ℕ} {t ty : BitVec 4}

/-- An encoding that is neither a NaN nor an infinity. -/
def IsFinite (m : Fmt) (x : ℕ) : Prop := m.isNan x = false ∧ m.isInf x = false

theorem isFinite_encoding {s : Bool} (hn : n < m.top * 2 ^ m.f) : IsFinite m (encoding m s n) :=
  ⟨isNan_encoding_eq_false hn, isInf_encoding_eq_false hn⟩

theorem isFinite_readAs (hm : Proper m) (hx : IsFinite m x) : IsFinite m (readAs m daz x) := by
  unfold readAs
  split_ifs
  · exact isFinite_encoding (Nat.mul_pos (top_pos hm) (by positivity))
  · exact hx

/-- Denormals-are-zero leaves zeros and normal encodings as they are (R66). -/
theorem readAs_encoding {s : Bool} (hn : n < 2 ^ (m.e + m.f)) (h : n = 0 ∨ 2 ^ m.f ≤ n) : readAs m daz (encoding m s n) = encoding m s n := by
  rw [readAs, unsigned_encoding hn, sign_encoding hn]
  split_ifs with hlt
  · rw [h.resolve_right (by omega)]
  · rfl

theorem readAs_readAs : readAs m daz (readAs m daz x) = readAs m daz x := by
  by_cases h : daz = true ∧ unsigned m x < 2 ^ m.f
  · rw [readAs.eq_1 m daz x, if_pos h]
    exact readAs_encoding (by positivity) (.inl rfl)
  · rw [readAs.eq_1 m daz x, if_neg h, readAs, if_neg h]

/-- A widened operand is zero or normal in F48. -/
theorem normal_widened (h : magnitude f48 n = size (f24.value x)) : n = 0 ∨ 2 ^ f48.f ≤ n := by
  by_cases h0 : (f24.value x).m = 0
  · exact .inl (magnitude_eq_zero.mp (h.trans (size_eq_zero.mpr h0)))
  · have hscale : -141 ≤ (f24.value x).e := le_scale
    have hone : (1 : ℚ) ≤ (f24.value x).m := by exact_mod_cast Nat.one_le_iff_ne_zero.mpr h0
    refine .inr ((magnitude_strictMono f48).le_iff_le.mp ?_)
    rw [h, magnitude_normal, size]
    calc (2 : ℚ) ^ (1 - (f48.bias : ℤ)) ≤ 2 ^ (f24.value x).e :=
          zpow_le_zpow_right₀ one_le_two ((show 1 - (f48.bias : ℤ) ≤ -141 by decide).trans hscale)
      _ ≤ (f24.value x).m * 2 ^ (f24.value x).e := le_mul_of_one_le_left (by positivity) hone

/-- The accumulator of a floating dot product is of its own type, or F48 for F24 (R281). -/
theorem acc_dot_of_isFloat : ∀ (t : BitVec 4) (aw : BitVec 3), isFloat t = true →
    RedOp.acc .dot t aw = t ∨ (t = 6 ∧ RedOp.acc .dot t aw = 7) := by decide

/-- The terms of a dot product as the accumulator type reads them (R281). -/
def dotOperands (t ty : BitVec 4) (daz : Bool) (terms : List (ℕ × ℕ)) : List (ℕ × ℕ) :=
  terms.map fun x => (redOperand t ty daz x.1, redOperand t ty daz x.2)

/-- An operand as its accumulator type reads it is the same number (R281, R291). -/
theorem readAs_redOperand (ht : isFloat t = true) (hty : ty = t ∨ (t = 6 ∧ ty = 7)) (hx : IsFinite (fmtOf t) x) :
    IsFinite (fmtOf ty) (readAs (fmtOf ty) daz (redOperand t ty daz x)) ∧
    number (fmtOf ty) (readAs (fmtOf ty) daz (redOperand t ty daz x)) = number (fmtOf t) (readAs (fmtOf t) daz x) := by
  rcases hty with rfl | ⟨rfl, rfl⟩
  · have hred : redOperand ty ty daz x = readAs (fmtOf ty) daz x := by rw [redOperand, if_pos ht, if_pos rfl, read_eq_readAs]
    rw [hred, readAs_readAs]
    exact ⟨isFinite_readAs proper_fmtOf hx, rfl⟩
  · obtain ⟨hnan, hinf⟩ := isFinite_readAs (daz := daz) proper_fmtOf hx
    obtain ⟨n, hn, hwiden, hmag⟩ := widen_finite rfl hnan hinf
    have hlt := hn.trans infinity_lt
    have hred : redOperand 6 7 daz x = encoding f48 (f24.sign (readAs f24 daz x)) n := hwiden
    have hread : readAs f48 daz (redOperand 6 7 daz x) = encoding f48 (f24.sign (readAs f24 daz x)) n := by
      rw [hred, readAs_encoding hlt (normal_widened hmag)]
    change IsFinite f48 (readAs f48 daz (redOperand 6 7 daz x)) ∧ number f48 (readAs f48 daz (redOperand 6 7 daz x)) = number f24 (readAs f24 daz x)
    rw [hread]
    refine ⟨isFinite_encoding hn, ?_⟩
    rw [number_encoding hlt, hmag, number_eq]
    rfl

end

/-! #### One lane -/

section

variable {m : Fmt} {md : FMode} {c0 : ℕ} {terms : List (ℕ × ℕ)}

/-- The terms of a dot product as denormals-are-zero reads them. -/
def termsRead (m : Fmt) (md : FMode) (terms : List (ℕ × ℕ)) : List (ℕ × ℕ) := terms.map fun x => (readAs m md.daz x.1, readAs m md.daz x.2)

/-- The exact sum of a dot product: the addend, and each product after it. -/
def dotSum (m : Fmt) (md : FMode) (c0 : ℕ) (terms : List (ℕ × ℕ)) : Machine.Dyadic :=
  ((termsRead m md terms).map fun x => mulDyadic (m.value x.1) (m.value x.2)).foldl (addDyadic md.rm) (m.value (readAs m md.daz c0))

theorem signedSize_dotSum : signedSize (dotSum m md c0 terms) = number m (readAs m md.daz c0) +
    (terms.map fun x => number m (readAs m md.daz x.1) * number m (readAs m md.daz x.2)).sum := by
  rw [dotSum, foldl_eq_sum (signedSize_addDyadic md.rm), termsRead, List.map_map, List.map_map, number_eq]
  congr 2
  refine List.map_congr_left fun x _ => ?_
  simp only [Function.comp_apply, signedSize_mulDyadic, number_eq]

/-- A lane of finite operands is their exact sum, delivered once (R300). -/
theorem dotFloat_of_isFinite (hc : IsFinite m (readAs m md.daz c0))
    (hterms : ∀ x ∈ terms, IsFinite m (readAs m md.daz x.1) ∧ IsFinite m (readAs m md.daz x.2)) :
    dotFloat m md c0 terms = m.deliver md (dotSum m md c0 terms) := by
  have hread : ∀ x ∈ termsRead m md terms, IsFinite m x.1 ∧ IsFinite m x.2 := by
    intro x hx
    obtain ⟨y, hy, rfl⟩ := List.mem_map.mp hx
    exact hterms y hy
  have hproduct : (termsRead m md terms).any (fun x => (m.isInf x.1 && m.isZero x.2) || (m.isZero x.1 && m.isInf x.2)) = false :=
    List.any_eq_false.mpr fun x hx => by simp [(hread x hx).1.2, (hread x hx).2.2]
  have hinf : (termsRead m md terms).filter (fun x => m.isInf x.1 || m.isInf x.2) = [] :=
    List.filter_eq_nil_iff.mpr fun x hx => by simp [(hread x hx).1.2, (hread x hx).2.2]
  have hnan : m.nanOf (readAs m md.daz c0 :: (termsRead m md terms).flatMap fun x => [x.1, x.2]) = none := by
    refine nanOf_eq_none fun y hy => ?_
    rcases List.mem_cons.mp hy with rfl | hy
    · exact hc.1
    · obtain ⟨x, hx, hy⟩ := List.mem_flatMap.mp hy
      rcases List.mem_pair.mp hy with rfl | rfl
      · exact (hread x hx).1.1
      · exact (hread x hx).2.1
  unfold dotFloat
  simp only [read_eq_readAs]
  rw [← termsRead, hproduct, hinf, hnan, hc.2]
  rfl

end

end Sys2Proof.Proofs

/-! ### The lanes that the other short-vector instructions write (R277, R281 to R286, R299 to R301) -/

namespace Sys2Proof.Proofs
open Sys2Proof Sys2Proof.Machine

/-! #### Lanes of a dot product (R281, R300) -/

section

variable {s : State} {c : Core} {aw : BitVec 3} {f : StreamFields} {j : ℕ}

/-- The number of products that a lane of a dot product gathers. -/
def gathered (aw : BitVec 3) (f : StreamFields) : ℕ := lanesOf f.ot / lanesOf (RedOp.acc .dot f.ot aw)

/-- The lanes of A and B that lane `j` gathers the products of. -/
def dotTerms (s : State) (c : Core) (aw : BitVec 3) (f : StreamFields) (j : ℕ) : List (ℕ × ℕ) :=
  (List.range (gathered aw f)).map fun k => (sLane s c f.ot f.sa (gathered aw f * j + k), sLane s c f.ot f.sb (gathered aw f * j + k))

theorem dotLane_of_isInt (ht : isInt f.ot = true) : dotLane s c aw f j = reduceInt (RedOp.acc .dot f.ot aw) f.sat
    (valOf (RedOp.acc .dot f.ot aw) (sLane s c (RedOp.acc .dot f.ot aw) f.dst j) +
      ((dotTerms s c aw f j).map fun x => valOf f.ot x.1 * valOf f.ot x.2).sum) := by
  have hdot : dotLane s c aw f j = if isFloat f.ot then _ else _ := rfl
  rw [hdot, if_neg (by simp [not_isFloat_of_isInt _ ht])]
  exact congrArg (reduceInt _ _) (foldl_eq_sum (g := id) (fun _ _ => rfl) (dotTerms s c aw f j) _)

section

variable {ty : BitVec 4} {md : FMode}

theorem dotLane_of_isFloat (hty : RedOp.acc .dot f.ot aw = ty) (hmd : modeOf s c 7 = md) (ht : isFloat f.ot = true) : dotLane s c aw f j =
    dotFloat (fmtOf ty) md (sLane s c ty f.dst j) (dotOperands f.ot ty md.daz (dotTerms s c aw f j)) := by
  subst hty hmd
  exact if_pos ht

/-- A lane of finite operands is rounded once from its exact sum (R300). -/
theorem dotLane_rounded {total : ℚ} (hty : RedOp.acc .dot f.ot aw = ty) (hmd : modeOf s c 7 = md) (ht : isFloat f.ot = true)
    (hrm : md.rm.toNat ≤ 4) (hold : IsFinite (fmtOf ty) (sLane s c ty f.dst j))
    (hterms : ∀ x ∈ dotTerms s c aw f j, IsFinite (fmtOf f.ot) x.1 ∧ IsFinite (fmtOf f.ot) x.2)
    (htotal : total = number (fmtOf ty) (readAs (fmtOf ty) md.daz (sLane s c ty f.dst j)) + ((dotTerms s c aw f j).map fun x =>
      number (fmtOf f.ot) (readAs (fmtOf f.ot) md.daz x.1) * number (fmtOf f.ot) (readAs (fmtOf f.ot) md.daz x.2)).sum) (h0 : total ≠ 0) :
    Rounded (fmtOf ty) md (decide (total < 0)) (fun q => |total| - q) (dotLane s c aw f j) := by
  have hread := fun {x : ℕ} => readAs_redOperand (daz := md.daz) (x := x) ht (hty ▸ acc_dot_of_isFloat f.ot aw ht)
  have hsum : total = signedSize (dotSum (fmtOf ty) md (sLane s c ty f.dst j) (dotOperands f.ot ty md.daz (dotTerms s c aw f j))) := by
    rw [htotal, signedSize_dotSum, dotOperands, List.map_map]
    congr 2
    refine List.map_congr_left fun x hx => ?_
    rw [Function.comp_apply, (hread (hterms x hx).1).2, (hread (hterms x hx).2).2]
  have hfinite : ∀ x ∈ dotOperands f.ot ty md.daz (dotTerms s c aw f j),
      IsFinite (fmtOf ty) (readAs (fmtOf ty) md.daz x.1) ∧ IsFinite (fmtOf ty) (readAs (fmtOf ty) md.daz x.2) := by
    intro x hx
    obtain ⟨y, hy, rfl⟩ := List.mem_map.mp hx
    exact ⟨(hread (hterms y hy).1).1, (hread (hterms y hy).2).1⟩
  rw [dotLane_of_isFloat hty hmd ht, dotFloat_of_isFinite (isFinite_readAs proper_fmtOf hold) hfinite, hsum]
  exact (delivered_signedSize proper_fmtOf hrm fun _ => rfl).2 (hsum ▸ h0)

end

end

/-! #### The instructions -/

section

variable {s u w : State} {c : Core} {f : StreamFields} {tt : BitVec 4}

/-- A conversion that issues: lane by lane, the lanes without a source free (log 15). -/
theorem execScvt_issues {zero : Bool} (h : IssuesLazy .plain (some 2) s u w c) (hl : (Instr.scvt c tt f).wellFormed = true) :
    exec (if zero then .scvtz c tt f else .scvt c tt f) s = .next (completes (putLanes { w with free := w.free + 16 } c f tt fun k =>
      if k < lanesOf f.ot then shortElem (.cvt tt zero) c f w k else { v := (Config.freeBits 48 (w.free + k)).toNat }) c) := by
  cases zero <;> exact Laws.runIns_done_lazy h hl (by simp) rfl rfl

/-- A compress packs the selected lanes from lane 0, zero above (R286). -/
theorem exec_scmpr : exec (.scmpr c tt f) s = runShort c (.scmpr c tt f) f (some 2) f.ot
    (fun t k => { v := ((selected (mReg t c f.sc.toNat) (lanesOf f.ot))[k]?.map (sLane t c f.ot f.sa)).getD 0 }) s := by
  change execScmpr c tt f s = _
  unfold execScmpr
  congr 1
  funext t k
  cases (selected (mReg t c f.sc.toNat) (lanesOf f.ot))[k]? with
  | none => rw [Option.map_none, Option.getD_none]
  | some j => rw [Option.map_some, Option.getD_some]

theorem shortAddr_eq : shortAddr s c f = ((getG s c f.sa.toNat).toNat + (getG s c f.sb.toNat).toNat) % 2 ^ 40 := by
  rw [shortAddr, BitVec.toNat_add, Nat.mod_mod_of_dvd _ (pow_dvd_pow 2 (by decide))]

/-- A load that issues takes the lanes of the 16 plies (R301). -/
theorem execSld_issues {t : State} {v : ℕ} (h : IssuesLazy .plain (accessCost u (shortAddr u c f) 16 false) s u w c)
    (hload : loadAligned w c (shortAddr w c f) 16 = .ok v t) (hl : (Instr.sld c f).wellFormed = true) :
    exec (.sld c f) s = .next (completes (putLanes t c f f.ot fun k => { v := laneAt f.ot v k }) c) :=
  Laws.runIns_done_lazy (t := putLanes t c f f.ot fun k => { v := laneAt f.ot v k }) h hl (by simp) rfl (by rw [hload]; rfl)

end

/-- Settles O28: a dot product by its exact sum, each instruction by the lanes that it gives, and the register, the flags and the rest after
writing them. -/
theorem laneResults : Obligations.LaneResults := by
  unfold Obligations.LaneResults
  refine ⟨fun s c aw f j _ => ?_, fun s u w t c f tt aw v => ?_, fun s c f t out ht hd => ?_⟩
  · intro t ty r stw md val a b old x wild total
    have hval : ∀ (y : BitVec 4) (v i : ℕ), valOf y (laneAt y v i) = val y (laneAt y v i) := fun _ _ _ => valOf_eq laneAt_lt
    refine ⟨fun hint => ?_, fun hfloat hrm hold hterms h0 => ?_⟩
    · have hlane : dotLane s c aw f j = reduceInt ty f.sat (val ty old + ((List.range r).map fun k => val t (a k) * val t (b k)).sum) := by
        rw [dotLane_of_isInt hint, dotTerms, List.map_map]
        simp only [sLane, Function.comp_def, hval]
        rfl
      rw [hlane]
      exact reduced_reduceInt
    · refine dotLane_rounded rfl rfl hfloat hrm (Bool.or_eq_false_iff.mp hold) (fun x hx => ?_) (by rw [dotTerms, List.map_map]; rfl) h0
      obtain ⟨k, hk, rfl⟩ := List.mem_map.mp hx
      obtain ⟨ha, hb⟩ := hterms k (List.mem_range.mp hk)
      exact ⟨Bool.or_eq_false_iff.mp ha, Bool.or_eq_false_iff.mp hb⟩
  · intro stw md n lane sel below nth gives a a'
    refine ⟨fun h => fun hl => runShort_issues h hl, fun h => fun hl => runShort_issues h hl, fun h => ⟨fun z hl _ => ⟨_, execScvt_issues h hl⟩,
      fun hl => runShort_issues h hl, fun hl => exec_scmpr.trans (runShort_issues h hl), fun hl => runShort_issues h hl, fun hl => runShort_issues h hl,
      fun hl => runShort_issues h hl⟩, fun h hload hl => ?_⟩
    have ha : a = shortAddr u c f := shortAddr_eq.symm
    have ha' : a' = shortAddr w c f := shortAddr_eq.symm
    rw [ha] at h
    rw [ha'] at hload
    exact execSld_issues h hload hl
  · intro z on
    obtain ⟨hstw, hg, hm, hpc⟩ := ctxOf_putLanes (s := s) (c := c) (f := f) (t := t) (out := out)
    obtain ⟨hmem, hregs⟩ := putLanes_mem_regs (s := s) (c := c) (f := f) (t := t) (out := out)
    exact ⟨fun k hk => laneAt_putLanes ht hk, fun r _ hr => sReg_putLanes_ne hr, hstw, hg, hm, hpc, hmem, hregs⟩

end Sys2Proof.Proofs
